-- ==== Sys2Proof/Word.lean ====
section
/-! DEFINITION. The word types of the DV-880: bytes, 32-bit registers (R6), show time (R79) and bus addresses (R20). -/

namespace Sys2Proof

/-- One byte of memory or of a frame. -/
abbrev Byte := BitVec 8

/-- A register: every register is 32 bits wide (R6). -/
abbrev W32 := BitVec 32

/-- A show-time value: unsigned nanoseconds from the constellation epoch, wrapping at 2^64 (R79). -/
abbrev ST := BitVec 64

/-- A 384-bit digest (SHA-384). -/
abbrev Digest := BitVec 384

end Sys2Proof
end

