-- ==== Sys2Proof/Syntax.lean ====
section
/-! DEFINITION. The commands of the DV-880: one constructor for each row of spec/opcode_table.json, with the operands
its chapter gives the step. What arrives from outside the device (bytes read, levels, measured values, the outcome of an
external exchange) is an operand; everything the device holds is in the state. -/

namespace Sys2Proof

/-- The agents that reach registers (R10, R20, R23): the island, inner-world code, the manager, Tartal on the management
cores, the guest of one of 63 virtual functions, and the assured partitions. -/
inductive Agent where
  | island
  | inner
  | manager
  | management
  | guest (i : Fin 64)
  | partition (p : Fin 8)
  deriving DecidableEq, Repr

/-- The privilege modes of an application core (R266). -/
inductive CoreMode where
  | m | hs | u | vs | vu
  deriving DecidableEq, Repr

/-- The fences of a core's translations (R269). -/
inductive CoreFence where
  | sfenceVma | hfenceVvma | hfenceGvma
  deriving DecidableEq, Repr

/-- The spaces through which a register is addressed: the main-domain map (R20), PF BAR0 (R24), the BAR0 of a virtual
function (R25), the island's own port of the cue engine, which behaves like a window, and the CSRs of an application core
(R267, R269, R270, R278), addressed by CSR number from the mode that the core is in. The fences of R269 stand beside the CSRs:
their operands are an address and an address-space or VMID number, none for x0. The MSI-X Message Control word of a function's
configuration space (R294), 0 the PF, is a space of its own. -/
inductive Space where
  | main
  | pfBar0
  | guestBar0 (i : Fin 64)
  | islandPort
  | csr (core : Fin 8) (mode : CoreMode)
  | fence (core : Fin 8) (mode : CoreMode) (kind : CoreFence) (addr id : Option (BitVec 64))
  | msixControl (function : Fin 64)
  deriving DecidableEq, Repr

/-- The main supplies of R388. -/
inductive Supply where
  | vddCore | vddGfx | vddSerdes | vddaSerdes | vddDdr | vddq | vio18 | vio33 | vddaPll
  deriving DecidableEq, Repr

/-- A firmware image as read from boot flash (R41, R60): where it stands, the bytes that its signature covers, the public key and
the signature that it brings, its interface number, and the ranges it accepts of the recipe and of the other firmware. -/
structure FwImage where
  offset : Nat
  bytes : List Byte
  key : List Byte
  sig : List Byte
  iface : Nat
  recipeMin : Nat
  recipeMax : Nat
  otherMin : Nat
  otherMax : Nat
  deriving DecidableEq, Repr

/-- What boot training finds on one DRAM channel (R247, R257): whether it passes, the density its mode registers report
(in MiB), and whether the device reports support for link ECC. -/
structure ChanReport where
  passes : Bool
  densityMib : Nat
  linkEcc : Bool
  deriving DecidableEq, Repr

/-- A break at a DMX input (R346): the ST of its falling edge, its length and that of the mark after it, in ns. -/
structure DmxBreak where
  st : ST
  lowNs : Nat
  markNs : Nat
  deriving DecidableEq, Repr

/-- How an I2C or SPI transfer ends (R358): complete, at an address or a data byte that no target acknowledges, with SCL held low
for so many ns, or at its start because SDA is low. -/
inductive BusEnd where
  | complete
  | addrNak
  | dataNak
  | clockLow (ns : Nat)
  | dataLow
  deriving DecidableEq, Repr

/-- A decoded LTC frame (R86, R351): timecode digits, drop-frame flag, direction bit, user groups, measured speed in
percent of nominal, and whether its 80 bits end in a correct sync word. -/
structure LtcFrame where
  hours : Nat
  minutes : Nat
  seconds : Nat
  frames : Nat
  drop : Bool
  reversed : Bool
  user : W32
  speed : Nat
  syncOk : Bool
  deriving DecidableEq, Repr

/-- What an SSI port samples in one read (R356): the data line at the start, the raw bits as they arrive, the extra
bits, the parity bit, and whether the line is high again within the monoflop time. -/
structure SsiFrame where
  lowAtStart : Bool
  bits : BitVec 32
  extra : BitVec 8
  parity : Bool
  monoflopOk : Bool
  deriving DecidableEq, Repr

/-- The windows of the cue engine (R104 to R106): manager, assured partition, guest, and the island's own port. -/
inductive CueWindow where
  | manager
  | partition (p : Fin 8)
  | guest (i : Fin 64)
  | island
  deriving DecidableEq, Repr

/-- The Weahar header of a received frame (R124, R126), the tag that follows its payload, and whether the frame bytes are those
of an earlier one sent again under the link retry (R135). -/
structure FabHdr where
  dst : BitVec 12
  broadcast : Bool
  src : BitVec 12
  unnumbered : Bool
  hops : Nat
  keyPhase : Bool
  ctr : Nat
  tag : BitVec 128
  resent : Bool
  deriving DecidableEq, Repr

/-- The kinds of cue-class DATA (R137). -/
inductive DataKind where
  | deliver | arm
  deriving DecidableEq, Repr

/-- A cue-class DATA payload (R137). -/
structure DataMsg where
  seq : W32
  epoch : BitVec 16
  isOpen : Bool
  kind : DataKind
  voidAfter : ST
  appPort : Fin 32
  bytes : List Byte
  deriving DecidableEq, Repr

/-- A REPLY payload (R137): outcome 1 DONE, 2 VOID, 3 DUP. -/
structure ReplyMsg where
  seq : W32
  epoch : BitVec 16
  outcome : Nat
  detail : Nat
  result : BitVec 64
  deriving DecidableEq, Repr

/-- One link of a TOPO frame (R145): the neighbour and the originator's port. -/
structure TopoLink where
  port : Fin 8
  neighbour : BitVec 12
  deriving DecidableEq, Repr

/-- The frames that R121 discards. -/
inductive BadFrame where
  | vlan | overlong | etherType
  deriving DecidableEq, Repr

/-- The operations of shader atomics. No rule lists them; these are those of Vulkan 1.3 on integers. -/
inductive AtomicOp where
  | add | sub | and_ | or_ | xor_ | minU | maxU | minS | maxS | exchange | compareExchange
  deriving DecidableEq, Repr

/-- One memory access of an invocation of a shader: a load or store of bytes at a virtual address, an atomic on 4 or 8 bytes
(R153), or the read of one texel through an image of a descriptor set (R158): set, descriptor, level, layer, and place. No rule
gives the instruction set of a shader (R176), so what its invocations did is an operand. -/
inductive ShaderOp where
  | load (inv va n : Nat)
  | store (inv va : Nat) (bytes : List Byte)
  | atomic (inv va : Nat) (wide : Bool) (op : AtomicOp) (value compare : BitVec 64)
  | texel (inv set index level layer x y : Nat)
  deriving DecidableEq, Repr

/-- One fragment that the shading of a primitive leaves: its pixel, its sample under sample shading or else the samples that it
covers as a mask, what the shader puts out (none: discarded), and the accesses of its interlocked region (R165, R166). -/
structure Frag where
  x : Nat
  y : Nat
  sample : Option Nat
  cover : Nat
  out : Option (List Byte)
  region : List ShaderOp
  deriving DecidableEq, Repr

/-- A primitive that survives culling: the number of tiles it touches (R163) and its fragments. -/
structure PrimWork where
  tiles : Nat
  frags : List Frag
  deriving DecidableEq, Repr

/-- What the shaders and the primitive setup did with one draw (R162 to R166): its surviving primitives in submission order,
and the accesses of its invocations outside interlocked regions. -/
structure DrawWork where
  prims : List PrimWork
  shader : List ShaderOp
  deriving DecidableEq, Repr, Inhabited

/-- What happens on one line of an output (R218, R237): the active line that ends, from 1 (any other number is a line of the
blanking); the columns that composition has not placed in time; lockstep errors of the active and the standby renderer; and
what faults have turned over in the words of pixels, as (column, bits): in the active and the standby renderer, and between
the mixer and the PHY input. -/
structure LineObs where
  line : Nat
  missing : List Nat
  activeLockstep : Bool
  standbyLockstep : Bool
  activeErr : List (Nat × W32)
  standbyErr : List (Nat × W32)
  phyErr : List (Nat × W32)
  deriving DecidableEq, Repr

/-- Who issues a DRAM or system access (R253, R271), with its owner code (R102), the world it carries and its port. Of an
application core also the mode it is in (R266) and the instruction that makes the access, 0 for a fetch; a compressed one
stands expanded, marked as short (R269). -/
structure Requester where
  unit : Fin 32
  owner : BitVec 8
  inner : Bool
  fetch : Bool
  port : Fin 24
  mode : CoreMode
  insn : W32
  short : Bool
  deriving DecidableEq, Repr

/-- The outcome of a DRAM transaction on the link and in inline ECC (R257, R258). -/
inductive EccResult where
  | clean | linkCorrected | linkRead | linkWriteOnce | linkWriteTwice | inlineSingle | inlineDouble
  deriving DecidableEq, Repr

/-- The caches of R283. -/
inductive CacheLevel where
  | l1i | l1d | l2 | l3
  deriving DecidableEq, Repr

/-- A request to a directory slice (R282): a writeback that takes the line's slot, its completion, an ownership request
of a core, and the release of the slot by the transaction that holds it. -/
inductive DirEvent where
  | writeback (core : Fin 8)
  | request (core : Fin 8)
  | release
  deriving DecidableEq, Repr

/-- One run of a code (R324): for each RX the 16 chips as the first halves and the second halves integrate them, in counts. -/
abbrev CodeRun := List (List (Int × Int))

/-- The runs of one code in a frame (R324, R325): its group, and its first run and each re-run that could end by fs + P_t, in the
order made. -/
structure CodeRuns where
  group : Nat
  runs : List CodeRun
  deriving DecidableEq, Repr

/-- A point of the audio graph that has a gain (R369). -/
inductive GainPoint where
  | busIn (b : Fin 32) (slot : Fin 16)
  | bus (b : Fin 32)
  | out (o : Fin 160)
  deriving DecidableEq, Repr

/-- A multiplexer of the audio graph (R368). -/
inductive MuxPoint where
  | busIn (b : Fin 32) (slot : Fin 16)
  | out (o : Fin 160)
  deriving DecidableEq, Repr

/-- What reaches AUD at one sample instant (R363 to R370): the words in the frames of the TDM inputs, by channel 16p + c, the slave
ports that drift a whole sample and whether they drop one (true) or repeat one, and the players whose sample is not fetched. -/
structure AudioObs where
  inputs : List (Fin 128 × Int)
  drifted : List (Fin 8 × Bool)
  unfetched : List (Fin 16)
  deriving DecidableEq, Repr

/-- One retired instruction that the sampling unit selects (R384). -/
structure SampleRec where
  pc : BitVec 64
  dataAddr : BitVec 64
  insn : W32
  latency : Nat
  load : Bool
  store : Bool
  mispredicted : Bool
  deriving DecidableEq, Repr

/-- The commands of the DV-880, in the order of the table. -/
inductive Instr where
  -- reset, boot and power (03_reset_power.md, 02_recipe.md, 19_package.md)
  | islPornAssert
  | islPornRelease (ddrSel : BitVec 3)
  | islandFirmwareCheck (fw : FwImage)
  | sysResetnFall
  | sysResetnFilterExpiry
  | sysResetnRise
  | stuckResetRelease
  | releaseTimerExpiry
  | perstAssert (p : Fin 4)
  | fullResetRequest (a : Agent) (value : W32)
  | resetToLoader (a : Agent)
  | supplyOutOfRange (x : Supply)
  | supplyInRange
  | sensorRead (temps : List Int)
  | mainDomainRelease (loaderReqn : Bool)
  | tartalCheck (fw : FwImage)
  | dramBootTraining (chans : List ChanReport)
  | recipeImageFetch (image : List Byte)
  | signatureCheck
  | admission
  | push (a : Agent)
  | powerStateEntry (a : Agent) (target : BitVec 3) (pendingWakes : BitVec 11)
  | coreWfiTimeout
  | entryCommit
  | wakeSource (bit : Fin 11)
  | exitToDay (fw hdr outSec glazeSec : Digest)
  | alwaysOnTimerMatch
  | cueLookaheadWake
  -- show time (04_show_time.md)
  | syncRx (p : Fin 8) (h : FabHdr) (origin : ST)
  | ptpMessageRx (masterNow : ST)
  | genlockHPulse (input : Fin 2)
  | genlockVPulse (input : Fin 2)
  | ltcFrame (input : Fin 2) (f : LtcFrame)
  | mainsZeroCrossing
  | sourceLoss (edges : Bool)
  | lockConditionMet
  | lockLost
  | axisSampleInstant (ax : Fin 8)
  | ssiReadEnd (ax : Fin 8) (f : SsiFrame)
  | coastDeadline (ax : Fin 8)
  | axisPosRead (a : Agent) (ax : Fin 8)
  | ltcTcRead (a : Agent)
  | splitLowWordRead (a : Agent) (space : Space) (addr bytes : Nat)
  -- cues (05_cues.md)
  | cueArm (w : CueWindow)
  | cueModify (w : CueWindow) (slot : Fin 4096) (window : BitVec 7)
  | cueCancel (w : CueWindow) (slot : Fin 4096) (window : BitVec 7)
  | cueRead (w : CueWindow) (slot : Fin 4096) (window : BitVec 7)
  | cueClr (a : Agent)
  | staging
  | axisCueEvaluation (ax : Fin 8)
  | launchWindow
  -- links (06_fabric.md)
  | blockLock (p : Fin 8)
  | verifyResend (p : Fin 8)
  | verifyResponse (p : Fin 8)
  | hello (p : Fin 8) (h : FabHdr) (version : Nat) (secure : Bool) (rate : Nat)
  | key (p : Fin 8) (h : FabHdr) (certIndex : Nat) (nonce : BitVec 128) (ephemeral signature : BitVec 512)
  | certificateCheck (p : Fin 8)
  | finish (p : Fin 8) (h : FabHdr) (hash : Digest)
  | linkAck (p : Fin 8) (h : FabHdr) (ctr : Nat)
  | linkRetryTimer (p : Fin 8) (ctr : Nat)
  | rekeyStart (p : Fin 8)
  | rekey (p : Fin 8) (h : FabHdr)
  | rekeyStall (p : Fin 8)
  | oldPhaseAcceptEnd (p : Fin 8)
  | enum (p : Fin 8) (h : FabHdr) (number : BitVec 12)
  | topo (p : Fin 8) (h : FabHdr) (links : List TopoLink)
  | heartbeatSend
  | heartbeat (p : Fin 8) (h : FabHdr)
  | heartbeatMissed (p : Fin 8)
  | blockLockLoss (p : Fin 8)
  | ringFault (p : Fin 8) (h : FabHdr) (other : BitVec 12)
  | ringHealed (p : Fin 8) (h : FabHdr) (linkA linkB : BitVec 12)
  | indication (p : Fin 8) (h : FabHdr) (indId : BitVec 16) (change : W32) (originSt : ST) (body : List Byte)
  | expressSendSlot
  | data (p : Fin 8) (h : FabHdr) (m : DataMsg)
  | reply (p : Fin 8) (h : FabHdr) (m : ReplyMsg)
  | bulkData (p : Fin 8) (h : FabHdr) (appPort : Fin 32) (body : List Byte)
  | messageRepeat (slot : Fin 256)
  | senderTimeout (slot : Fin 256)
  | peerRecordRelease (star : BitVec 12)
  | fabSlotSend (a : Agent) (slot : Fin 256)
  | fabPeerRelease (a : Agent) (star : BitVec 12)
  | pdelayTimer
  | pdelayMessage (p : Fin 8) (h : FabHdr) (measured : Option Nat)
  | syncSend
  | announceSend
  | announce (p : Fin 8) (h : FabHdr) (priority : Nat) (star : BitVec 12) (hopsToIt : Nat)
  | unsupportedFrame (p : Fin 8) (kind : BadFrame)
  -- raster engine (07_raster.md)
  | doorbell (owner : Fin 72) (q : Fin 16) (tail : BitVec 32)
  | nop (c : Fin 64)
  | call (c : Fin 64)
  | stateBind (c : Fin 64)
  | constWrite (c : Fin 64)
  | passBegin (c : Fin 64)
  | passEnd (c : Fin 64)
  | draw (c : Fin 64) (w : DrawWork)
  | drawIndexed (c : Fin 64) (w : DrawWork)
  | drawIndirect (c : Fin 64) (w : List DrawWork)
  | drawIndexedIndirect (c : Fin 64) (w : List DrawWork)
  | dispatch (c : Fin 64) (w : List ShaderOp)
  | dispatchIndirect (c : Fin 64) (w : List ShaderOp)
  | barrier (c : Fin 64)
  | cacheOp (c : Fin 64)
  | fenceWaitSt (c : Fin 64)
  | fenceWaitStRelease (c : Fin 64)
  | waitValue (c : Fin 64)
  | waitValueSatisfied (c : Fin 64)
  | writeValue (c : Fin 64)
  | signal (c : Fin 64)
  | layerSubmit (c : Fin 64)
  | gfxCtxAlloc (a : Agent) (owner : BitVec 8) (queue : Fin 16)
  | ctxFreeze (a : Agent) (c : Fin 64)
  | ctxResume (a : Agent) (c : Fin 64)
  | ctxDestroy (a : Agent) (c : Fin 64)
  | sliceExpiry (c : Fin 64)
  | preemptionPoint (c : Fin 64)
  | yieldTimeout (c : Fin 64)
  -- composition and outputs (08_composition.md, 09_outputs.md)
  | frameStart (o : Fin 8) (actual : ST)
  | layerCommit (a : Agent) (layer : Fin 48)
  | submission (a : Agent) (layer : Fin 48) (ctrl : W32)
  | flush (a : Agent) (layer : Fin 48)
  | relPop (a : Agent) (layer : Fin 48)
  | warpBand (layer : Fin 48) (bandSt : ST)
  | cursorCopyDone (layer : Fin 48)
  | outputEnable (a : Agent) (o : Fin 8) (en : Bool)
  | applyTiming (a : Agent) (o : Fin 8)
  | retrain (a : Agent) (o : Fin 8)
  | hotPlug (o : Fin 8) (sinkDsc : Bool)
  | hotPlugLoss (o : Fin 8) (linkOnly : Bool)
  | trainingDone (o : Fin 8) (ok : Bool)
  | trainingRetry (o : Fin 8)
  | genlockReferenceLoss (input : Fin 2)
  | lineEnd (o : Fin 8) (obs : LineObs)
  | outFrzClr (a : Agent) (o : Fin 8)
  -- island (10_glaze_island.md, 12_cores_worlds.md)
  | checkpoint
  | lockstepError
  | pairSwitch
  | pairSelfTest (pair : Fin 2) (pass : Bool)
  | sramCorrectedError
  | glzEdit (chan : Fin 2) (seq : W32) (immediate : Bool) (out index offset : Nat) (bytes : List Byte)
  | glzCommit (chan : Fin 2) (seq : W32) (mask : Byte)
  | glzRead (chan : Fin 2) (seq : W32) (out index : Nat)
  | mainAlive (chan : Fin 2) (seq : W32)
  | status (chan : Fin 2) (seq : W32)
  | rngRead (chan : Fin 2) (seq : W32) (count : Nat)
  | seal (chan : Fin 2) (seq : W32) (plain : List Byte)
  | unseal (chan : Fin 2) (seq : W32) (sealed : List Byte)
  | dbgState (chan : Fin 2) (seq : W32)
  | islMboxRxPop (a : Agent) (chan : Fin 2)
  | commitTakesEffect (o : Fin 8)
  | islandPass
  | rendererReload (o : Fin 8) (r : Fin 2)
  | mainAliveTimeout
  | glazeStatusWord
  -- memory (11_memory.md)
  | dramRequest (r : Requester) (write : Bool) (addr : BitVec 64) (len : Nat) (bytes : List Byte) (fillNs : Nat)
  | transactionComplete (id : Nat) (ecc : EccResult)
  | creditWindow
  | rowIdleClose (ch : Fin 32) (bank : Fin 16)
  | perBankRefresh (ch : Fin 32) (bank : Fin 16) (hot : Bool)
  | retrainingPause (ch : Fin 32) (pass : Bool)
  | retrainRepeat (ch : Fin 32) (pass : Bool)
  -- cores and worlds (12_cores_worlds.md)
  | version (core : Fin 8)
  | enter (core : Fin 8)
  | wcallReturn (core : Fin 8)
  | islCall (core : Fin 8)
  | dbgLower (core : Fin 8)
  | fenceQuery (core : Fin 8)
  | partitionService (core : Fin 8) (word : W32)
  | mworldWrite (core : Fin 8) (mode : CoreMode) (value : BitVec 64)
  | lowerDebugEnable (a : Agent) (value : W32)
  | haltRequest (core : Fin 8)
  | ownershipRequest (slice : Fin 16) (line : BitVec 42) (ev : DirEvent)
  | ownershipRetry (slice : Fin 16) (line : BitVec 42) (core : Fin 8)
  | cacheError (level : CacheLevel) (single : Bool) (addr : BitVec 48) (readers : List (Fin 8)) (external : Bool)
  -- virtual instances (13_instances.md)
  | vfEnable (p : Fin 4) (set : Bool)
  | virPortCfg (a : Agent) (p : Fin 4) (value : W32)
  | create (a : Agent) (i : Fin 64)
  | instFreeze (a : Agent) (i : Fin 64)
  | instResume (a : Agent) (i : Fin 64)
  | save (a : Agent) (i : Fin 64)
  | saveDone (i : Fin 64)
  | restore (a : Agent) (i : Fin 64) (container : List Byte)
  | restoreDone (i : Fin 64)
  | destroy (a : Agent) (i : Fin 64)
  | destroyDone (i : Fin 64)
  | flr (i : Fin 64)
  | flrDone (i : Fin 64)
  | guestMailboxGo (i : Fin 64)
  | virMbRxPop (a : Agent) (i : Fin 64)
  | virMbTxGo (a : Agent) (i : Fin 64)
  | guestMailboxPop (i : Fin 64)
  | invalidation (i : Fin 72)
  | ttRootWrite (i : Fin 72) (high : Bool) (value : W32)
  | invalidationDone (i : Fin 72)
  | translatedRequest (p : Fin 4) (translated : Bool)
  -- DMA and CRC (14_dma_crc.md)
  | chStart (a : Agent) (ch : Fin 256)
  | dmaTimer (e : Fin 16) (t : Fin 4)
  | dmaTrigPin (pin : Fin 8) (falling : Bool)
  | descriptorComplete (e : Fin 16)
  | dmaPause (a : Agent) (ch : Fin 256)
  | pauseDrained (ch : Fin 256)
  | dmaResume (a : Agent) (ch : Fin 256)
  | crcData (a : Agent) (n : Fin 8) (value : W32)
  | crcDataB (a : Agent) (n : Fin 8) (value : W32)
  | crcInit (a : Agent) (n : Fin 8)
  | crcCheck (a : Agent) (n : Fin 8)
  -- touch and haptics (15_touch_haptics.md)
  | touchFrame (c : Fin 4) (noise : List Nat) (codes : List CodeRuns) (rows cols : List Nat)
  | touchFrameResult (c : Fin 4)
  | rebaseline (a : Agent) (c : Fin 4)
  | controllerEnable (a : Agent) (c : Fin 4) (en : Bool)
  | tchReportHdrRead (a : Agent) (c : Fin 4)
  | wakeGestureScan (rows cols : List Nat)
  | hapChFire (a : Agent) (ch : Fin 16) (waveform amplitude : Byte)
  | hapStop (a : Agent) (ch : Fin 16)
  | clearFault (a : Agent) (ch : Fin 16)
  | driveSample (ch : Fin 16) (milliAmp : Nat)
  -- show I/O (16_show_io.md)
  | dmxCommitRegister (a : Agent) (p : Fin 16)
  | dmxFetchDone (p : Fin 16)
  | dmxFrameEnd (p : Fin 16)
  | dmxRefresh (p : Fin 16)
  | dmxRxFrameEnd (p : Fin 16)
  | dmxRxInfoRead (a : Agent) (p : Fin 16)
  | rdmTransaction (a : Agent) (p : Fin 16)
  | rdmDiscovery (a : Agent) (p : Fin 16)
  | rdmStart (p : Fin 16)
  | rdmResponse (p : Fin 16) (bytes : List Byte) (framingOk : Bool)
  | rdmTimeout (p : Fin 16)
  | midiTx (a : Agent) (m : Fin 4) (byte : Byte)
  | midiRxByte (m : Fin 4) (byte : Byte) (ferr : Bool) (startSt : ST)
  | midiRxRead (a : Agent) (m : Fin 4)
  | ltcLoss (input : Fin 2) (edges : Bool)
  | ltcInTcRead (a : Agent) (input : Fin 2)
  | ltcOutFrame (o : Fin 2)
  | faderConversion (n : Fin 48) (test : Bool) (value : BitVec 12)
  | encoderTransition (n : Fin 16) (a b : Bool) (heldNs : Nat)
  | encCountRead (ag : Agent) (n : Fin 16)
  | i2cTransfer (a : Agent) (n : Fin 8)
  | spiTransfer (a : Agent) (n : Fin 8)
  | busTransferDone (n : Fin 8) (how : BusEnd) (bytes : List Byte)
  | gpioSetRegister (a : Agent) (b : Fin 8) (value : W32)
  | gpioClr (a : Agent) (b : Fin 8) (value : W32)
  | gpioEdge (b : Fin 8) (line : Fin 32) (rising : Bool) (heldNs : Nat)
  | usbOvercurrent (n : Fin 4)
  -- audio (17_audio.md)
  | sampleInstant (obs : AudioObs)
  | aes67Packet (eth : Fin 2) (addr : W32) (udp : BitVec 16) (timestamp : W32) (payload : List Byte)
  | gainWrite (a : Agent) (pt : GainPoint) (gain : BitVec 16)
  | gainStepDeadline (pt : GainPoint)
  | selectionWrite (a : Agent) (m : MuxPoint) (sel : Byte)
  | eqCommit (a : Agent) (b : Fin 32)
  | playerStart (a : Agent) (n : Fin 16) (clip : BitVec 16)
  | playerStop (a : Agent) (n : Fin 16)
  | playerPrime (a : Agent) (n : Fin 16) (clip : BitVec 16)
  | silenceBlock (n : Fin 8)
  -- events and counters (18_events_counters.md)
  | counterWrap (n : Fin 32)
  | pmcResetAll (a : Agent)
  | preciseSample (core : Fin 8) (r : SampleRec)
  | bwWindowClose
  | registerWrite (a : Agent) (space : Space) (addr : Nat) (bytes : Nat) (value : BitVec 64)
  -- added rows
  | perstDeassert (p : Fin 4)
  | tdmBitClockStop (n : Fin 8)
  | tdmBitClockRuns (n : Fin 8)
  | dmxRxSlot (p : Fin 16) (value : Byte) (stopOk : Bool) (after : Option DmxBreak)
  deriving DecidableEq, Repr

end Sys2Proof
end

