-- ==== Sys2Proof/Decode.lean ====
section
/-! DEFINITION. Words that spell commands. The command table gives no row any bits: a command is not an encoded word. -/

namespace Sys2Proof

/-- The command that a word of the table spells: none, as no row of the table gives bits. -/
def decodeTableWord (_nbits _w : Nat) : Option Instr := none

end Sys2Proof
end

