-- ==== Sys2Proof/Config.lean ====
section
/-! DEFINITION. What an implementation fixes and the spec leaves open (free values), and the cryptographic functions and
analogue results that the spec names and does not compute. Every constant here is opaque: no statement can rest on a
value of it. -/

namespace Sys2Proof.Config

/-- A fresh free value for each draw: the step reads and advances the counter `draws` of the state. -/
opaque freeNat : Nat → Nat

/-- A fresh free word. -/
opaque freeWord : Nat → W32

/-- A fresh free byte: TRNG output and the contents that lost memory reads as. -/
opaque freeByte : Nat → Byte

/-- The interface number of the monitor (R275), which its flash image fixes. -/
opaque monitorInterface : BitVec 64

/-- The monitor entry point at which a released core starts (R272). -/
opaque monitorEntry : BitVec 64

/-- The chunk of the fold region to which a 256-byte chunk on a disabled channel is redirected (R247 fixes no order):
enabled channels and chunk number to a place among the chunks of the fold region on enabled channels. -/
opaque foldChunk : W32 → Nat → Nat

/-- SHA-384 of a byte string (R37, R38, R73). -/
opaque sha384 : List Byte → Digest

/-- ECDSA P-384 with SHA-384 over the signed data: public key, r and s, data (R37, R38, R123). -/
opaque ecdsaP384 : List Byte → List Byte → List Byte → Bool

/-- The hash of the Paltil firmware key that island ROM holds (R60). -/
opaque paltilKeyHash : Digest

/-- Whether a destination byte that overlaps the source of its transfer keeps its old value (R313): transfer and address. -/
opaque overlapOld : Nat → Nat → Bool

/-- The adjustment in ppb that the discipline loop chooses from the phase error and its history (R89 leaves its law
open); the model limits it to the slew limit. -/
opaque loopAdjust : Nat → Int → Int

/-- The frequency estimate that holdover keeps after a loss (R88, R90). -/
opaque holdEstimate : Nat → Int

/-- The public identity key that the island derives from its device secret (R123). -/
opaque identityKey : List Byte

/-- AES-GCM-128 under the key derived from the device secret (R276): IV, plaintext, to ciphertext and tag. -/
opaque sealData : BitVec 96 → List Byte → List Byte

/-- The inverse of `sealData`: none when the tag does not verify (R276). -/
opaque unsealData : List Byte → Option (List Byte)

/-- The P-256 public key of a secret scalar (R131). -/
opaque p256Public : BitVec 256 → BitVec 512

/-- The ECDH shared secret of a secret scalar and a public key on P-256 (R132). -/
opaque p256Shared : BitVec 256 → BitVec 512 → List Byte

/-- ECDSA P-256 under an identity key (R131): public key, signature, data. -/
opaque ecdsaP256 : List Byte → BitVec 512 → List Byte → Bool

/-- The signature that the island makes under its identity key (R131): a draw and the data. -/
opaque identitySign : Nat → List Byte → BitVec 512

/-- HKDF with SHA-384 (R132): input key material, salt, info. -/
opaque hkdf384 : List Byte → List Byte → List Byte → List Byte

/-- AES-GCM of a link (R126): the ciphertext of key, IV, additional data and plaintext. -/
opaque gcmCipher : List Byte → List Byte → List Byte → List Byte → List Byte

/-- The GCM tag of key, IV, additional data and plaintext (R126). -/
opaque gcmTag : List Byte → List Byte → List Byte → List Byte → BitVec 128

/-- The payload of a frame whose layout no rule gives: its subtype and the values it carries (R125). -/
opaque framePayload : Nat → List Nat → List Byte

/-- The dst field of a frame that goes to the neighbour only (R126 names none), by subtype. -/
opaque linkDst : Nat → BitVec 12

/-- Which of two stars without a number counts as the lower-numbered one (R132): own nonce and the peer's. -/
opaque lowerOfEqual : BitVec 128 → BitVec 128 → Bool

/-- The level of HAPn_EN while a channel is at rest (R337 gives it in reset, R335 in FAULT). -/
opaque hapIdleEnable : Bool

/-- Nodes that touch at a corner are connected (R327 does not say). -/
opaque diagonalConnects : Bool

/-- The strength of a contact, from the mutual deltas of its nodes (R327 does not define it). -/
opaque contactStrength : List Rat → Nat

/-- A centroid between two places of the 1/64-node grid takes the upper one (R327 gives no rounding). -/
opaque centroidUp : Rat → Bool

/-- The median of the neighbours of a line, in 1/8 count: the values of all lines and the line (R329 does not name them). -/
opaque neighbourMedian : List Nat → Nat → Nat

/-- The events that the island firmware routes to the island (R377: it alone chooses). -/
opaque islandRoute : Nat → Bool

/-- Which way an encoder counts up (R355 names no direction). -/
opaque encoderUp : Bool

/-- The TIME offset that each offset of page 8 of an instance mirrors: which registers the page shows is given, and not where
(chapter 4). -/
opaque pageEight : Nat → Nat

/-- What the sections of an instance's container hold (R299): the shape; kind, max_width, max_height, formats and axis lock of
each granted layer; the page registers (MSI-X rows of four words, pending bits, completion words, mailbox words and flags,
root, vectors); per open queue its registers; the unstaged cues; per layer its live registers and its current frame (tag,
address, da); and per channel its registers. -/
structure Saved where
  queues : Nat
  vectors : Nat
  contexts : Nat
  cueQuota : Nat
  dmaCount : Nat
  dramSize : Nat
  kinds : List (List Nat)
  msix : List (List W32)
  pending : W32
  completion : List (BitVec 64)
  toManager : List W32
  toGuest : List W32
  flags : List Bool
  root : BitVec 64
  vecs : List Nat
  open_ : List (List W32)
  cues : List (List W32)
  layers : List (List W32)
  frames : List (Option (BitVec 16 × BitVec 64 × ST))
  chans : List (List W32)
  deriving DecidableEq, Repr, Inhabited

/-- The sections of a container as a stepping writes them (R299: their content is no interface). -/
opaque encodeSaved : Nat → Saved → List Byte

/-- What a stepping finds in the sections of a container. -/
opaque decodeSaved : Nat → List Byte → Saved

/-- The byte at which a sample of a multisampled surface lies: samples, bytes, width, height, x, y, sample (R174 gives the layout
of one sample only). -/
opaque samplePlace : Nat → Nat → Nat → Nat → Nat → Nat → Nat → Nat

/-- The code that the compressor gives a unit of 256 bytes (R175). -/
opaque unitCode : List Byte → Nat

/-- The compressed data of a unit (R175). -/
opaque unitPack : Nat → List Byte → List Byte

/-- What compressed data decodes to (R175): code and data. -/
opaque unitUnpack : Nat → List Byte → List Byte

/-- A fragment passes the late depth and stencil test: pipeline, dynamic state, what the shader put out, and what the attachments
hold at the sample (R165). -/
opaque lateTest : List Byte → List Byte → List Byte → List (List Byte) → Bool

/-- What the attachments hold at a sample after a fragment has retired, of the same arguments: blending, depth and stencil in the
encodings of Vulkan 1.3 (R158), whose arithmetic the spec does not repeat. -/
opaque retirePixel : List Byte → List Byte → List Byte → List (List Byte) → List (List Byte)

/-- The D16_UNORM bytes of a depth in FP32 (R159 gives the clear value so, and no rounding). -/
opaque depth16 : List Byte → List Byte

/-- The cluster whose blend unit takes a pixel (R165). -/
opaque pixelCluster : Nat → Nat → Nat

/-! ### The picture (chapters 8 to 10) -/

/-- A value between two whole numbers becomes the upper one (the spec rounds the pixels of R186, the alpha of R230 and the words of
R365 in no stated way). -/
opaque takesUpper : Rat → Bool

/-- The low bits that widening a channel of w bits to 14 adds below the value (R186). -/
opaque widenLow : Nat → Nat → Nat

/-- What a NaN component of RGBA16F is clamped to, in 1/16383 (R186). -/
opaque nanLevel : Nat → Nat

/-- Chroma between its samples (R185 gives no weights): column and row modulo 2, and the samples around. -/
opaque chromaBetween : Nat → Nat → List Nat → Rat

/-- The polyphase scaler (R185: its coefficients follow from the ratio): source and destination width and phase, source and
destination height and phase, and the 8 × 4 taps. -/
opaque polyphase : Nat → Nat → Nat → Nat → Nat → Nat → List Nat → Nat

/-- Cosine and sine of an angle in 1/2^32 degree, at the precision of the warp (R197). -/
opaque cosSin : Int → Rat × Rat

/-- The ordered threshold of dithering (R201): dropped bits, phase, column and row modulo 4. -/
opaque ditherMatrix : Nat → Nat → Nat → Nat → Nat

/-- A pixel centre on an edge of a polygon is inside (R230 does not say). -/
opaque edgeInside : Nat → Nat → Bool

/-- The built-in page (chapter 10: error code and verdict, in white): error code, verdict, width, height, column and row of a
white pixel. -/
opaque builtinInk : Nat → Nat → Nat → Nat → Nat → Nat → Bool

/-! ### Sound (chapter 17) -/

/-- The sum or product of two 32-bit floating-point numbers that has no such number of its own (R369 states no rounding). -/
opaque roundSingle : Rat → Rat

/-- The factor of a gain in 0.01 dB other than 0 and mute is (numerator + 1) / (denominator + 1). -/
opaque gainNum : Int → Nat

/-- The denominator of a gain's factor. -/
opaque gainDen : Int → Nat

/-- A sine at a phase in cycles other than 0 (R371). -/
opaque sineWave : Rat → Rat

/-- A sample that the rules leave open, at a draw and a point: a bus through its equaliser or working limiter, a pink noise. -/
opaque freeSample : Nat → Nat → Rat

end Sys2Proof.Config
end

