-- ==== Sys2Proof/Machine/Regs.lean ====
section
/-! DEFINITION. The register map of every block, as the register tables of spec/ give it (R6 to R11, R20):
the registers' names, where each lies, which domain's reset clears it, and the fields with their access code,
reset value and writers. -/

namespace Sys2Proof.Machine

/-- The blocks of the address map (R20); `INS` is the page set of an instance's BAR0 (R25). -/
inductive Block where
  | SYS | TIME | CUE | FAB | ISL | GFX | CMP | OUT | MEM | VIR | DMA | CRC | TCH | HAP | SIO | AUD | EVT | PMU | CPX | INS
  deriving DecidableEq, Repr

/-- The reset that clears a register (R11, R12): the main domain's, the island's, or the island's for an output tail. -/
inductive RegDomain where
  | main | island | tail
  deriving DecidableEq, Repr

/-- The access codes of R8. -/
inductive Access where
  | rw | ro | w1c | w1s | wo
  deriving DecidableEq, Repr

/-- The agents that the Writer column may name (R10). `owner` is resolved by the window the register lies in. -/
inductive Writer where
  | island | inner | manager | guest | owner | any
  deriving DecidableEq, Repr

/-- One field of a register: its bits, access code (R8), value after reset (R11) and writers (R10). -/
structure FieldDesc where
  lo : Nat
  width : Nat
  access : Access
  reset : Nat
  writers : List Writer
  deriving DecidableEq, Repr

/-- Every register the spec names. A register with several copies carries its indices in `RegKey`. -/
inductive Reg where
  | SYS_RESET_CTRL | SYS_RESET_CAUSE | SYS_BOOT_STATUS | SYS_RCP_STATUS | SYS_RCP_CTRL | SYS_RCP_PUSH_ADDR_LO 
  | SYS_RCP_PUSH_ADDR_HI | SYS_RCP_PUSH_LEN | SYS_RCP_ERR_DETAIL | SYS_RCP_ID | SYS_RCP_BW_CEILING 
  | SYS_RCP_BW_ADMITTED | SYS_RCP_IFACE | SYS_TEMP | TIME_STATUS | TIME_ST_LO | TIME_ST_HI | TIME_PHASE_ERR 
  | TIME_FREQ_ADJ | TIME_HOLDOVER_AGE | TIME_LTC_TC | TIME_LTC_ST_LO | TIME_LTC_ST_HI | AXIS_STATUS 
  | AXIS_POS_LO | AXIS_POS_HI | AXIS_VEL_LO | AXIS_VEL_HI | AXIS_EVAL_ST_LO | AXIS_EVAL_ST_HI | AXIS_SAMPLE_RAW 
  | CUE_ENTRY | CUE_ARM_CTRL | CUE_STATUS | CUE_COUNT | CUE_MARK_ST_LO | CUE_MARK_ST_HI | CUE_MARK_TAG 
  | CUE_GLOBAL | CUE_DEFER_COUNT | CUE_LATE_COUNT | CUE_VOID_COUNT | CUE_LAST_FAIL | CUE_CLR | FAB_STATUS 
  | FAB_CTRL | FAB_SLOT_DONE | FAB_PEER_RELEASE | FAB_PEER_COUNT | FAB_UNKNOWN_COUNT | FAB_LATE_REPLY_COUNT 
  | FAB_PORT_STATUS | FAB_PORT_DELAY | FAB_PORT_RETRY | FAB_PORT_AUTH_FAIL | FAB_PORT_DISCARD 
  | FAB_PORT_TXCTR_LO | FAB_PORT_TXCTR_HI | FAB_SLOT_CFG | FAB_SLOT_VOID | FAB_SLOT_DATA | FAB_SLOT_SEND 
  | FAB_SLOT_STATUS | FAB_SLOT_RESULT_LO | FAB_SLOT_RESULT_HI | FAB_APP_RING_LO | FAB_APP_RING_HI 
  | FAB_APP_RING_CFG | FAB_APP_RING_HEAD | FAB_APP_RING_TAIL | ISL_STATUS | ISL_GLAZE_STATUS 
  | ISL_PAIR_SWITCH_COUNT | ISL_RENDER_SWITCH_COUNT | ISL_LINE_MISMATCH_COUNT | ISL_SRAM_CE_COUNT 
  | ISL_HB_FAIL_COUNT | ISL_ID_KEY | ISL_MBOX_TX | ISL_MBOX_TX_CTRL | ISL_MBOX_STATUS | ISL_MBOX_RX 
  | ISL_MBOX_RX_POP | GFX_STATUS | GFX_CTRL | GFX_CLK | GFX_CTX_ALLOC | GFX_CTX_ALLOC_STATUS | GFX_BIN_FREE 
  | GFX_PARTIAL_COUNT | CTX_CFG | CTX_SLICE | CTX_RING_LO | CTX_RING_HI | CTX_RING_SIZE | CTX_HEAD | CTX_TAIL 
  | CTX_SAVE_LO | CTX_SAVE_HI | CTX_STATE | CTX_CTRL | CTX_FAULT_ADDR_LO | CTX_FAULT_ADDR_HI | CTX_FAULT_OFFSET 
  | CMP_STATUS | CMP_SHED_LO | CMP_SHED_HI | CMP_OUT_CTRL | CMP_OUT_BG | CMP_OUT_FS_LO | CMP_OUT_FS_HI 
  | LAYER_ID | LAYER_CTRL | LAYER_FMT | LAYER_SRC_SIZE | LAYER_CROP | LAYER_DST_POS | LAYER_DST_SIZE 
  | LAYER_PITCH | LAYER_PLANE_OFF | LAYER_META_OFF | LAYER_OPQ_POS | LAYER_OPQ_SIZE | WARP_K | LAYER_COMMIT 
  | SUB_ADDR_LO | SUB_ADDR_HI | SUB_NB_LO | SUB_NB_HI | SUB_DA_LO | SUB_DA_HI | SUB_REF_LO | SUB_REF_HI 
  | SUB_CTRL | SUB_STATUS | LAYER_STATUS | REL_INFO | REL_ST_LO | REL_ST_HI | REL_POP | CNT_SKIPPED | CNT_LATE 
  | CNT_REFUSED | CNT_CLAMP | OUT_STATUS | OUT_CTRL | OUT_TIMING_H0 | OUT_TIMING_H1 | OUT_TIMING_V0 
  | OUT_TIMING_V1 | OUT_PCLK | OUT_LOCK_ERR | OUT_FRAME_INDEX | OUT_UNDERRUN_COUNT | OUT_UNDERRUN_LINE 
  | OUT_LINK_INFO | OUT_FRZ_CTRL | OUT_FRZ_COUNT | OUT_FRZ_CLR | OUT_SUB_BG | OUT_FRZ_WIN_POS | OUT_FRZ_WIN_SIZE 
  | OUT_FRZ_SIG | MEM_STATUS | MEM_CAPACITY | MEM_CHAN_ACTIVE | MEM_CHAN_DOWN | MEM_PAGE_CTRL | MEM_RETRAIN_CTRL 
  | MEM_ERR_ADDR_LO | MEM_ERR_ADDR_HI | MEM_ERR_INFO | MEM_CE_COUNT | MEM_UE_COUNT | MEM_LINK_ECC 
  | MEM_CEILING_NOW | MEM_RESERVED_NOW | MEM_PORT_QOS | MEM_PORT_STATUS | MEM_PORT_RESERVE | MEM_PORT_LATE 
  | CPX_STATUS | CPX_DBG_EN | CPX_FENCE_VIOL_ADDR_LO | CPX_FENCE_VIOL_ADDR_HI | CPX_FENCE_VIOL_INFO 
  | CPX_FENCE_REGION_BASE | CPX_FENCE_REGION_SIZE | VIR_STATUS | VIR_POOL_FREE_0 | VIR_POOL_FREE_1 
  | VIR_MB_PENDING | VIR_PORT_CFG | VIR_CREATE_SHAPE | VIR_CREATE_QUOTA | VIR_CREATE_LAYERS_LO 
  | VIR_CREATE_LAYERS_HI | VIR_CREATE_DRAM_BASE | VIR_CREATE_DRAM_SIZE | VIR_CREATE_CTRL | VIR_CREATE_STATUS 
  | VIR_MB_RX | VIR_MB_RX_POP | VIR_MB_STATUS | VIR_MB_TX | VIR_MB_TX_GO | VIR_INST_STATE | VIR_INST_CTRL 
  | VIR_INST_BUF_LO | VIR_INST_BUF_HI | VIR_INST_BUF_LEN | VIR_INST_SAVE_SIZE | VIR_INST_RESTORE_INFO | DOORBELL 
  | QCOMP_LO | QCOMP_HI | INST_STATUS | TT_ROOT_LO | TT_ROOT_HI | INV_ADDR_LO | INV_ADDR_HI | INV_PAGES 
  | INV_CTRL | INV_STATUS | TFAULT_ADDR_LO | TFAULT_ADDR_HI | TFAULT_INFO | TFAULT_VEC | INST_MB_TX 
  | INST_MB_TX_CTRL | INST_MB_TX_STATUS | INST_MB_RX | INST_MB_RX_POP | INST_MB_RX_STATUS | MBOX_RX_VEC 
  | INST_MSIX_ADDR_LO | INST_MSIX_ADDR_HI | INST_MSIX_DATA | INST_MSIX_CTRL | INST_PBA | CH_BASE_LO | CH_BASE_HI 
  | CH_CQ_LO | CH_CQ_HI | CH_CQ_HEAD | CH_STATUS | CH_VEC | CH_START | CH_CFG | CH_TRIG | CH_CTRL | CH_CUR_LO 
  | CH_CUR_HI | CH_DONE_BYTES | CH_MISSED_COUNT | CH_OWNER | TIMER_PERIOD | TIMER_PHASE_LO | TIMER_PHASE_HI 
  | ENG_STATUS | CRC_CFG | CRC_POLY | CRC_INIT | CRC_XOR | CRC_DATA | CRC_DATA_B | CRC_RESULT_LO | CRC_RESULT_HI 
  | CRC_EXPECT | CRC_CTRL | CRC_STATUS | TCH_STATUS | TCH_CTRL | TCH_THRESH | TCH_THRESH2 | TCH_CSTATUS 
  | TCH_FRAME_ST_LO | TCH_FRAME_ST_HI | TCH_REPORT_HDR | TCH_REGION | TCH_DEGRADED | TCH_RERUN_COUNT 
  | TCH_STALE_COUNT | TCH_CONTACT_A | TCH_CONTACT_B | TCH_NOISE | HAP_STATUS | HAP_CH_STATUS | HAP_CH_FIRE 
  | HAP_CH_CTRL | HAP_CH_PEAK_I | HAP_CH_FIRE_COUNT | HAP_CH_DROP_COUNT | DMX_CFG | DMX_TIMING | DMX_TIMING2 
  | DMX_BUF_LO | DMX_BUF_HI | DMX_CTRL | DMX_STATUS | DMX_RX_INFO | DMX_RX_ST_LO | DMX_RX_ST_HI 
  | DMX_RDM_ADDR_LO | DMX_RDM_ADDR_HI | DMX_RDM_LEN | DMX_GRID_PERIOD | DMX_GRID_PHASE_LO | DMX_GRID_PHASE_HI 
  | DMX_RDM_UID_LO | DMX_RDM_UID_HI | DMX_LATE_FETCH_COUNT | DMX_RX_ERR_COUNT | DMX_REFUSED_COUNT | MIDI_TX 
  | MIDI_RX | MIDI_RX_ST_LO | MIDI_RX_ST_HI | MIDI_STATUS | LTC_IN_TC | LTC_IN_ST_LO | LTC_IN_ST_HI 
  | LTC_IN_USER | LTC_IN_STATUS | LTC_OUT_CTRL | LTC_OUT_ANCHOR_LO | LTC_OUT_ANCHOR_HI | LTC_OUT_START 
  | LTC_OUT_USER | LTC_OUT_TC | FADER_VAL | FADER_INVALID | FADER_MOVED | ENC_COUNT | ENC_ST_LO | ENC_ST_HI 
  | ENC_ERR_COUNT | SSI_RAW | SSI_STATUS | BUS_CFG | BUS_DATA | BUS_CTRL | BUS_STATUS | GPIO_IN | GPIO_OUT 
  | GPIO_SET | GPIO_CLR | GPIO_EDGE_RISE | GPIO_EDGE_FALL | GPIO_EDGE | GPIO_EDGE_ST_LO | GPIO_EDGE_ST_HI 
  | AUD_STATUS | CLIP_TABLE_LO | CLIP_TABLE_HI | CLIP_COUNT | SLIP_COUNT | BUS_IN | BUS_GAIN | BUS_DELAY 
  | BUS_EQ_A | BUS_EQ_B | BUS_EQ_COMMIT | BUS_LIM | BUS_LIM2 | BUS_STATUS_A | OUT_SEL | PLAYER_CTRL 
  | PLAYER_FADE | PLAYER_STATUS | UNDERRUN_COUNT | TONE_CFG | TONE_LEVEL | SIL_CFG | SIL_STATUS | AES_CFG 
  | AES_ADDR | AES_UDP | AES_TS_OFFSET | AES_LINK_OFFSET | LOSS_COUNT | EVT_ROUTE | EVT_MGMT_PEND | EVT_STICKY 
  | PF_MSIX_ADDR_LO | PF_MSIX_ADDR_HI | PF_MSIX_DATA | PF_MSIX_CTRL | PF_PBA | EVT_CUE_SRC | EVT_CUE_OFFSET 
  | EVT_CUE_ENTRY | EVT_CUE_STATUS | EVT_HAP_LINK_A | EVT_HAP_LINK_B | PMC_SEL | PMC_OWNER | PMC_ADDR_BASE_LO 
  | PMC_ADDR_BASE_HI | PMC_ADDR_LIMIT_LO | PMC_ADDR_LIMIT_HI | PMC_VAL_LO | PMC_VAL_HI | PMC_GLOBAL 
  | PMC_MIRROR_OVF | PSAMP_CTRL | PSAMP_PERIOD | PSAMP_BASE_LO | PSAMP_BASE_HI | PSAMP_WR | PSAMP_RD | PSAMP_WM 
  | PSAMP_LOST | BW_CTRL | BW_WINDOW | BW_SEQ | BW_PORT_LO | BW_PORT_HI | PMU_STATE_CTRL | PMU_STATE_STATUS 
  | PMU_WAKE_EN | PMU_WAKE_CAUSE | PMU_AOT_WAKE 
  deriving DecidableEq, Repr

/-- Where a register lies: block, offset of copy (0, 0), number and stride of its first and second index,
the reset that clears it, and its value after that reset. -/
structure RegInfo where
  block : Block
  off : Nat
  ni : Nat
  si : Nat
  nk : Nat
  sk : Nat
  dom : RegDomain
  reset : Nat
  deriving DecidableEq, Repr

/-- The register map (the header line or table row of each register). -/
def Reg.info : Reg → RegInfo
  | .SYS_RESET_CTRL => ⟨.SYS, 0x0, 1, 0x0, 1, 0x0, .main, 0x0⟩
  | .SYS_RESET_CAUSE => ⟨.SYS, 0x4, 1, 0x0, 1, 0x0, .island, 0x1⟩
  | .SYS_BOOT_STATUS => ⟨.SYS, 0x8, 1, 0x0, 1, 0x0, .island, 0x0⟩
  | .SYS_RCP_STATUS => ⟨.SYS, 0x100, 1, 0x0, 1, 0x0, .main, 0x0⟩
  | .SYS_RCP_CTRL => ⟨.SYS, 0x104, 1, 0x0, 1, 0x0, .main, 0x0⟩
  | .SYS_RCP_PUSH_ADDR_LO => ⟨.SYS, 0x108, 1, 0x0, 1, 0x0, .main, 0x0⟩
  | .SYS_RCP_PUSH_ADDR_HI => ⟨.SYS, 0x10c, 1, 0x0, 1, 0x0, .main, 0x0⟩
  | .SYS_RCP_PUSH_LEN => ⟨.SYS, 0x110, 1, 0x0, 1, 0x0, .main, 0x0⟩
  | .SYS_RCP_ERR_DETAIL => ⟨.SYS, 0x114, 1, 0x0, 1, 0x0, .main, 0x0⟩
  | .SYS_RCP_ID => ⟨.SYS, 0x118, 1, 0x0, 1, 0x0, .main, 0x0⟩
  | .SYS_RCP_BW_CEILING => ⟨.SYS, 0x11c, 1, 0x0, 1, 0x0, .main, 0x0⟩
  | .SYS_RCP_BW_ADMITTED => ⟨.SYS, 0x120, 1, 0x0, 1, 0x0, .main, 0x0⟩
  | .SYS_RCP_IFACE => ⟨.SYS, 0x124, 1, 0x0, 1, 0x0, .main, 0x0⟩
  | .SYS_TEMP => ⟨.SYS, 0x200, 1, 0x0, 1, 0x0, .island, 0x0⟩
  | .TIME_STATUS => ⟨.TIME, 0x0, 1, 0x0, 1, 0x0, .main, 0x0⟩
  | .TIME_ST_LO => ⟨.TIME, 0x8, 1, 0x0, 1, 0x0, .main, 0x0⟩
  | .TIME_ST_HI => ⟨.TIME, 0xc, 1, 0x0, 1, 0x0, .main, 0x0⟩
  | .TIME_PHASE_ERR => ⟨.TIME, 0x10, 1, 0x0, 1, 0x0, .main, 0x0⟩
  | .TIME_FREQ_ADJ => ⟨.TIME, 0x14, 1, 0x0, 1, 0x0, .main, 0x0⟩
  | .TIME_HOLDOVER_AGE => ⟨.TIME, 0x18, 1, 0x0, 1, 0x0, .main, 0x0⟩
  | .TIME_LTC_TC => ⟨.TIME, 0x20, 1, 0x0, 1, 0x0, .main, 0x0⟩
  | .TIME_LTC_ST_LO => ⟨.TIME, 0x24, 1, 0x0, 1, 0x0, .main, 0x0⟩
  | .TIME_LTC_ST_HI => ⟨.TIME, 0x28, 1, 0x0, 1, 0x0, .main, 0x0⟩
  | .AXIS_STATUS => ⟨.TIME, 0x1000, 8, 0x100, 1, 0x0, .main, 0x0⟩
  | .AXIS_POS_LO => ⟨.TIME, 0x1004, 8, 0x100, 1, 0x0, .main, 0x0⟩
  | .AXIS_POS_HI => ⟨.TIME, 0x1008, 8, 0x100, 1, 0x0, .main, 0x0⟩
  | .AXIS_VEL_LO => ⟨.TIME, 0x100c, 8, 0x100, 1, 0x0, .main, 0x0⟩
  | .AXIS_VEL_HI => ⟨.TIME, 0x1010, 8, 0x100, 1, 0x0, .main, 0x0⟩
  | .AXIS_EVAL_ST_LO => ⟨.TIME, 0x1014, 8, 0x100, 1, 0x0, .main, 0x0⟩
  | .AXIS_EVAL_ST_HI => ⟨.TIME, 0x1018, 8, 0x100, 1, 0x0, .main, 0x0⟩
  | .AXIS_SAMPLE_RAW => ⟨.TIME, 0x101c, 8, 0x100, 1, 0x0, .main, 0x0⟩
  | .CUE_ENTRY => ⟨.CUE, 0x0, 73, 0x1000, 8, 0x4, .main, 0x0⟩
  | .CUE_ARM_CTRL => ⟨.CUE, 0x20, 73, 0x1000, 1, 0x0, .main, 0x0⟩
  | .CUE_STATUS => ⟨.CUE, 0x28, 73, 0x1000, 1, 0x0, .main, 0x0⟩
  | .CUE_COUNT => ⟨.CUE, 0x30, 73, 0x1000, 1, 0x0, .main, 0x0⟩
  | .CUE_MARK_ST_LO => ⟨.CUE, 0x40, 73, 0x1000, 4, 0x10, .main, 0x0⟩
  | .CUE_MARK_ST_HI => ⟨.CUE, 0x44, 73, 0x1000, 4, 0x10, .main, 0x0⟩
  | .CUE_MARK_TAG => ⟨.CUE, 0x48, 73, 0x1000, 4, 0x10, .main, 0x0⟩
  | .CUE_GLOBAL => ⟨.CUE, 0x800, 1, 0x0, 1, 0x0, .main, 0x0⟩
  | .CUE_DEFER_COUNT => ⟨.CUE, 0x804, 1, 0x0, 1, 0x0, .main, 0x0⟩
  | .CUE_LATE_COUNT => ⟨.CUE, 0x808, 1, 0x0, 1, 0x0, .main, 0x0⟩
  | .CUE_VOID_COUNT => ⟨.CUE, 0x80c, 1, 0x0, 1, 0x0, .main, 0x0⟩
  | .CUE_LAST_FAIL => ⟨.CUE, 0x810, 1, 0x0, 1, 0x0, .main, 0x0⟩
  | .CUE_CLR => ⟨.CUE, 0x814, 1, 0x0, 1, 0x0, .main, 0x0⟩
  | .FAB_STATUS => ⟨.FAB, 0x0, 1, 0x0, 1, 0x0, .main, 0xfff⟩
  | .FAB_CTRL => ⟨.FAB, 0x4, 1, 0x0, 1, 0x0, .main, 0x0⟩
  | .FAB_SLOT_DONE => ⟨.FAB, 0x100, 1, 0x0, 8, 0x4, .main, 0x0⟩
  | .FAB_PEER_RELEASE => ⟨.FAB, 0x200, 1, 0x0, 1, 0x0, .main, 0x0⟩
  | .FAB_PEER_COUNT => ⟨.FAB, 0x204, 1, 0x0, 1, 0x0, .main, 0x0⟩
  | .FAB_UNKNOWN_COUNT => ⟨.FAB, 0x208, 1, 0x0, 1, 0x0, .main, 0x0⟩
  | .FAB_LATE_REPLY_COUNT => ⟨.FAB, 0x20c, 1, 0x0, 1, 0x0, .main, 0x0⟩
  | .FAB_PORT_STATUS => ⟨.FAB, 0x1000, 8, 0x100, 1, 0x0, .main, 0x0⟩
  | .FAB_PORT_DELAY => ⟨.FAB, 0x1004, 8, 0x100, 1, 0x0, .main, 0x0⟩
  | .FAB_PORT_RETRY => ⟨.FAB, 0x1008, 8, 0x100, 1, 0x0, .main, 0x0⟩
  | .FAB_PORT_AUTH_FAIL => ⟨.FAB, 0x100c, 8, 0x100, 1, 0x0, .main, 0x0⟩
  | .FAB_PORT_DISCARD => ⟨.FAB, 0x1010, 8, 0x100, 1, 0x0, .main, 0x0⟩
  | .FAB_PORT_TXCTR_LO => ⟨.FAB, 0x1014, 8, 0x100, 1, 0x0, .main, 0x0⟩
  | .FAB_PORT_TXCTR_HI => ⟨.FAB, 0x1018, 8, 0x100, 1, 0x0, .main, 0x0⟩
  | .FAB_SLOT_CFG => ⟨.FAB, 0x4000, 256, 0x40, 1, 0x0, .main, 0x0⟩
  | .FAB_SLOT_VOID => ⟨.FAB, 0x4004, 256, 0x40, 1, 0x0, .main, 0x0⟩
  | .FAB_SLOT_DATA => ⟨.FAB, 0x4008, 256, 0x40, 8, 0x4, .main, 0x0⟩
  | .FAB_SLOT_SEND => ⟨.FAB, 0x4028, 256, 0x40, 1, 0x0, .main, 0x0⟩
  | .FAB_SLOT_STATUS => ⟨.FAB, 0x402c, 256, 0x40, 1, 0x0, .main, 0x0⟩
  | .FAB_SLOT_RESULT_LO => ⟨.FAB, 0x4030, 256, 0x40, 1, 0x0, .main, 0x0⟩
  | .FAB_SLOT_RESULT_HI => ⟨.FAB, 0x4034, 256, 0x40, 1, 0x0, .main, 0x0⟩
  | .FAB_APP_RING_LO => ⟨.FAB, 0x8000, 32, 0x20, 1, 0x0, .main, 0x0⟩
  | .FAB_APP_RING_HI => ⟨.FAB, 0x8004, 32, 0x20, 1, 0x0, .main, 0x0⟩
  | .FAB_APP_RING_CFG => ⟨.FAB, 0x8008, 32, 0x20, 1, 0x0, .main, 0x0⟩
  | .FAB_APP_RING_HEAD => ⟨.FAB, 0x800c, 32, 0x20, 1, 0x0, .main, 0x0⟩
  | .FAB_APP_RING_TAIL => ⟨.FAB, 0x8010, 32, 0x20, 1, 0x0, .main, 0x0⟩
  | .ISL_STATUS => ⟨.ISL, 0x0, 1, 0x0, 1, 0x0, .island, 0x0⟩
  | .ISL_GLAZE_STATUS => ⟨.ISL, 0x100, 8, 0x4, 1, 0x0, .island, 0x0⟩
  | .ISL_PAIR_SWITCH_COUNT => ⟨.ISL, 0x200, 1, 0x0, 1, 0x0, .island, 0x0⟩
  | .ISL_RENDER_SWITCH_COUNT => ⟨.ISL, 0x204, 1, 0x0, 1, 0x0, .island, 0x0⟩
  | .ISL_LINE_MISMATCH_COUNT => ⟨.ISL, 0x208, 1, 0x0, 1, 0x0, .island, 0x0⟩
  | .ISL_SRAM_CE_COUNT => ⟨.ISL, 0x20c, 1, 0x0, 1, 0x0, .island, 0x0⟩
  | .ISL_HB_FAIL_COUNT => ⟨.ISL, 0x210, 1, 0x0, 1, 0x0, .island, 0x0⟩
  | .ISL_ID_KEY => ⟨.ISL, 0x300, 1, 0x0, 17, 0x4, .island, 0x0⟩
  | .ISL_MBOX_TX => ⟨.ISL, 0x1000, 2, 0x1000, 64, 0x4, .main, 0x0⟩
  | .ISL_MBOX_TX_CTRL => ⟨.ISL, 0x1100, 2, 0x1000, 1, 0x0, .main, 0x0⟩
  | .ISL_MBOX_STATUS => ⟨.ISL, 0x1104, 2, 0x1000, 1, 0x0, .main, 0x0⟩
  | .ISL_MBOX_RX => ⟨.ISL, 0x1200, 2, 0x1000, 64, 0x4, .main, 0x0⟩
  | .ISL_MBOX_RX_POP => ⟨.ISL, 0x1300, 2, 0x1000, 1, 0x0, .main, 0x0⟩
  | .GFX_STATUS => ⟨.GFX, 0x0, 1, 0x0, 1, 0x0, .main, 0x10000⟩
  | .GFX_CTRL => ⟨.GFX, 0x4, 1, 0x0, 1, 0x0, .main, 0x64⟩
  | .GFX_CLK => ⟨.GFX, 0x8, 1, 0x0, 1, 0x0, .main, 0x708⟩
  | .GFX_CTX_ALLOC => ⟨.GFX, 0x20, 1, 0x0, 1, 0x0, .main, 0x0⟩
  | .GFX_CTX_ALLOC_STATUS => ⟨.GFX, 0x24, 1, 0x0, 1, 0x0, .main, 0x0⟩
  | .GFX_BIN_FREE => ⟨.GFX, 0x28, 1, 0x0, 1, 0x0, .main, 0x0⟩
  | .GFX_PARTIAL_COUNT => ⟨.GFX, 0x2c, 1, 0x0, 1, 0x0, .main, 0x0⟩
  | .CTX_CFG => ⟨.GFX, 0x10000, 64, 0x100, 1, 0x0, .main, 0x0⟩
  | .CTX_SLICE => ⟨.GFX, 0x10004, 64, 0x100, 1, 0x0, .main, 0x3e8⟩
  | .CTX_RING_LO => ⟨.GFX, 0x10008, 64, 0x100, 1, 0x0, .main, 0x0⟩
  | .CTX_RING_HI => ⟨.GFX, 0x1000c, 64, 0x100, 1, 0x0, .main, 0x0⟩
  | .CTX_RING_SIZE => ⟨.GFX, 0x10010, 64, 0x100, 1, 0x0, .main, 0xa⟩
  | .CTX_HEAD => ⟨.GFX, 0x10014, 64, 0x100, 1, 0x0, .main, 0x0⟩
  | .CTX_TAIL => ⟨.GFX, 0x10018, 64, 0x100, 1, 0x0, .main, 0x0⟩
  | .CTX_SAVE_LO => ⟨.GFX, 0x1001c, 64, 0x100, 1, 0x0, .main, 0x0⟩
  | .CTX_SAVE_HI => ⟨.GFX, 0x10020, 64, 0x100, 1, 0x0, .main, 0x0⟩
  | .CTX_STATE => ⟨.GFX, 0x10024, 64, 0x100, 1, 0x0, .main, 0x0⟩
  | .CTX_CTRL => ⟨.GFX, 0x10028, 64, 0x100, 1, 0x0, .main, 0x0⟩
  | .CTX_FAULT_ADDR_LO => ⟨.GFX, 0x1002c, 64, 0x100, 1, 0x0, .main, 0x0⟩
  | .CTX_FAULT_ADDR_HI => ⟨.GFX, 0x10030, 64, 0x100, 1, 0x0, .main, 0x0⟩
  | .CTX_FAULT_OFFSET => ⟨.GFX, 0x10034, 64, 0x100, 1, 0x0, .main, 0x0⟩
  | .CMP_STATUS => ⟨.CMP, 0x0, 1, 0x0, 1, 0x0, .main, 0x0⟩
  | .CMP_SHED_LO => ⟨.CMP, 0x20, 1, 0x0, 1, 0x0, .main, 0x0⟩
  | .CMP_SHED_HI => ⟨.CMP, 0x24, 1, 0x0, 1, 0x0, .main, 0x0⟩
  | .CMP_OUT_CTRL => ⟨.CMP, 0x100, 8, 0x10, 1, 0x0, .main, 0x0⟩
  | .CMP_OUT_BG => ⟨.CMP, 0x104, 8, 0x10, 1, 0x0, .main, 0x0⟩
  | .CMP_OUT_FS_LO => ⟨.CMP, 0x108, 8, 0x10, 1, 0x0, .main, 0x0⟩
  | .CMP_OUT_FS_HI => ⟨.CMP, 0x10c, 8, 0x10, 1, 0x0, .main, 0x0⟩
  | .LAYER_ID => ⟨.CMP, 0x10000, 48, 0x100, 1, 0x0, .main, 0x0⟩
  | .LAYER_CTRL => ⟨.CMP, 0x10004, 48, 0x100, 1, 0x0, .main, 0xffff00⟩
  | .LAYER_FMT => ⟨.CMP, 0x10008, 48, 0x100, 1, 0x0, .main, 0x5⟩
  | .LAYER_SRC_SIZE => ⟨.CMP, 0x1000c, 48, 0x100, 1, 0x0, .main, 0x0⟩
  | .LAYER_CROP => ⟨.CMP, 0x10010, 48, 0x100, 1, 0x0, .main, 0x0⟩
  | .LAYER_DST_POS => ⟨.CMP, 0x10014, 48, 0x100, 1, 0x0, .main, 0x0⟩
  | .LAYER_DST_SIZE => ⟨.CMP, 0x10018, 48, 0x100, 1, 0x0, .main, 0x0⟩
  | .LAYER_PITCH => ⟨.CMP, 0x1001c, 48, 0x100, 2, 0x4, .main, 0x0⟩
  | .LAYER_PLANE_OFF => ⟨.CMP, 0x10024, 48, 0x100, 2, 0x4, .main, 0x0⟩
  | .LAYER_META_OFF => ⟨.CMP, 0x1002c, 48, 0x100, 1, 0x0, .main, 0x0⟩
  | .LAYER_OPQ_POS => ⟨.CMP, 0x10030, 48, 0x100, 4, 0x8, .main, 0x0⟩
  | .LAYER_OPQ_SIZE => ⟨.CMP, 0x10034, 48, 0x100, 4, 0x8, .main, 0x0⟩
  | .WARP_K => ⟨.CMP, 0x10050, 48, 0x100, 3, 0x4, .main, 0x0⟩
  | .LAYER_COMMIT => ⟨.CMP, 0x1005c, 48, 0x100, 1, 0x0, .main, 0x0⟩
  | .SUB_ADDR_LO => ⟨.CMP, 0x10060, 48, 0x100, 1, 0x0, .main, 0x0⟩
  | .SUB_ADDR_HI => ⟨.CMP, 0x10064, 48, 0x100, 1, 0x0, .main, 0x0⟩
  | .SUB_NB_LO => ⟨.CMP, 0x10068, 48, 0x100, 1, 0x0, .main, 0x0⟩
  | .SUB_NB_HI => ⟨.CMP, 0x1006c, 48, 0x100, 1, 0x0, .main, 0x0⟩
  | .SUB_DA_LO => ⟨.CMP, 0x10070, 48, 0x100, 1, 0x0, .main, 0x0⟩
  | .SUB_DA_HI => ⟨.CMP, 0x10074, 48, 0x100, 1, 0x0, .main, 0x0⟩
  | .SUB_REF_LO => ⟨.CMP, 0x10078, 48, 0x100, 1, 0x0, .main, 0x0⟩
  | .SUB_REF_HI => ⟨.CMP, 0x1007c, 48, 0x100, 1, 0x0, .main, 0x0⟩
  | .SUB_CTRL => ⟨.CMP, 0x10080, 48, 0x100, 1, 0x0, .main, 0x0⟩
  | .SUB_STATUS => ⟨.CMP, 0x10084, 48, 0x100, 1, 0x0, .main, 0x0⟩
  | .LAYER_STATUS => ⟨.CMP, 0x10088, 48, 0x100, 1, 0x0, .main, 0x0⟩
  | .REL_INFO => ⟨.CMP, 0x1008c, 48, 0x100, 1, 0x0, .main, 0x0⟩
  | .REL_ST_LO => ⟨.CMP, 0x10090, 48, 0x100, 1, 0x0, .main, 0x0⟩
  | .REL_ST_HI => ⟨.CMP, 0x10094, 48, 0x100, 1, 0x0, .main, 0x0⟩
  | .REL_POP => ⟨.CMP, 0x10098, 48, 0x100, 1, 0x0, .main, 0x0⟩
  | .CNT_SKIPPED => ⟨.CMP, 0x1009c, 48, 0x100, 1, 0x0, .main, 0x0⟩
  | .CNT_LATE => ⟨.CMP, 0x100a0, 48, 0x100, 1, 0x0, .main, 0x0⟩
  | .CNT_REFUSED => ⟨.CMP, 0x100a4, 48, 0x100, 1, 0x0, .main, 0x0⟩
  | .CNT_CLAMP => ⟨.CMP, 0x100a8, 48, 0x100, 1, 0x0, .main, 0x0⟩
  | .OUT_STATUS => ⟨.OUT, 0x0, 8, 0x10000, 1, 0x0, .tail, 0x0⟩
  | .OUT_CTRL => ⟨.OUT, 0x4, 8, 0x10000, 1, 0x0, .tail, 0x0⟩
  | .OUT_TIMING_H0 => ⟨.OUT, 0x10, 8, 0x10000, 1, 0x0, .tail, 0x0⟩
  | .OUT_TIMING_H1 => ⟨.OUT, 0x14, 8, 0x10000, 1, 0x0, .tail, 0x0⟩
  | .OUT_TIMING_V0 => ⟨.OUT, 0x18, 8, 0x10000, 1, 0x0, .tail, 0x0⟩
  | .OUT_TIMING_V1 => ⟨.OUT, 0x1c, 8, 0x10000, 1, 0x0, .tail, 0x0⟩
  | .OUT_PCLK => ⟨.OUT, 0x20, 8, 0x10000, 1, 0x0, .tail, 0x0⟩
  | .OUT_LOCK_ERR => ⟨.OUT, 0x30, 8, 0x10000, 1, 0x0, .tail, 0x0⟩
  | .OUT_FRAME_INDEX => ⟨.OUT, 0x34, 8, 0x10000, 1, 0x0, .tail, 0x0⟩
  | .OUT_UNDERRUN_COUNT => ⟨.OUT, 0x40, 8, 0x10000, 1, 0x0, .tail, 0x0⟩
  | .OUT_UNDERRUN_LINE => ⟨.OUT, 0x44, 8, 0x10000, 1, 0x0, .tail, 0x0⟩
  | .OUT_LINK_INFO => ⟨.OUT, 0x48, 8, 0x10000, 1, 0x0, .tail, 0x0⟩
  | .OUT_FRZ_CTRL => ⟨.OUT, 0x50, 8, 0x10000, 1, 0x0, .tail, 0x0⟩
  | .OUT_FRZ_COUNT => ⟨.OUT, 0x54, 8, 0x10000, 1, 0x0, .tail, 0x0⟩
  | .OUT_FRZ_CLR => ⟨.OUT, 0x58, 8, 0x10000, 1, 0x0, .tail, 0x0⟩
  | .OUT_SUB_BG => ⟨.OUT, 0x60, 8, 0x10000, 1, 0x0, .tail, 0x0⟩
  | .OUT_FRZ_WIN_POS => ⟨.OUT, 0x80, 8, 0x10000, 4, 0x8, .tail, 0x0⟩
  | .OUT_FRZ_WIN_SIZE => ⟨.OUT, 0x84, 8, 0x10000, 4, 0x8, .tail, 0x0⟩
  | .OUT_FRZ_SIG => ⟨.OUT, 0xa0, 8, 0x10000, 4, 0x4, .tail, 0x0⟩
  | .MEM_STATUS => ⟨.MEM, 0x0, 1, 0x0, 1, 0x0, .main, 0x0⟩
  | .MEM_CAPACITY => ⟨.MEM, 0x4, 1, 0x0, 1, 0x0, .main, 0x0⟩
  | .MEM_CHAN_ACTIVE => ⟨.MEM, 0x8, 1, 0x0, 1, 0x0, .main, 0x0⟩
  | .MEM_CHAN_DOWN => ⟨.MEM, 0xc, 1, 0x0, 1, 0x0, .main, 0x0⟩
  | .MEM_PAGE_CTRL => ⟨.MEM, 0x10, 1, 0x0, 1, 0x0, .main, 0x14⟩
  | .MEM_RETRAIN_CTRL => ⟨.MEM, 0x14, 1, 0x0, 1, 0x0, .main, 0x64⟩
  | .MEM_ERR_ADDR_LO => ⟨.MEM, 0x20, 1, 0x0, 1, 0x0, .main, 0x0⟩
  | .MEM_ERR_ADDR_HI => ⟨.MEM, 0x24, 1, 0x0, 1, 0x0, .main, 0x0⟩
  | .MEM_ERR_INFO => ⟨.MEM, 0x28, 1, 0x0, 1, 0x0, .main, 0x0⟩
  | .MEM_CE_COUNT => ⟨.MEM, 0x30, 1, 0x0, 1, 0x0, .main, 0x0⟩
  | .MEM_UE_COUNT => ⟨.MEM, 0x34, 1, 0x0, 1, 0x0, .main, 0x0⟩
  | .MEM_LINK_ECC => ⟨.MEM, 0x38, 1, 0x0, 1, 0x0, .main, 0x0⟩
  | .MEM_CEILING_NOW => ⟨.MEM, 0x44, 1, 0x0, 1, 0x0, .main, 0x0⟩
  | .MEM_RESERVED_NOW => ⟨.MEM, 0x48, 1, 0x0, 1, 0x0, .main, 0x0⟩
  | .MEM_PORT_QOS => ⟨.MEM, 0x1000, 24, 0x10, 1, 0x0, .main, 0x10000⟩
  | .MEM_PORT_STATUS => ⟨.MEM, 0x1004, 24, 0x10, 1, 0x0, .main, 0x0⟩
  | .MEM_PORT_RESERVE => ⟨.MEM, 0x1008, 24, 0x10, 1, 0x0, .main, 0x0⟩
  | .MEM_PORT_LATE => ⟨.MEM, 0x100c, 24, 0x10, 1, 0x0, .main, 0x0⟩
  | .CPX_STATUS => ⟨.CPX, 0x0, 1, 0x0, 1, 0x0, .main, 0x0⟩
  | .CPX_DBG_EN => ⟨.CPX, 0x4, 1, 0x0, 1, 0x0, .main, 0x0⟩
  | .CPX_FENCE_VIOL_ADDR_LO => ⟨.CPX, 0x10, 1, 0x0, 1, 0x0, .main, 0x0⟩
  | .CPX_FENCE_VIOL_ADDR_HI => ⟨.CPX, 0x14, 1, 0x0, 1, 0x0, .main, 0x0⟩
  | .CPX_FENCE_VIOL_INFO => ⟨.CPX, 0x18, 1, 0x0, 1, 0x0, .main, 0x0⟩
  | .CPX_FENCE_REGION_BASE => ⟨.CPX, 0x100, 32, 0x8, 1, 0x0, .main, 0x0⟩
  | .CPX_FENCE_REGION_SIZE => ⟨.CPX, 0x104, 32, 0x8, 1, 0x0, .main, 0x0⟩
  | .VIR_STATUS => ⟨.VIR, 0x0, 1, 0x0, 1, 0x0, .main, 0x0⟩
  | .VIR_POOL_FREE_0 => ⟨.VIR, 0x4, 1, 0x0, 1, 0x0, .main, 0x0⟩
  | .VIR_POOL_FREE_1 => ⟨.VIR, 0x8, 1, 0x0, 1, 0x0, .main, 0x0⟩
  | .VIR_MB_PENDING => ⟨.VIR, 0x10, 1, 0x0, 2, 0x4, .main, 0x0⟩
  | .VIR_PORT_CFG => ⟨.VIR, 0x100, 4, 0x10, 1, 0x0, .main, 0x180000⟩
  | .VIR_CREATE_SHAPE => ⟨.VIR, 0x200, 1, 0x0, 1, 0x0, .main, 0x0⟩
  | .VIR_CREATE_QUOTA => ⟨.VIR, 0x204, 1, 0x0, 1, 0x0, .main, 0x0⟩
  | .VIR_CREATE_LAYERS_LO => ⟨.VIR, 0x208, 1, 0x0, 1, 0x0, .main, 0x0⟩
  | .VIR_CREATE_LAYERS_HI => ⟨.VIR, 0x20c, 1, 0x0, 1, 0x0, .main, 0x0⟩
  | .VIR_CREATE_DRAM_BASE => ⟨.VIR, 0x210, 1, 0x0, 1, 0x0, .main, 0x0⟩
  | .VIR_CREATE_DRAM_SIZE => ⟨.VIR, 0x214, 1, 0x0, 1, 0x0, .main, 0x0⟩
  | .VIR_CREATE_CTRL => ⟨.VIR, 0x218, 1, 0x0, 1, 0x0, .main, 0x0⟩
  | .VIR_CREATE_STATUS => ⟨.VIR, 0x21c, 1, 0x0, 1, 0x0, .main, 0x0⟩
  | .VIR_MB_RX => ⟨.VIR, 0x10000, 64, 0x2000, 512, 0x4, .main, 0x0⟩
  | .VIR_MB_RX_POP => ⟨.VIR, 0x10800, 64, 0x2000, 1, 0x0, .main, 0x0⟩
  | .VIR_MB_STATUS => ⟨.VIR, 0x10804, 64, 0x2000, 1, 0x0, .main, 0x0⟩
  | .VIR_MB_TX => ⟨.VIR, 0x11000, 64, 0x2000, 512, 0x4, .main, 0x0⟩
  | .VIR_MB_TX_GO => ⟨.VIR, 0x11800, 64, 0x2000, 1, 0x0, .main, 0x0⟩
  | .VIR_INST_STATE => ⟨.VIR, 0x11c00, 64, 0x2000, 1, 0x0, .main, 0x0⟩
  | .VIR_INST_CTRL => ⟨.VIR, 0x11c04, 64, 0x2000, 1, 0x0, .main, 0x0⟩
  | .VIR_INST_BUF_LO => ⟨.VIR, 0x11c08, 64, 0x2000, 1, 0x0, .main, 0x0⟩
  | .VIR_INST_BUF_HI => ⟨.VIR, 0x11c0c, 64, 0x2000, 1, 0x0, .main, 0x0⟩
  | .VIR_INST_BUF_LEN => ⟨.VIR, 0x11c10, 64, 0x2000, 1, 0x0, .main, 0x0⟩
  | .VIR_INST_SAVE_SIZE => ⟨.VIR, 0x11c14, 64, 0x2000, 1, 0x0, .main, 0x0⟩
  | .VIR_INST_RESTORE_INFO => ⟨.VIR, 0x11c18, 64, 0x2000, 1, 0x0, .main, 0x0⟩
  | .DOORBELL => ⟨.INS, 0x0, 72, 0x0, 16, 0x4, .main, 0x0⟩
  | .QCOMP_LO => ⟨.INS, 0x1000, 72, 0x0, 16, 0x8, .main, 0x0⟩
  | .QCOMP_HI => ⟨.INS, 0x1004, 72, 0x0, 16, 0x8, .main, 0x0⟩
  | .INST_STATUS => ⟨.INS, 0x1100, 72, 0x0, 1, 0x0, .main, 0x0⟩
  | .TT_ROOT_LO => ⟨.INS, 0x1110, 72, 0x0, 1, 0x0, .main, 0x0⟩
  | .TT_ROOT_HI => ⟨.INS, 0x1114, 72, 0x0, 1, 0x0, .main, 0x0⟩
  | .INV_ADDR_LO => ⟨.INS, 0x1118, 72, 0x0, 1, 0x0, .main, 0x0⟩
  | .INV_ADDR_HI => ⟨.INS, 0x111c, 72, 0x0, 1, 0x0, .main, 0x0⟩
  | .INV_PAGES => ⟨.INS, 0x1120, 72, 0x0, 1, 0x0, .main, 0x0⟩
  | .INV_CTRL => ⟨.INS, 0x1124, 72, 0x0, 1, 0x0, .main, 0x0⟩
  | .INV_STATUS => ⟨.INS, 0x1128, 72, 0x0, 1, 0x0, .main, 0x0⟩
  | .TFAULT_ADDR_LO => ⟨.INS, 0x1130, 72, 0x0, 1, 0x0, .main, 0x0⟩
  | .TFAULT_ADDR_HI => ⟨.INS, 0x1134, 72, 0x0, 1, 0x0, .main, 0x0⟩
  | .TFAULT_INFO => ⟨.INS, 0x1138, 72, 0x0, 1, 0x0, .main, 0x0⟩
  | .TFAULT_VEC => ⟨.INS, 0x113c, 72, 0x0, 1, 0x0, .main, 0xff⟩
  | .INST_MB_TX => ⟨.INS, 0x2000, 72, 0x0, 512, 0x4, .main, 0x0⟩
  | .INST_MB_TX_CTRL => ⟨.INS, 0x2800, 72, 0x0, 1, 0x0, .main, 0x0⟩
  | .INST_MB_TX_STATUS => ⟨.INS, 0x2804, 72, 0x0, 1, 0x0, .main, 0x0⟩
  | .INST_MB_RX => ⟨.INS, 0x3000, 72, 0x0, 512, 0x4, .main, 0x0⟩
  | .INST_MB_RX_POP => ⟨.INS, 0x3800, 72, 0x0, 1, 0x0, .main, 0x0⟩
  | .INST_MB_RX_STATUS => ⟨.INS, 0x3804, 72, 0x0, 1, 0x0, .main, 0x0⟩
  | .MBOX_RX_VEC => ⟨.INS, 0x3808, 72, 0x0, 1, 0x0, .main, 0xff⟩
  | .INST_MSIX_ADDR_LO => ⟨.INS, 0x4000, 72, 0x0, 32, 0x10, .main, 0x0⟩
  | .INST_MSIX_ADDR_HI => ⟨.INS, 0x4004, 72, 0x0, 32, 0x10, .main, 0x0⟩
  | .INST_MSIX_DATA => ⟨.INS, 0x4008, 72, 0x0, 32, 0x10, .main, 0x0⟩
  | .INST_MSIX_CTRL => ⟨.INS, 0x400c, 72, 0x0, 32, 0x10, .main, 0x1⟩
  | .INST_PBA => ⟨.INS, 0x5000, 72, 0x0, 1, 0x0, .main, 0x0⟩
  | .CH_BASE_LO => ⟨.DMA, 0x10000, 256, 0x40, 1, 0x0, .main, 0x0⟩
  | .CH_BASE_HI => ⟨.DMA, 0x10004, 256, 0x40, 1, 0x0, .main, 0x0⟩
  | .CH_CQ_LO => ⟨.DMA, 0x10008, 256, 0x40, 1, 0x0, .main, 0x0⟩
  | .CH_CQ_HI => ⟨.DMA, 0x1000c, 256, 0x40, 1, 0x0, .main, 0x0⟩
  | .CH_CQ_HEAD => ⟨.DMA, 0x10010, 256, 0x40, 1, 0x0, .main, 0x80000000⟩
  | .CH_STATUS => ⟨.DMA, 0x10014, 256, 0x40, 1, 0x0, .main, 0x0⟩
  | .CH_VEC => ⟨.DMA, 0x10018, 256, 0x40, 1, 0x0, .main, 0xff⟩
  | .CH_START => ⟨.DMA, 0x1001c, 256, 0x40, 1, 0x0, .main, 0x0⟩
  | .CH_CFG => ⟨.DMA, 0x10020, 256, 0x40, 1, 0x0, .main, 0x0⟩
  | .CH_TRIG => ⟨.DMA, 0x10024, 256, 0x40, 1, 0x0, .main, 0x0⟩
  | .CH_CTRL => ⟨.DMA, 0x10028, 256, 0x40, 1, 0x0, .main, 0x0⟩
  | .CH_CUR_LO => ⟨.DMA, 0x1002c, 256, 0x40, 1, 0x0, .main, 0x0⟩
  | .CH_CUR_HI => ⟨.DMA, 0x10030, 256, 0x40, 1, 0x0, .main, 0x0⟩
  | .CH_DONE_BYTES => ⟨.DMA, 0x10034, 256, 0x40, 1, 0x0, .main, 0x0⟩
  | .CH_MISSED_COUNT => ⟨.DMA, 0x10038, 256, 0x40, 1, 0x0, .main, 0x0⟩
  | .CH_OWNER => ⟨.DMA, 0x1003c, 256, 0x40, 1, 0x0, .main, 0x0⟩
  | .TIMER_PERIOD => ⟨.DMA, 0x0, 16, 0x100, 4, 0x10, .main, 0x0⟩
  | .TIMER_PHASE_LO => ⟨.DMA, 0x4, 16, 0x100, 4, 0x10, .main, 0x0⟩
  | .TIMER_PHASE_HI => ⟨.DMA, 0x8, 16, 0x100, 4, 0x10, .main, 0x0⟩
  | .ENG_STATUS => ⟨.DMA, 0x80, 16, 0x100, 1, 0x0, .main, 0x0⟩
  | .CRC_CFG => ⟨.CRC, 0x0, 8, 0x40, 1, 0x0, .main, 0x0⟩
  | .CRC_POLY => ⟨.CRC, 0x4, 8, 0x40, 2, 0x4, .main, 0x0⟩
  | .CRC_INIT => ⟨.CRC, 0xc, 8, 0x40, 2, 0x4, .main, 0x0⟩
  | .CRC_XOR => ⟨.CRC, 0x14, 8, 0x40, 2, 0x4, .main, 0x0⟩
  | .CRC_DATA => ⟨.CRC, 0x1c, 8, 0x40, 1, 0x0, .main, 0x0⟩
  | .CRC_DATA_B => ⟨.CRC, 0x20, 8, 0x40, 1, 0x0, .main, 0x0⟩
  | .CRC_RESULT_LO => ⟨.CRC, 0x24, 8, 0x40, 1, 0x0, .main, 0x0⟩
  | .CRC_RESULT_HI => ⟨.CRC, 0x28, 8, 0x40, 1, 0x0, .main, 0x0⟩
  | .CRC_EXPECT => ⟨.CRC, 0x2c, 8, 0x40, 2, 0x4, .main, 0x0⟩
  | .CRC_CTRL => ⟨.CRC, 0x34, 8, 0x40, 1, 0x0, .main, 0x0⟩
  | .CRC_STATUS => ⟨.CRC, 0x38, 8, 0x40, 1, 0x0, .main, 0x0⟩
  | .TCH_STATUS => ⟨.TCH, 0x0, 1, 0x0, 1, 0x0, .main, 0x0⟩
  | .TCH_CTRL => ⟨.TCH, 0x1000, 4, 0x400, 1, 0x0, .main, 0x0⟩
  | .TCH_THRESH => ⟨.TCH, 0x1004, 4, 0x400, 1, 0x0, .main, 0x0⟩
  | .TCH_THRESH2 => ⟨.TCH, 0x1008, 4, 0x400, 1, 0x0, .main, 0x0⟩
  | .TCH_CSTATUS => ⟨.TCH, 0x100c, 4, 0x400, 1, 0x0, .main, 0x0⟩
  | .TCH_FRAME_ST_LO => ⟨.TCH, 0x1010, 4, 0x400, 1, 0x0, .main, 0x0⟩
  | .TCH_FRAME_ST_HI => ⟨.TCH, 0x1014, 4, 0x400, 1, 0x0, .main, 0x0⟩
  | .TCH_REPORT_HDR => ⟨.TCH, 0x1018, 4, 0x400, 1, 0x0, .main, 0x0⟩
  | .TCH_REGION => ⟨.TCH, 0x1020, 4, 0x400, 2, 0x4, .main, 0x0⟩
  | .TCH_DEGRADED => ⟨.TCH, 0x1028, 4, 0x400, 2, 0x4, .main, 0x0⟩
  | .TCH_RERUN_COUNT => ⟨.TCH, 0x1030, 4, 0x400, 1, 0x0, .main, 0x0⟩
  | .TCH_STALE_COUNT => ⟨.TCH, 0x1034, 4, 0x400, 1, 0x0, .main, 0x0⟩
  | .TCH_CONTACT_A => ⟨.TCH, 0x1100, 4, 0x400, 16, 0x8, .main, 0x0⟩
  | .TCH_CONTACT_B => ⟨.TCH, 0x1104, 4, 0x400, 16, 0x8, .main, 0x0⟩
  | .TCH_NOISE => ⟨.TCH, 0x1200, 4, 0x400, 8, 0x4, .main, 0x0⟩
  | .HAP_STATUS => ⟨.HAP, 0x0, 1, 0x0, 1, 0x0, .main, 0x0⟩
  | .HAP_CH_STATUS => ⟨.HAP, 0x1000, 16, 0x40, 1, 0x0, .main, 0x0⟩
  | .HAP_CH_FIRE => ⟨.HAP, 0x1004, 16, 0x40, 1, 0x0, .main, 0x0⟩
  | .HAP_CH_CTRL => ⟨.HAP, 0x1008, 16, 0x40, 1, 0x0, .main, 0x0⟩
  | .HAP_CH_PEAK_I => ⟨.HAP, 0x100c, 16, 0x40, 1, 0x0, .main, 0x0⟩
  | .HAP_CH_FIRE_COUNT => ⟨.HAP, 0x1010, 16, 0x40, 1, 0x0, .main, 0x0⟩
  | .HAP_CH_DROP_COUNT => ⟨.HAP, 0x1014, 16, 0x40, 1, 0x0, .main, 0x0⟩
  | .DMX_CFG => ⟨.SIO, 0x10000, 16, 0x100, 1, 0x0, .main, 0x0⟩
  | .DMX_TIMING => ⟨.SIO, 0x10004, 16, 0x100, 1, 0x0, .main, 0x0⟩
  | .DMX_TIMING2 => ⟨.SIO, 0x10008, 16, 0x100, 1, 0x0, .main, 0x0⟩
  | .DMX_BUF_LO => ⟨.SIO, 0x1000c, 16, 0x100, 1, 0x0, .main, 0x0⟩
  | .DMX_BUF_HI => ⟨.SIO, 0x10010, 16, 0x100, 1, 0x0, .main, 0x0⟩
  | .DMX_CTRL => ⟨.SIO, 0x10014, 16, 0x100, 1, 0x0, .main, 0x0⟩
  | .DMX_STATUS => ⟨.SIO, 0x10018, 16, 0x100, 1, 0x0, .main, 0x0⟩
  | .DMX_RX_INFO => ⟨.SIO, 0x1001c, 16, 0x100, 1, 0x0, .main, 0x0⟩
  | .DMX_RX_ST_LO => ⟨.SIO, 0x10020, 16, 0x100, 1, 0x0, .main, 0x0⟩
  | .DMX_RX_ST_HI => ⟨.SIO, 0x10024, 16, 0x100, 1, 0x0, .main, 0x0⟩
  | .DMX_RDM_ADDR_LO => ⟨.SIO, 0x10028, 16, 0x100, 1, 0x0, .main, 0x0⟩
  | .DMX_RDM_ADDR_HI => ⟨.SIO, 0x1002c, 16, 0x100, 1, 0x0, .main, 0x0⟩
  | .DMX_RDM_LEN => ⟨.SIO, 0x10030, 16, 0x100, 1, 0x0, .main, 0x340000⟩
  | .DMX_GRID_PERIOD => ⟨.SIO, 0x10034, 16, 0x100, 1, 0x0, .main, 0x0⟩
  | .DMX_GRID_PHASE_LO => ⟨.SIO, 0x10038, 16, 0x100, 1, 0x0, .main, 0x0⟩
  | .DMX_GRID_PHASE_HI => ⟨.SIO, 0x1003c, 16, 0x100, 1, 0x0, .main, 0x0⟩
  | .DMX_RDM_UID_LO => ⟨.SIO, 0x10040, 16, 0x100, 1, 0x0, .main, 0x0⟩
  | .DMX_RDM_UID_HI => ⟨.SIO, 0x10044, 16, 0x100, 1, 0x0, .main, 0x0⟩
  | .DMX_LATE_FETCH_COUNT => ⟨.SIO, 0x10048, 16, 0x100, 1, 0x0, .main, 0x0⟩
  | .DMX_RX_ERR_COUNT => ⟨.SIO, 0x1004c, 16, 0x100, 1, 0x0, .main, 0x0⟩
  | .DMX_REFUSED_COUNT => ⟨.SIO, 0x10050, 16, 0x100, 1, 0x0, .main, 0x0⟩
  | .MIDI_TX => ⟨.SIO, 0x20000, 4, 0x40, 1, 0x0, .main, 0x0⟩
  | .MIDI_RX => ⟨.SIO, 0x20004, 4, 0x40, 1, 0x0, .main, 0x0⟩
  | .MIDI_RX_ST_LO => ⟨.SIO, 0x20008, 4, 0x40, 1, 0x0, .main, 0x0⟩
  | .MIDI_RX_ST_HI => ⟨.SIO, 0x2000c, 4, 0x40, 1, 0x0, .main, 0x0⟩
  | .MIDI_STATUS => ⟨.SIO, 0x20010, 4, 0x40, 1, 0x0, .main, 0x0⟩
  | .LTC_IN_TC => ⟨.SIO, 0x21000, 2, 0x40, 1, 0x0, .main, 0x0⟩
  | .LTC_IN_ST_LO => ⟨.SIO, 0x21004, 2, 0x40, 1, 0x0, .main, 0x0⟩
  | .LTC_IN_ST_HI => ⟨.SIO, 0x21008, 2, 0x40, 1, 0x0, .main, 0x0⟩
  | .LTC_IN_USER => ⟨.SIO, 0x2100c, 2, 0x40, 1, 0x0, .main, 0x0⟩
  | .LTC_IN_STATUS => ⟨.SIO, 0x21010, 2, 0x40, 1, 0x0, .main, 0x0⟩
  | .LTC_OUT_CTRL => ⟨.SIO, 0x21100, 2, 0x40, 1, 0x0, .main, 0x0⟩
  | .LTC_OUT_ANCHOR_LO => ⟨.SIO, 0x21104, 2, 0x40, 1, 0x0, .main, 0x0⟩
  | .LTC_OUT_ANCHOR_HI => ⟨.SIO, 0x21108, 2, 0x40, 1, 0x0, .main, 0x0⟩
  | .LTC_OUT_START => ⟨.SIO, 0x2110c, 2, 0x40, 1, 0x0, .main, 0x0⟩
  | .LTC_OUT_USER => ⟨.SIO, 0x21110, 2, 0x40, 1, 0x0, .main, 0x0⟩
  | .LTC_OUT_TC => ⟨.SIO, 0x21114, 2, 0x40, 1, 0x0, .main, 0x0⟩
  | .FADER_VAL => ⟨.SIO, 0x30000, 48, 0x4, 1, 0x0, .main, 0x0⟩
  | .FADER_INVALID => ⟨.SIO, 0x30100, 1, 0x0, 2, 0x4, .main, 0x0⟩
  | .FADER_MOVED => ⟨.SIO, 0x30108, 1, 0x0, 2, 0x4, .main, 0x0⟩
  | .ENC_COUNT => ⟨.SIO, 0x31000, 16, 0x10, 1, 0x0, .main, 0x0⟩
  | .ENC_ST_LO => ⟨.SIO, 0x31004, 16, 0x10, 1, 0x0, .main, 0x0⟩
  | .ENC_ST_HI => ⟨.SIO, 0x31008, 16, 0x10, 1, 0x0, .main, 0x0⟩
  | .ENC_ERR_COUNT => ⟨.SIO, 0x3100c, 16, 0x10, 1, 0x0, .main, 0x0⟩
  | .SSI_RAW => ⟨.SIO, 0x32000, 8, 0x40, 1, 0x0, .main, 0x0⟩
  | .SSI_STATUS => ⟨.SIO, 0x32004, 8, 0x40, 1, 0x0, .main, 0x0⟩
  | .BUS_CFG => ⟨.SIO, 0x40000, 8, 0x200, 1, 0x0, .main, 0x0⟩
  | .BUS_DATA => ⟨.SIO, 0x40040, 8, 0x200, 16, 0x4, .main, 0x0⟩
  | .BUS_CTRL => ⟨.SIO, 0x40080, 8, 0x200, 1, 0x0, .main, 0x0⟩
  | .BUS_STATUS => ⟨.SIO, 0x40084, 8, 0x200, 1, 0x0, .main, 0x0⟩
  | .GPIO_IN => ⟨.SIO, 0x1000, 8, 0x40, 1, 0x0, .main, 0x0⟩
  | .GPIO_OUT => ⟨.SIO, 0x1004, 8, 0x40, 1, 0x0, .main, 0x0⟩
  | .GPIO_SET => ⟨.SIO, 0x1008, 8, 0x40, 1, 0x0, .main, 0x0⟩
  | .GPIO_CLR => ⟨.SIO, 0x100c, 8, 0x40, 1, 0x0, .main, 0x0⟩
  | .GPIO_EDGE_RISE => ⟨.SIO, 0x1010, 8, 0x40, 1, 0x0, .main, 0x0⟩
  | .GPIO_EDGE_FALL => ⟨.SIO, 0x1014, 8, 0x40, 1, 0x0, .main, 0x0⟩
  | .GPIO_EDGE => ⟨.SIO, 0x1018, 8, 0x40, 1, 0x0, .main, 0x0⟩
  | .GPIO_EDGE_ST_LO => ⟨.SIO, 0x101c, 8, 0x40, 1, 0x0, .main, 0x0⟩
  | .GPIO_EDGE_ST_HI => ⟨.SIO, 0x1020, 8, 0x40, 1, 0x0, .main, 0x0⟩
  | .AUD_STATUS => ⟨.AUD, 0x0, 1, 0x0, 1, 0x0, .main, 0x0⟩
  | .CLIP_TABLE_LO => ⟨.AUD, 0x10, 1, 0x0, 1, 0x0, .main, 0x0⟩
  | .CLIP_TABLE_HI => ⟨.AUD, 0x14, 1, 0x0, 1, 0x0, .main, 0x0⟩
  | .CLIP_COUNT => ⟨.AUD, 0x18, 1, 0x0, 1, 0x0, .main, 0x0⟩
  | .SLIP_COUNT => ⟨.AUD, 0x40, 8, 0x4, 1, 0x0, .main, 0x0⟩
  | .BUS_IN => ⟨.AUD, 0x10000, 32, 0x400, 16, 0x4, .main, 0x0⟩
  | .BUS_GAIN => ⟨.AUD, 0x10040, 32, 0x400, 1, 0x0, .main, 0x0⟩
  | .BUS_DELAY => ⟨.AUD, 0x10044, 32, 0x400, 1, 0x0, .main, 0x0⟩
  | .BUS_EQ_A => ⟨.AUD, 0x10080, 32, 0x400, 6, 0x8, .main, 0x0⟩
  | .BUS_EQ_B => ⟨.AUD, 0x10084, 32, 0x400, 6, 0x8, .main, 0x0⟩
  | .BUS_EQ_COMMIT => ⟨.AUD, 0x100b0, 32, 0x400, 1, 0x0, .main, 0x0⟩
  | .BUS_LIM => ⟨.AUD, 0x100c0, 32, 0x400, 1, 0x0, .main, 0x0⟩
  | .BUS_LIM2 => ⟨.AUD, 0x100c4, 32, 0x400, 1, 0x0, .main, 0x0⟩
  | .BUS_STATUS_A => ⟨.AUD, 0x100d0, 32, 0x400, 1, 0x0, .main, 0x0⟩
  | .OUT_SEL => ⟨.AUD, 0x20000, 160, 0x4, 1, 0x0, .main, 0x0⟩
  | .PLAYER_CTRL => ⟨.AUD, 0x30000, 16, 0x40, 1, 0x0, .main, 0x0⟩
  | .PLAYER_FADE => ⟨.AUD, 0x30004, 16, 0x40, 1, 0x0, .main, 0x0⟩
  | .PLAYER_STATUS => ⟨.AUD, 0x30008, 16, 0x40, 1, 0x0, .main, 0x0⟩
  | .UNDERRUN_COUNT => ⟨.AUD, 0x3000c, 16, 0x40, 1, 0x0, .main, 0x0⟩
  | .TONE_CFG => ⟨.AUD, 0x31000, 8, 0x10, 1, 0x0, .main, 0x0⟩
  | .TONE_LEVEL => ⟨.AUD, 0x31004, 8, 0x10, 1, 0x0, .main, 0x0⟩
  | .SIL_CFG => ⟨.AUD, 0x32000, 8, 0x10, 1, 0x0, .main, 0x0⟩
  | .SIL_STATUS => ⟨.AUD, 0x32004, 8, 0x10, 1, 0x0, .main, 0x0⟩
  | .AES_CFG => ⟨.AUD, 0x40000, 8, 0x40, 1, 0x0, .main, 0x0⟩
  | .AES_ADDR => ⟨.AUD, 0x40004, 8, 0x40, 1, 0x0, .main, 0x0⟩
  | .AES_UDP => ⟨.AUD, 0x40008, 8, 0x40, 1, 0x0, .main, 0x0⟩
  | .AES_TS_OFFSET => ⟨.AUD, 0x4000c, 8, 0x40, 1, 0x0, .main, 0x0⟩
  | .AES_LINK_OFFSET => ⟨.AUD, 0x40010, 8, 0x40, 1, 0x0, .main, 0x0⟩
  | .LOSS_COUNT => ⟨.AUD, 0x40014, 8, 0x40, 1, 0x0, .main, 0x0⟩
  | .EVT_ROUTE => ⟨.EVT, 0x0, 384, 0x4, 1, 0x0, .main, 0x0⟩
  | .EVT_MGMT_PEND => ⟨.EVT, 0x800, 1, 0x0, 12, 0x4, .main, 0x0⟩
  | .EVT_STICKY => ⟨.EVT, 0xa00, 1, 0x0, 12, 0x4, .main, 0x0⟩
  | .PF_MSIX_ADDR_LO => ⟨.EVT, 0x2000, 64, 0x10, 1, 0x0, .main, 0x0⟩
  | .PF_MSIX_ADDR_HI => ⟨.EVT, 0x2004, 64, 0x10, 1, 0x0, .main, 0x0⟩
  | .PF_MSIX_DATA => ⟨.EVT, 0x2008, 64, 0x10, 1, 0x0, .main, 0x0⟩
  | .PF_MSIX_CTRL => ⟨.EVT, 0x200c, 64, 0x10, 1, 0x0, .main, 0x1⟩
  | .PF_PBA => ⟨.EVT, 0x3000, 1, 0x0, 2, 0x4, .main, 0x0⟩
  | .EVT_CUE_SRC => ⟨.EVT, 0x4000, 16, 0x40, 1, 0x0, .main, 0x0⟩
  | .EVT_CUE_OFFSET => ⟨.EVT, 0x4004, 16, 0x40, 1, 0x0, .main, 0x0⟩
  | .EVT_CUE_ENTRY => ⟨.EVT, 0x4008, 16, 0x40, 8, 0x4, .main, 0x0⟩
  | .EVT_CUE_STATUS => ⟨.EVT, 0x4028, 16, 0x40, 1, 0x0, .main, 0x0⟩
  | .EVT_HAP_LINK_A => ⟨.EVT, 0x5000, 8, 0x10, 1, 0x0, .main, 0x0⟩
  | .EVT_HAP_LINK_B => ⟨.EVT, 0x5004, 8, 0x10, 1, 0x0, .main, 0x0⟩
  | .PMC_SEL => ⟨.EVT, 0x8000, 32, 0x20, 1, 0x0, .main, 0x0⟩
  | .PMC_OWNER => ⟨.EVT, 0x8004, 32, 0x20, 1, 0x0, .main, 0x0⟩
  | .PMC_ADDR_BASE_LO => ⟨.EVT, 0x8008, 32, 0x20, 1, 0x0, .main, 0x0⟩
  | .PMC_ADDR_BASE_HI => ⟨.EVT, 0x800c, 32, 0x20, 1, 0x0, .main, 0x0⟩
  | .PMC_ADDR_LIMIT_LO => ⟨.EVT, 0x8010, 32, 0x20, 1, 0x0, .main, 0x0⟩
  | .PMC_ADDR_LIMIT_HI => ⟨.EVT, 0x8014, 32, 0x20, 1, 0x0, .main, 0x0⟩
  | .PMC_VAL_LO => ⟨.EVT, 0x8018, 32, 0x20, 1, 0x0, .main, 0x0⟩
  | .PMC_VAL_HI => ⟨.EVT, 0x801c, 32, 0x20, 1, 0x0, .main, 0x0⟩
  | .PMC_GLOBAL => ⟨.EVT, 0x8800, 1, 0x0, 1, 0x0, .main, 0x0⟩
  | .PMC_MIRROR_OVF => ⟨.EVT, 0x8804, 1, 0x0, 1, 0x0, .main, 0x0⟩
  | .PSAMP_CTRL => ⟨.EVT, 0x9000, 1, 0x0, 1, 0x0, .main, 0x0⟩
  | .PSAMP_PERIOD => ⟨.EVT, 0x9004, 1, 0x0, 1, 0x0, .main, 0x0⟩
  | .PSAMP_BASE_LO => ⟨.EVT, 0x9008, 1, 0x0, 1, 0x0, .main, 0x0⟩
  | .PSAMP_BASE_HI => ⟨.EVT, 0x900c, 1, 0x0, 1, 0x0, .main, 0x0⟩
  | .PSAMP_WR => ⟨.EVT, 0x9010, 1, 0x0, 1, 0x0, .main, 0x0⟩
  | .PSAMP_RD => ⟨.EVT, 0x9014, 1, 0x0, 1, 0x0, .main, 0x0⟩
  | .PSAMP_WM => ⟨.EVT, 0x9018, 1, 0x0, 1, 0x0, .main, 0x0⟩
  | .PSAMP_LOST => ⟨.EVT, 0x901c, 1, 0x0, 1, 0x0, .main, 0x0⟩
  | .BW_CTRL => ⟨.EVT, 0xa000, 1, 0x0, 1, 0x0, .main, 0x0⟩
  | .BW_WINDOW => ⟨.EVT, 0xa004, 1, 0x0, 1, 0x0, .main, 0x0⟩
  | .BW_SEQ => ⟨.EVT, 0xa008, 1, 0x0, 1, 0x0, .main, 0x0⟩
  | .BW_PORT_LO => ⟨.EVT, 0xa100, 24, 0x8, 1, 0x0, .main, 0x0⟩
  | .BW_PORT_HI => ⟨.EVT, 0xa104, 24, 0x8, 1, 0x0, .main, 0x0⟩
  | .PMU_STATE_CTRL => ⟨.PMU, 0x0, 1, 0x0, 1, 0x0, .main, 0x0⟩
  | .PMU_STATE_STATUS => ⟨.PMU, 0x4, 1, 0x0, 1, 0x0, .main, 0x0⟩
  | .PMU_WAKE_EN => ⟨.PMU, 0x8, 1, 0x0, 1, 0x0, .main, 0x0⟩
  | .PMU_WAKE_CAUSE => ⟨.PMU, 0xc, 1, 0x0, 1, 0x0, .main, 0x0⟩
  | .PMU_AOT_WAKE => ⟨.PMU, 0x10, 1, 0x0, 1, 0x0, .main, 0x0⟩

/-- The fields of each register, from bit 0 upwards; the bits between them are reserved (R7). -/
def Reg.fields : Reg → List FieldDesc
  | .SYS_RESET_CTRL => [⟨0, 1, .w1s, 0x0, [.manager, .inner]⟩, ⟨8, 8, .wo, 0x0, [.manager, .inner]⟩]
  | .SYS_RESET_CAUSE => [⟨0, 1, .w1c, 0x1, [.manager]⟩, ⟨1, 1, .w1c, 0x0, [.manager]⟩, ⟨2, 1, .w1c, 0x0, [.manager]⟩, ⟨3, 1, .w1c, 0x0, [.manager]⟩, ⟨4, 1, .w1c, 0x0, [.manager]⟩, ⟨5, 1, .w1c, 0x0, [.manager]⟩, ⟨6, 1, .w1c, 0x0, [.manager]⟩, ⟨7, 1, .w1c, 0x0, [.manager]⟩, ⟨8, 1, .w1c, 0x0, [.manager]⟩]
  | .SYS_BOOT_STATUS => [⟨0, 1, .ro, 0x0, []⟩, ⟨1, 1, .ro, 0x0, []⟩, ⟨2, 1, .ro, 0x0, []⟩, ⟨8, 6, .ro, 0x0, []⟩, ⟨16, 16, .ro, 0x0, []⟩]
  | .SYS_RCP_STATUS => [⟨0, 4, .ro, 0x0, []⟩, ⟨4, 4, .ro, 0x0, []⟩, ⟨8, 8, .ro, 0x0, []⟩, ⟨16, 1, .ro, 0x0, []⟩, ⟨17, 1, .ro, 0x0, []⟩, ⟨18, 1, .w1c, 0x0, [.manager]⟩, ⟨19, 1, .ro, 0x0, []⟩, ⟨20, 1, .ro, 0x0, []⟩]
  | .SYS_RCP_CTRL => [⟨0, 1, .w1s, 0x0, [.manager]⟩, ⟨1, 1, .w1s, 0x0, [.manager]⟩]
  | .SYS_RCP_PUSH_ADDR_LO => [⟨12, 20, .rw, 0x0, [.manager]⟩]
  | .SYS_RCP_PUSH_ADDR_HI => [⟨0, 32, .rw, 0x0, [.manager]⟩]
  | .SYS_RCP_PUSH_LEN => [⟨0, 25, .rw, 0x0, [.manager]⟩]
  | .SYS_RCP_ERR_DETAIL => [⟨0, 8, .ro, 0x0, []⟩, ⟨8, 24, .ro, 0x0, []⟩]
  | .SYS_RCP_ID => [⟨0, 32, .ro, 0x0, []⟩]
  | .SYS_RCP_BW_CEILING => [⟨0, 32, .ro, 0x0, []⟩]
  | .SYS_RCP_BW_ADMITTED => [⟨0, 32, .ro, 0x0, []⟩]
  | .SYS_RCP_IFACE => [⟨0, 8, .ro, 0x0, []⟩, ⟨8, 8, .ro, 0x0, []⟩, ⟨16, 8, .ro, 0x0, []⟩]
  | .SYS_TEMP => [⟨0, 9, .ro, 0x0, []⟩, ⟨12, 4, .ro, 0x0, []⟩, ⟨16, 1, .ro, 0x0, []⟩, ⟨17, 1, .ro, 0x0, []⟩]
  | .TIME_STATUS => [⟨0, 3, .ro, 0x0, []⟩, ⟨3, 3, .ro, 0x0, []⟩, ⟨6, 1, .ro, 0x0, []⟩, ⟨7, 1, .ro, 0x0, []⟩, ⟨8, 1, .ro, 0x0, []⟩, ⟨9, 1, .w1c, 0x0, [.manager]⟩, ⟨16, 8, .ro, 0x0, []⟩]
  | .TIME_ST_LO => [⟨0, 32, .ro, 0x0, []⟩]
  | .TIME_ST_HI => [⟨0, 32, .ro, 0x0, []⟩]
  | .TIME_PHASE_ERR => [⟨0, 32, .ro, 0x0, []⟩]
  | .TIME_FREQ_ADJ => [⟨0, 32, .ro, 0x0, []⟩]
  | .TIME_HOLDOVER_AGE => [⟨0, 32, .ro, 0x0, []⟩]
  | .TIME_LTC_TC => [⟨0, 6, .ro, 0x0, []⟩, ⟨6, 1, .ro, 0x0, []⟩, ⟨8, 7, .ro, 0x0, []⟩, ⟨16, 7, .ro, 0x0, []⟩, ⟨24, 6, .ro, 0x0, []⟩]
  | .TIME_LTC_ST_LO => [⟨0, 32, .ro, 0x0, []⟩]
  | .TIME_LTC_ST_HI => [⟨0, 32, .ro, 0x0, []⟩]
  | .AXIS_STATUS => [⟨0, 3, .ro, 0x0, []⟩, ⟨8, 8, .ro, 0x0, []⟩]
  | .AXIS_POS_LO => [⟨0, 32, .ro, 0x0, []⟩]
  | .AXIS_POS_HI => [⟨0, 32, .ro, 0x0, []⟩]
  | .AXIS_VEL_LO => [⟨0, 32, .ro, 0x0, []⟩]
  | .AXIS_VEL_HI => [⟨0, 32, .ro, 0x0, []⟩]
  | .AXIS_EVAL_ST_LO => [⟨0, 32, .ro, 0x0, []⟩]
  | .AXIS_EVAL_ST_HI => [⟨0, 32, .ro, 0x0, []⟩]
  | .AXIS_SAMPLE_RAW => [⟨0, 32, .ro, 0x0, []⟩]
  | .CUE_ENTRY => [⟨0, 32, .rw, 0x0, [.owner]⟩]
  | .CUE_ARM_CTRL => [⟨0, 3, .wo, 0x0, [.owner]⟩, ⟨4, 12, .wo, 0x0, [.owner]⟩, ⟨16, 7, .wo, 0x0, [.manager]⟩]
  | .CUE_STATUS => [⟨0, 1, .ro, 0x0, []⟩, ⟨8, 4, .ro, 0x0, []⟩, ⟨16, 12, .ro, 0x0, []⟩]
  | .CUE_COUNT => [⟨0, 13, .ro, 0x0, []⟩, ⟨16, 13, .ro, 0x0, []⟩]
  | .CUE_MARK_ST_LO => [⟨0, 32, .ro, 0x0, []⟩]
  | .CUE_MARK_ST_HI => [⟨0, 32, .ro, 0x0, []⟩]
  | .CUE_MARK_TAG => [⟨0, 32, .ro, 0x0, []⟩]
  | .CUE_GLOBAL => [⟨0, 13, .ro, 0x0, []⟩, ⟨16, 13, .ro, 0x0, []⟩]
  | .CUE_DEFER_COUNT => [⟨0, 32, .ro, 0x0, []⟩]
  | .CUE_LATE_COUNT => [⟨0, 32, .ro, 0x0, []⟩]
  | .CUE_VOID_COUNT => [⟨0, 32, .ro, 0x0, []⟩]
  | .CUE_LAST_FAIL => [⟨0, 12, .ro, 0x0, []⟩, ⟨16, 8, .ro, 0x0, []⟩, ⟨24, 8, .ro, 0x0, []⟩]
  | .CUE_CLR => [⟨0, 1, .w1s, 0x0, [.manager]⟩]
  | .FAB_STATUS => [⟨0, 12, .ro, 0xfff, []⟩, ⟨12, 1, .ro, 0x0, []⟩, ⟨13, 1, .ro, 0x0, []⟩, ⟨14, 1, .ro, 0x0, []⟩, ⟨16, 12, .ro, 0x0, []⟩]
  | .FAB_CTRL => [⟨0, 8, .rw, 0x0, [.manager, .inner]⟩]
  | .FAB_SLOT_DONE => [⟨0, 32, .w1c, 0x0, [.manager, .inner]⟩]
  | .FAB_PEER_RELEASE => [⟨0, 12, .wo, 0x0, [.manager]⟩, ⟨31, 1, .wo, 0x0, [.manager]⟩]
  | .FAB_PEER_COUNT => [⟨0, 9, .ro, 0x0, []⟩, ⟨16, 9, .ro, 0x0, []⟩]
  | .FAB_UNKNOWN_COUNT => [⟨0, 32, .ro, 0x0, []⟩]
  | .FAB_LATE_REPLY_COUNT => [⟨0, 32, .ro, 0x0, []⟩]
  | .FAB_PORT_STATUS => [⟨0, 4, .ro, 0x0, []⟩, ⟨4, 3, .ro, 0x0, []⟩, ⟨7, 1, .ro, 0x0, []⟩, ⟨8, 12, .ro, 0x0, []⟩, ⟨20, 1, .ro, 0x0, []⟩, ⟨21, 1, .ro, 0x0, []⟩]
  | .FAB_PORT_DELAY => [⟨0, 32, .ro, 0x0, []⟩]
  | .FAB_PORT_RETRY => [⟨0, 32, .ro, 0x0, []⟩]
  | .FAB_PORT_AUTH_FAIL => [⟨0, 32, .ro, 0x0, []⟩]
  | .FAB_PORT_DISCARD => [⟨0, 32, .ro, 0x0, []⟩]
  | .FAB_PORT_TXCTR_LO => [⟨0, 32, .ro, 0x0, []⟩]
  | .FAB_PORT_TXCTR_HI => [⟨0, 32, .ro, 0x0, []⟩]
  | .FAB_SLOT_CFG => [⟨0, 12, .rw, 0x0, [.manager, .inner]⟩, ⟨12, 1, .rw, 0x0, [.manager, .inner]⟩, ⟨13, 1, .rw, 0x0, [.manager, .inner]⟩, ⟨14, 1, .rw, 0x0, [.manager, .inner]⟩, ⟨16, 5, .rw, 0x0, [.manager, .inner]⟩, ⟨24, 8, .rw, 0x0, [.manager]⟩]
  | .FAB_SLOT_VOID => [⟨0, 20, .rw, 0x0, [.manager, .inner]⟩]
  | .FAB_SLOT_DATA => [⟨0, 32, .rw, 0x0, [.manager, .inner]⟩]
  | .FAB_SLOT_SEND => [⟨0, 1, .w1s, 0x0, [.manager, .inner]⟩]
  | .FAB_SLOT_STATUS => [⟨0, 3, .ro, 0x0, []⟩, ⟨4, 3, .ro, 0x0, []⟩, ⟨7, 1, .ro, 0x0, []⟩, ⟨8, 8, .ro, 0x0, []⟩, ⟨16, 4, .ro, 0x0, []⟩, ⟨20, 3, .ro, 0x0, []⟩]
  | .FAB_SLOT_RESULT_LO => [⟨0, 32, .ro, 0x0, []⟩]
  | .FAB_SLOT_RESULT_HI => [⟨0, 32, .ro, 0x0, []⟩]
  | .FAB_APP_RING_LO => [⟨12, 20, .rw, 0x0, [.manager]⟩]
  | .FAB_APP_RING_HI => [⟨0, 32, .rw, 0x0, [.manager]⟩]
  | .FAB_APP_RING_CFG => [⟨0, 4, .rw, 0x0, [.manager]⟩, ⟨4, 1, .rw, 0x0, [.manager]⟩, ⟨8, 8, .rw, 0x0, [.manager]⟩]
  | .FAB_APP_RING_HEAD => [⟨0, 12, .ro, 0x0, []⟩]
  | .FAB_APP_RING_TAIL => [⟨0, 12, .rw, 0x0, [.manager, .inner]⟩]
  | .ISL_STATUS => [⟨0, 1, .ro, 0x0, []⟩, ⟨1, 1, .ro, 0x0, []⟩, ⟨2, 1, .ro, 0x0, []⟩, ⟨3, 1, .ro, 0x0, []⟩, ⟨4, 1, .ro, 0x0, []⟩, ⟨8, 4, .ro, 0x0, []⟩]
  | .ISL_GLAZE_STATUS => [⟨0, 1, .ro, 0x0, []⟩, ⟨1, 2, .ro, 0x0, []⟩, ⟨3, 2, .ro, 0x0, []⟩, ⟨5, 2, .ro, 0x0, []⟩, ⟨7, 1, .ro, 0x0, []⟩, ⟨8, 1, .ro, 0x0, []⟩, ⟨9, 1, .ro, 0x0, []⟩, ⟨10, 1, .ro, 0x0, []⟩]
  | .ISL_PAIR_SWITCH_COUNT => [⟨0, 32, .ro, 0x0, []⟩]
  | .ISL_RENDER_SWITCH_COUNT => [⟨0, 32, .ro, 0x0, []⟩]
  | .ISL_LINE_MISMATCH_COUNT => [⟨0, 32, .ro, 0x0, []⟩]
  | .ISL_SRAM_CE_COUNT => [⟨0, 32, .ro, 0x0, []⟩]
  | .ISL_HB_FAIL_COUNT => [⟨0, 32, .ro, 0x0, []⟩]
  | .ISL_ID_KEY => [⟨0, 32, .ro, 0x0, []⟩]
  | .ISL_MBOX_TX => [⟨0, 32, .rw, 0x0, [.owner]⟩]
  | .ISL_MBOX_TX_CTRL => [⟨0, 1, .w1s, 0x0, [.owner]⟩]
  | .ISL_MBOX_STATUS => [⟨0, 1, .ro, 0x0, []⟩, ⟨1, 1, .ro, 0x0, []⟩]
  | .ISL_MBOX_RX => [⟨0, 32, .ro, 0x0, []⟩]
  | .ISL_MBOX_RX_POP => [⟨0, 1, .w1s, 0x0, [.owner]⟩]
  | .GFX_STATUS => [⟨0, 7, .ro, 0x0, []⟩, ⟨8, 6, .ro, 0x0, []⟩, ⟨16, 8, .ro, 0x1, []⟩]
  | .GFX_CTRL => [⟨0, 16, .rw, 0x64, [.manager]⟩]
  | .GFX_CLK => [⟨0, 11, .rw, 0x708, [.manager]⟩]
  | .GFX_CTX_ALLOC => [⟨0, 8, .wo, 0x0, [.manager]⟩, ⟨8, 4, .wo, 0x0, [.manager]⟩, ⟨31, 1, .w1s, 0x0, [.manager]⟩]
  | .GFX_CTX_ALLOC_STATUS => [⟨0, 6, .ro, 0x0, []⟩, ⟨8, 4, .ro, 0x0, []⟩]
  | .GFX_BIN_FREE => [⟨0, 15, .ro, 0x0, []⟩]
  | .GFX_PARTIAL_COUNT => [⟨0, 32, .ro, 0x0, []⟩]
  | .CTX_CFG => [⟨0, 8, .ro, 0x0, []⟩, ⟨8, 4, .ro, 0x0, []⟩, ⟨12, 4, .rw, 0x0, [.manager]⟩, ⟨16, 6, .rw, 0x0, [.manager]⟩]
  | .CTX_SLICE => [⟨0, 17, .rw, 0x3e8, [.manager]⟩]
  | .CTX_RING_LO => [⟨0, 32, .rw, 0x0, [.manager]⟩]
  | .CTX_RING_HI => [⟨0, 32, .rw, 0x0, [.manager]⟩]
  | .CTX_RING_SIZE => [⟨0, 5, .rw, 0xa, [.manager]⟩]
  | .CTX_HEAD => [⟨0, 22, .ro, 0x0, []⟩]
  | .CTX_TAIL => [⟨0, 22, .ro, 0x0, []⟩]
  | .CTX_SAVE_LO => [⟨0, 32, .rw, 0x0, [.manager]⟩]
  | .CTX_SAVE_HI => [⟨0, 32, .rw, 0x0, [.manager]⟩]
  | .CTX_STATE => [⟨0, 3, .ro, 0x0, []⟩, ⟨8, 8, .ro, 0x0, []⟩, ⟨16, 1, .ro, 0x0, []⟩, ⟨17, 1, .ro, 0x0, []⟩]
  | .CTX_CTRL => [⟨0, 1, .w1s, 0x0, [.manager]⟩, ⟨1, 1, .w1s, 0x0, [.manager]⟩, ⟨2, 1, .w1s, 0x0, [.manager]⟩]
  | .CTX_FAULT_ADDR_LO => [⟨0, 32, .ro, 0x0, []⟩]
  | .CTX_FAULT_ADDR_HI => [⟨0, 32, .ro, 0x0, []⟩]
  | .CTX_FAULT_OFFSET => [⟨0, 32, .ro, 0x0, []⟩]
  | .CMP_STATUS => [⟨0, 8, .ro, 0x0, []⟩]
  | .CMP_SHED_LO => [⟨0, 32, .ro, 0x0, []⟩]
  | .CMP_SHED_HI => [⟨0, 32, .ro, 0x0, []⟩]
  | .CMP_OUT_CTRL => [⟨0, 2, .rw, 0x0, [.manager]⟩]
  | .CMP_OUT_BG => [⟨0, 10, .rw, 0x0, [.manager]⟩, ⟨10, 10, .rw, 0x0, [.manager]⟩, ⟨20, 10, .rw, 0x0, [.manager]⟩]
  | .CMP_OUT_FS_LO => [⟨0, 32, .ro, 0x0, []⟩]
  | .CMP_OUT_FS_HI => [⟨0, 32, .ro, 0x0, []⟩]
  | .LAYER_ID => [⟨0, 6, .ro, 0x0, []⟩, ⟨6, 3, .ro, 0x0, []⟩, ⟨9, 3, .ro, 0x0, []⟩, ⟨12, 1, .ro, 0x0, []⟩, ⟨13, 1, .ro, 0x0, []⟩, ⟨14, 1, .ro, 0x0, []⟩, ⟨31, 1, .ro, 0x0, []⟩]
  | .LAYER_CTRL => [⟨0, 1, .rw, 0x0, [.owner]⟩, ⟨1, 1, .rw, 0x0, [.owner]⟩, ⟨2, 1, .rw, 0x0, [.owner]⟩, ⟨3, 1, .rw, 0x0, [.owner]⟩, ⟨4, 1, .rw, 0x0, [.owner]⟩, ⟨8, 8, .rw, 0xff, [.owner]⟩, ⟨16, 8, .rw, 0xff, [.owner]⟩]
  | .LAYER_FMT => [⟨0, 8, .rw, 0x5, [.owner]⟩, ⟨8, 2, .rw, 0x0, [.owner]⟩, ⟨10, 1, .rw, 0x0, [.owner]⟩, ⟨11, 1, .rw, 0x0, [.owner]⟩, ⟨12, 1, .rw, 0x0, [.owner]⟩]
  | .LAYER_SRC_SIZE => [⟨0, 16, .rw, 0x0, [.owner]⟩, ⟨16, 16, .rw, 0x0, [.owner]⟩]
  | .LAYER_CROP => [⟨0, 16, .rw, 0x0, [.owner]⟩, ⟨16, 16, .rw, 0x0, [.owner]⟩]
  | .LAYER_DST_POS => [⟨0, 16, .rw, 0x0, [.owner]⟩, ⟨16, 16, .rw, 0x0, [.owner]⟩]
  | .LAYER_DST_SIZE => [⟨0, 16, .rw, 0x0, [.owner]⟩, ⟨16, 16, .rw, 0x0, [.owner]⟩]
  | .LAYER_PITCH => [⟨0, 20, .rw, 0x0, [.owner]⟩]
  | .LAYER_PLANE_OFF => [⟨0, 32, .rw, 0x0, [.owner]⟩]
  | .LAYER_META_OFF => [⟨0, 32, .rw, 0x0, [.owner]⟩]
  | .LAYER_OPQ_POS => [⟨0, 16, .rw, 0x0, [.owner]⟩, ⟨16, 16, .rw, 0x0, [.owner]⟩]
  | .LAYER_OPQ_SIZE => [⟨0, 16, .rw, 0x0, [.owner]⟩, ⟨16, 16, .rw, 0x0, [.owner]⟩]
  | .WARP_K => [⟨0, 32, .rw, 0x0, [.owner]⟩]
  | .LAYER_COMMIT => [⟨0, 1, .w1s, 0x0, [.owner]⟩, ⟨1, 1, .ro, 0x0, []⟩, ⟨2, 1, .ro, 0x0, []⟩]
  | .SUB_ADDR_LO => [⟨0, 32, .rw, 0x0, [.owner]⟩]
  | .SUB_ADDR_HI => [⟨0, 32, .rw, 0x0, [.owner]⟩]
  | .SUB_NB_LO => [⟨0, 32, .rw, 0x0, [.owner]⟩]
  | .SUB_NB_HI => [⟨0, 32, .rw, 0x0, [.owner]⟩]
  | .SUB_DA_LO => [⟨0, 32, .rw, 0x0, [.owner]⟩]
  | .SUB_DA_HI => [⟨0, 32, .rw, 0x0, [.owner]⟩]
  | .SUB_REF_LO => [⟨0, 32, .rw, 0x0, [.owner]⟩]
  | .SUB_REF_HI => [⟨0, 32, .rw, 0x0, [.owner]⟩]
  | .SUB_CTRL => [⟨0, 16, .wo, 0x0, [.owner]⟩, ⟨16, 1, .wo, 0x0, [.owner]⟩, ⟨17, 1, .wo, 0x0, [.owner]⟩, ⟨18, 1, .w1s, 0x0, [.owner]⟩, ⟨31, 1, .w1s, 0x0, [.owner]⟩]
  | .SUB_STATUS => [⟨0, 4, .ro, 0x0, []⟩, ⟨4, 4, .ro, 0x0, []⟩, ⟨8, 5, .ro, 0x0, []⟩, ⟨16, 1, .w1c, 0x0, [.owner]⟩]
  | .LAYER_STATUS => [⟨0, 16, .ro, 0x0, []⟩, ⟨16, 1, .ro, 0x0, []⟩, ⟨17, 1, .ro, 0x0, []⟩, ⟨18, 1, .ro, 0x0, []⟩, ⟨19, 1, .ro, 0x0, []⟩]
  | .REL_INFO => [⟨0, 16, .ro, 0x0, []⟩, ⟨16, 3, .ro, 0x0, []⟩, ⟨31, 1, .ro, 0x0, []⟩]
  | .REL_ST_LO => [⟨0, 32, .ro, 0x0, []⟩]
  | .REL_ST_HI => [⟨0, 32, .ro, 0x0, []⟩]
  | .REL_POP => [⟨0, 1, .w1s, 0x0, [.owner]⟩]
  | .CNT_SKIPPED => [⟨0, 32, .ro, 0x0, []⟩]
  | .CNT_LATE => [⟨0, 32, .ro, 0x0, []⟩]
  | .CNT_REFUSED => [⟨0, 32, .ro, 0x0, []⟩]
  | .CNT_CLAMP => [⟨0, 32, .ro, 0x0, []⟩]
  | .OUT_STATUS => [⟨0, 3, .ro, 0x0, []⟩, ⟨4, 3, .ro, 0x0, []⟩, ⟨7, 1, .ro, 0x0, []⟩, ⟨8, 1, .ro, 0x0, []⟩, ⟨9, 1, .ro, 0x0, []⟩, ⟨10, 1, .ro, 0x0, []⟩, ⟨11, 1, .w1c, 0x0, [.manager]⟩, ⟨12, 1, .w1c, 0x0, [.manager]⟩, ⟨13, 3, .ro, 0x0, []⟩]
  | .OUT_CTRL => [⟨0, 1, .rw, 0x0, [.manager]⟩, ⟨1, 1, .w1s, 0x0, [.manager]⟩, ⟨2, 1, .w1s, 0x0, [.manager]⟩, ⟨3, 1, .rw, 0x0, [.manager]⟩, ⟨4, 1, .rw, 0x0, [.manager]⟩]
  | .OUT_TIMING_H0 => [⟨0, 16, .rw, 0x0, [.manager]⟩, ⟨16, 16, .rw, 0x0, [.manager]⟩]
  | .OUT_TIMING_H1 => [⟨0, 16, .rw, 0x0, [.manager]⟩, ⟨16, 16, .rw, 0x0, [.manager]⟩]
  | .OUT_TIMING_V0 => [⟨0, 16, .rw, 0x0, [.manager]⟩, ⟨16, 16, .rw, 0x0, [.manager]⟩]
  | .OUT_TIMING_V1 => [⟨0, 16, .rw, 0x0, [.manager]⟩, ⟨16, 16, .rw, 0x0, [.manager]⟩]
  | .OUT_PCLK => [⟨0, 22, .rw, 0x0, [.manager]⟩]
  | .OUT_LOCK_ERR => [⟨0, 32, .ro, 0x0, []⟩]
  | .OUT_FRAME_INDEX => [⟨0, 32, .ro, 0x0, []⟩]
  | .OUT_UNDERRUN_COUNT => [⟨0, 32, .ro, 0x0, []⟩]
  | .OUT_UNDERRUN_LINE => [⟨0, 16, .ro, 0x0, []⟩]
  | .OUT_LINK_INFO => [⟨0, 12, .ro, 0x0, []⟩, ⟨12, 3, .ro, 0x0, []⟩, ⟨15, 1, .ro, 0x0, []⟩, ⟨16, 5, .ro, 0x0, []⟩]
  | .OUT_FRZ_CTRL => [⟨0, 1, .rw, 0x0, [.manager]⟩, ⟨8, 8, .rw, 0x0, [.manager]⟩]
  | .OUT_FRZ_COUNT => [⟨0, 8, .ro, 0x0, []⟩]
  | .OUT_FRZ_CLR => [⟨0, 1, .w1s, 0x0, [.manager]⟩]
  | .OUT_SUB_BG => [⟨0, 30, .ro, 0x0, []⟩]
  | .OUT_FRZ_WIN_POS => [⟨0, 16, .rw, 0x0, [.manager]⟩, ⟨16, 16, .rw, 0x0, [.manager]⟩]
  | .OUT_FRZ_WIN_SIZE => [⟨0, 16, .rw, 0x0, [.manager]⟩, ⟨16, 16, .rw, 0x0, [.manager]⟩]
  | .OUT_FRZ_SIG => [⟨0, 32, .ro, 0x0, []⟩]
  | .MEM_STATUS => [⟨0, 2, .ro, 0x0, []⟩, ⟨2, 1, .ro, 0x0, []⟩, ⟨3, 1, .ro, 0x0, []⟩, ⟨4, 1, .ro, 0x0, []⟩, ⟨8, 8, .ro, 0x0, []⟩, ⟨16, 2, .ro, 0x0, []⟩, ⟨18, 1, .ro, 0x0, []⟩]
  | .MEM_CAPACITY => [⟨0, 18, .ro, 0x0, []⟩, ⟨24, 8, .ro, 0x0, []⟩]
  | .MEM_CHAN_ACTIVE => [⟨0, 32, .ro, 0x0, []⟩]
  | .MEM_CHAN_DOWN => [⟨0, 32, .ro, 0x0, []⟩]
  | .MEM_PAGE_CTRL => [⟨0, 8, .rw, 0x14, [.manager, .inner]⟩]
  | .MEM_RETRAIN_CTRL => [⟨0, 10, .rw, 0x64, [.manager, .inner]⟩]
  | .MEM_ERR_ADDR_LO => [⟨0, 32, .ro, 0x0, []⟩]
  | .MEM_ERR_ADDR_HI => [⟨0, 32, .ro, 0x0, []⟩]
  | .MEM_ERR_INFO => [⟨0, 5, .ro, 0x0, []⟩, ⟨8, 8, .ro, 0x0, []⟩, ⟨16, 3, .ro, 0x0, []⟩, ⟨31, 1, .w1c, 0x0, [.manager, .inner]⟩]
  | .MEM_CE_COUNT => [⟨0, 32, .ro, 0x0, []⟩]
  | .MEM_UE_COUNT => [⟨0, 32, .ro, 0x0, []⟩]
  | .MEM_LINK_ECC => [⟨0, 32, .ro, 0x0, []⟩]
  | .MEM_CEILING_NOW => [⟨0, 32, .ro, 0x0, []⟩]
  | .MEM_RESERVED_NOW => [⟨0, 32, .ro, 0x0, []⟩]
  | .MEM_PORT_QOS => [⟨0, 16, .rw, 0x0, [.manager, .inner]⟩, ⟨16, 4, .rw, 0x1, [.manager, .inner]⟩]
  | .MEM_PORT_STATUS => [⟨0, 8, .ro, 0x0, []⟩, ⟨8, 8, .ro, 0x0, []⟩, ⟨16, 2, .ro, 0x0, []⟩]
  | .MEM_PORT_RESERVE => [⟨0, 32, .ro, 0x0, []⟩]
  | .MEM_PORT_LATE => [⟨0, 32, .ro, 0x0, []⟩]
  | .CPX_STATUS => [⟨0, 8, .ro, 0x0, []⟩, ⟨8, 8, .ro, 0x0, []⟩, ⟨16, 8, .ro, 0x0, []⟩]
  | .CPX_DBG_EN => [⟨0, 1, .w1c, 0x0, [.inner]⟩, ⟨1, 1, .w1c, 0x0, [.inner]⟩, ⟨2, 1, .w1c, 0x0, [.inner]⟩, ⟨3, 1, .w1c, 0x0, [.inner]⟩]
  | .CPX_FENCE_VIOL_ADDR_LO => [⟨0, 32, .ro, 0x0, []⟩]
  | .CPX_FENCE_VIOL_ADDR_HI => [⟨0, 32, .ro, 0x0, []⟩]
  | .CPX_FENCE_VIOL_INFO => [⟨0, 5, .ro, 0x0, []⟩, ⟨8, 8, .ro, 0x0, []⟩, ⟨16, 1, .ro, 0x0, []⟩, ⟨17, 1, .ro, 0x0, []⟩, ⟨31, 1, .w1c, 0x0, [.inner]⟩]
  | .CPX_FENCE_REGION_BASE => [⟨0, 32, .ro, 0x0, []⟩]
  | .CPX_FENCE_REGION_SIZE => [⟨0, 32, .ro, 0x0, []⟩]
  | .VIR_STATUS => [⟨0, 7, .ro, 0x0, []⟩, ⟨8, 8, .ro, 0x0, []⟩]
  | .VIR_POOL_FREE_0 => [⟨0, 13, .ro, 0x0, []⟩, ⟨16, 9, .ro, 0x0, []⟩]
  | .VIR_POOL_FREE_1 => [⟨0, 7, .ro, 0x0, []⟩]
  | .VIR_MB_PENDING => [⟨0, 32, .ro, 0x0, []⟩]
  | .VIR_PORT_CFG => [⟨0, 6, .rw, 0x0, [.manager]⟩, ⟨8, 6, .rw, 0x0, [.manager]⟩, ⟨16, 6, .rw, 0x18, [.manager]⟩, ⟨30, 1, .ro, 0x0, []⟩, ⟨31, 1, .ro, 0x0, []⟩]
  | .VIR_CREATE_SHAPE => [⟨0, 5, .rw, 0x0, [.manager]⟩, ⟨5, 6, .rw, 0x0, [.manager]⟩, ⟨11, 7, .rw, 0x0, [.manager]⟩]
  | .VIR_CREATE_QUOTA => [⟨0, 13, .rw, 0x0, [.manager]⟩, ⟨16, 8, .rw, 0x0, [.manager]⟩, ⟨24, 8, .rw, 0x0, [.manager]⟩]
  | .VIR_CREATE_LAYERS_LO => [⟨0, 32, .rw, 0x0, [.manager]⟩]
  | .VIR_CREATE_LAYERS_HI => [⟨0, 16, .rw, 0x0, [.manager]⟩]
  | .VIR_CREATE_DRAM_BASE => [⟨0, 18, .rw, 0x0, [.manager]⟩]
  | .VIR_CREATE_DRAM_SIZE => [⟨0, 18, .rw, 0x0, [.manager]⟩]
  | .VIR_CREATE_CTRL => [⟨0, 6, .rw, 0x0, [.manager]⟩, ⟨31, 1, .w1s, 0x0, [.manager]⟩]
  | .VIR_CREATE_STATUS => [⟨0, 4, .ro, 0x0, []⟩, ⟨4, 1, .ro, 0x0, []⟩]
  | .VIR_MB_RX => [⟨0, 32, .ro, 0x0, []⟩]
  | .VIR_MB_RX_POP => [⟨0, 1, .w1s, 0x0, [.manager]⟩]
  | .VIR_MB_STATUS => [⟨0, 1, .ro, 0x0, []⟩, ⟨1, 1, .ro, 0x0, []⟩]
  | .VIR_MB_TX => [⟨0, 32, .rw, 0x0, [.manager]⟩]
  | .VIR_MB_TX_GO => [⟨0, 1, .w1s, 0x0, [.manager]⟩]
  | .VIR_INST_STATE => [⟨0, 3, .ro, 0x0, []⟩, ⟨3, 1, .ro, 0x0, []⟩, ⟨4, 4, .ro, 0x0, []⟩, ⟨8, 2, .ro, 0x0, []⟩]
  | .VIR_INST_CTRL => [⟨0, 1, .w1s, 0x0, [.manager]⟩, ⟨1, 1, .w1s, 0x0, [.manager]⟩, ⟨2, 1, .w1s, 0x0, [.manager]⟩, ⟨3, 1, .w1s, 0x0, [.manager]⟩, ⟨4, 1, .w1s, 0x0, [.manager]⟩]
  | .VIR_INST_BUF_LO => [⟨6, 26, .rw, 0x0, [.manager]⟩]
  | .VIR_INST_BUF_HI => [⟨0, 32, .rw, 0x0, [.manager]⟩]
  | .VIR_INST_BUF_LEN => [⟨0, 24, .rw, 0x0, [.manager]⟩]
  | .VIR_INST_SAVE_SIZE => [⟨0, 24, .ro, 0x0, []⟩]
  | .VIR_INST_RESTORE_INFO => [⟨0, 13, .ro, 0x0, []⟩, ⟨16, 8, .ro, 0x0, []⟩]
  | .DOORBELL => [⟨0, 22, .wo, 0x0, [.guest]⟩]
  | .QCOMP_LO => [⟨0, 32, .ro, 0x0, []⟩]
  | .QCOMP_HI => [⟨0, 32, .ro, 0x0, []⟩]
  | .INST_STATUS => [⟨0, 3, .ro, 0x0, []⟩, ⟨3, 1, .ro, 0x0, []⟩, ⟨4, 1, .ro, 0x0, []⟩, ⟨8, 8, .ro, 0x0, []⟩, ⟨16, 6, .ro, 0x0, []⟩]
  | .TT_ROOT_LO => [⟨0, 1, .rw, 0x0, [.guest]⟩, ⟨12, 20, .rw, 0x0, [.guest]⟩]
  | .TT_ROOT_HI => [⟨0, 4, .rw, 0x0, [.guest]⟩]
  | .INV_ADDR_LO => [⟨12, 20, .rw, 0x0, [.guest]⟩]
  | .INV_ADDR_HI => [⟨0, 16, .rw, 0x0, [.guest]⟩]
  | .INV_PAGES => [⟨0, 20, .rw, 0x0, [.guest]⟩]
  | .INV_CTRL => [⟨0, 1, .w1s, 0x0, [.guest]⟩]
  | .INV_STATUS => [⟨0, 1, .ro, 0x0, []⟩]
  | .TFAULT_ADDR_LO => [⟨0, 32, .ro, 0x0, []⟩]
  | .TFAULT_ADDR_HI => [⟨0, 16, .ro, 0x0, []⟩]
  | .TFAULT_INFO => [⟨0, 2, .ro, 0x0, []⟩, ⟨2, 1, .ro, 0x0, []⟩, ⟨3, 3, .ro, 0x0, []⟩, ⟨31, 1, .w1c, 0x0, [.guest]⟩]
  | .TFAULT_VEC => [⟨0, 8, .rw, 0xff, [.guest]⟩]
  | .INST_MB_TX => [⟨0, 32, .rw, 0x0, [.guest]⟩]
  | .INST_MB_TX_CTRL => [⟨0, 1, .w1s, 0x0, [.guest]⟩]
  | .INST_MB_TX_STATUS => [⟨0, 1, .ro, 0x0, []⟩]
  | .INST_MB_RX => [⟨0, 32, .ro, 0x0, []⟩]
  | .INST_MB_RX_POP => [⟨0, 1, .w1s, 0x0, [.guest]⟩]
  | .INST_MB_RX_STATUS => [⟨0, 1, .ro, 0x0, []⟩]
  | .MBOX_RX_VEC => [⟨0, 8, .rw, 0xff, [.guest]⟩]
  | .INST_MSIX_ADDR_LO => [⟨0, 32, .rw, 0x0, [.guest]⟩]
  | .INST_MSIX_ADDR_HI => [⟨0, 32, .rw, 0x0, [.guest]⟩]
  | .INST_MSIX_DATA => [⟨0, 32, .rw, 0x0, [.guest]⟩]
  | .INST_MSIX_CTRL => [⟨0, 1, .rw, 0x1, [.guest]⟩]
  | .INST_PBA => [⟨0, 32, .ro, 0x0, []⟩]
  | .CH_BASE_LO => [⟨0, 4, .rw, 0x0, [.owner]⟩, ⟨6, 26, .rw, 0x0, [.owner]⟩]
  | .CH_BASE_HI => [⟨0, 16, .rw, 0x0, [.owner]⟩]
  | .CH_CQ_LO => [⟨0, 4, .rw, 0x0, [.owner]⟩, ⟨12, 20, .rw, 0x0, [.owner]⟩]
  | .CH_CQ_HI => [⟨0, 16, .rw, 0x0, [.owner]⟩]
  | .CH_CQ_HEAD => [⟨0, 12, .rw, 0x0, [.owner]⟩, ⟨16, 12, .ro, 0x0, []⟩, ⟨31, 1, .ro, 0x1, []⟩]
  | .CH_STATUS => [⟨0, 3, .ro, 0x0, []⟩, ⟨3, 1, .w1c, 0x0, [.owner]⟩, ⟨4, 1, .w1c, 0x0, [.owner]⟩, ⟨8, 4, .ro, 0x0, []⟩, ⟨16, 12, .ro, 0x0, []⟩]
  | .CH_VEC => [⟨0, 8, .rw, 0xff, [.owner]⟩]
  | .CH_START => [⟨0, 1, .w1s, 0x0, [.owner]⟩]
  | .CH_CFG => [⟨0, 2, .rw, 0x0, [.manager]⟩, ⟨2, 1, .rw, 0x0, [.manager]⟩, ⟨8, 8, .rw, 0x0, [.manager]⟩]
  | .CH_TRIG => [⟨0, 3, .rw, 0x0, [.manager]⟩, ⟨8, 9, .rw, 0x0, [.manager]⟩, ⟨17, 1, .rw, 0x0, [.manager]⟩]
  | .CH_CTRL => [⟨0, 1, .w1s, 0x0, [.manager]⟩, ⟨1, 1, .w1s, 0x0, [.manager]⟩]
  | .CH_CUR_LO => [⟨0, 32, .ro, 0x0, []⟩]
  | .CH_CUR_HI => [⟨0, 16, .ro, 0x0, []⟩]
  | .CH_DONE_BYTES => [⟨0, 32, .ro, 0x0, []⟩]
  | .CH_MISSED_COUNT => [⟨0, 32, .ro, 0x0, []⟩]
  | .CH_OWNER => [⟨0, 8, .ro, 0x0, []⟩]
  | .TIMER_PERIOD => [⟨0, 32, .rw, 0x0, [.manager]⟩]
  | .TIMER_PHASE_LO => [⟨0, 32, .rw, 0x0, [.manager]⟩]
  | .TIMER_PHASE_HI => [⟨0, 32, .rw, 0x0, [.manager]⟩]
  | .ENG_STATUS => [⟨0, 4, .ro, 0x0, []⟩, ⟨4, 1, .ro, 0x0, []⟩]
  | .CRC_CFG => [⟨0, 6, .rw, 0x0, [.manager]⟩, ⟨6, 1, .rw, 0x0, [.manager]⟩, ⟨7, 1, .rw, 0x0, [.manager]⟩]
  | .CRC_POLY => [⟨0, 32, .rw, 0x0, [.manager]⟩]
  | .CRC_INIT => [⟨0, 32, .rw, 0x0, [.manager]⟩]
  | .CRC_XOR => [⟨0, 32, .rw, 0x0, [.manager]⟩]
  | .CRC_DATA => [⟨0, 32, .wo, 0x0, [.manager]⟩]
  | .CRC_DATA_B => [⟨0, 8, .wo, 0x0, [.manager]⟩]
  | .CRC_RESULT_LO => [⟨0, 32, .ro, 0x0, []⟩]
  | .CRC_RESULT_HI => [⟨0, 32, .ro, 0x0, []⟩]
  | .CRC_EXPECT => [⟨0, 32, .rw, 0x0, [.manager]⟩]
  | .CRC_CTRL => [⟨0, 1, .w1s, 0x0, [.manager]⟩, ⟨1, 1, .w1s, 0x0, [.manager]⟩]
  | .CRC_STATUS => [⟨0, 1, .ro, 0x0, []⟩, ⟨1, 1, .ro, 0x0, []⟩, ⟨2, 1, .w1c, 0x0, [.manager]⟩]
  | .TCH_STATUS => [⟨0, 4, .ro, 0x0, []⟩, ⟨4, 4, .ro, 0x0, []⟩, ⟨8, 4, .ro, 0x0, []⟩]
  | .TCH_CTRL => [⟨0, 1, .rw, 0x0, [.manager]⟩, ⟨1, 1, .w1s, 0x0, [.manager]⟩]
  | .TCH_THRESH => [⟨0, 16, .rw, 0x0, [.manager]⟩, ⟨16, 16, .rw, 0x0, [.manager]⟩]
  | .TCH_THRESH2 => [⟨0, 16, .rw, 0x0, [.manager]⟩, ⟨16, 16, .rw, 0x0, [.manager]⟩]
  | .TCH_CSTATUS => [⟨0, 3, .ro, 0x0, []⟩, ⟨3, 1, .ro, 0x0, []⟩, ⟨4, 1, .ro, 0x0, []⟩, ⟨5, 1, .ro, 0x0, []⟩, ⟨6, 1, .ro, 0x0, []⟩, ⟨8, 8, .ro, 0x0, []⟩]
  | .TCH_FRAME_ST_LO => [⟨0, 32, .ro, 0x0, []⟩]
  | .TCH_FRAME_ST_HI => [⟨0, 32, .ro, 0x0, []⟩]
  | .TCH_REPORT_HDR => [⟨0, 5, .ro, 0x0, []⟩, ⟨8, 8, .ro, 0x0, []⟩, ⟨16, 16, .ro, 0x0, []⟩]
  | .TCH_REGION => [⟨0, 32, .ro, 0x0, []⟩]
  | .TCH_DEGRADED => [⟨0, 32, .ro, 0x0, []⟩]
  | .TCH_RERUN_COUNT => [⟨0, 32, .ro, 0x0, []⟩]
  | .TCH_STALE_COUNT => [⟨0, 32, .ro, 0x0, []⟩]
  | .TCH_CONTACT_A => [⟨0, 6, .ro, 0x0, []⟩, ⟨6, 1, .ro, 0x0, []⟩, ⟨7, 1, .ro, 0x0, []⟩, ⟨8, 1, .ro, 0x0, []⟩, ⟨16, 16, .ro, 0x0, []⟩]
  | .TCH_CONTACT_B => [⟨0, 16, .ro, 0x0, []⟩, ⟨16, 16, .ro, 0x0, []⟩]
  | .TCH_NOISE => [⟨0, 16, .ro, 0x0, []⟩]
  | .HAP_STATUS => [⟨0, 16, .ro, 0x0, []⟩, ⟨16, 16, .ro, 0x0, []⟩]
  | .HAP_CH_STATUS => [⟨0, 3, .ro, 0x0, []⟩, ⟨3, 1, .w1c, 0x0, [.manager]⟩, ⟨4, 1, .w1c, 0x0, [.manager]⟩, ⟨5, 1, .w1c, 0x0, [.manager]⟩, ⟨8, 5, .ro, 0x0, []⟩]
  | .HAP_CH_FIRE => [⟨0, 8, .wo, 0x0, [.manager]⟩, ⟨8, 8, .wo, 0x0, [.manager]⟩, ⟨31, 1, .w1s, 0x0, [.manager]⟩]
  | .HAP_CH_CTRL => [⟨0, 1, .w1s, 0x0, [.manager]⟩, ⟨1, 1, .w1s, 0x0, [.manager]⟩]
  | .HAP_CH_PEAK_I => [⟨0, 16, .ro, 0x0, []⟩]
  | .HAP_CH_FIRE_COUNT => [⟨0, 32, .ro, 0x0, []⟩]
  | .HAP_CH_DROP_COUNT => [⟨0, 32, .ro, 0x0, []⟩]
  | .DMX_CFG => [⟨0, 2, .ro, 0x0, []⟩, ⟨8, 8, .rw, 0x0, [.manager]⟩, ⟨16, 10, .rw, 0x0, [.manager]⟩]
  | .DMX_TIMING => [⟨0, 10, .rw, 0x0, [.manager]⟩, ⟨16, 10, .rw, 0x0, [.manager]⟩]
  | .DMX_TIMING2 => [⟨0, 7, .rw, 0x0, [.manager]⟩, ⟨16, 10, .rw, 0x0, [.manager]⟩]
  | .DMX_BUF_LO => [⟨6, 26, .rw, 0x0, [.manager]⟩]
  | .DMX_BUF_HI => [⟨0, 16, .rw, 0x0, [.manager]⟩]
  | .DMX_CTRL => [⟨0, 1, .w1s, 0x0, [.manager]⟩, ⟨1, 1, .w1s, 0x0, [.manager]⟩, ⟨2, 1, .wo, 0x0, [.manager]⟩]
  | .DMX_STATUS => [⟨0, 2, .ro, 0x0, []⟩, ⟨2, 1, .w1c, 0x0, [.manager]⟩, ⟨3, 1, .ro, 0x0, []⟩, ⟨4, 3, .ro, 0x0, []⟩]
  | .DMX_RX_INFO => [⟨0, 10, .ro, 0x0, []⟩, ⟨10, 1, .ro, 0x0, []⟩, ⟨16, 8, .ro, 0x0, []⟩, ⟨31, 1, .ro, 0x0, []⟩]
  | .DMX_RX_ST_LO => [⟨0, 32, .ro, 0x0, []⟩]
  | .DMX_RX_ST_HI => [⟨0, 32, .ro, 0x0, []⟩]
  | .DMX_RDM_ADDR_LO => [⟨6, 26, .rw, 0x0, [.manager]⟩]
  | .DMX_RDM_ADDR_HI => [⟨0, 16, .rw, 0x0, [.manager]⟩]
  | .DMX_RDM_LEN => [⟨0, 8, .rw, 0x0, [.manager]⟩, ⟨16, 9, .rw, 0x34, [.manager]⟩]
  | .DMX_GRID_PERIOD => [⟨0, 32, .rw, 0x0, [.manager]⟩]
  | .DMX_GRID_PHASE_LO => [⟨0, 32, .rw, 0x0, [.manager]⟩]
  | .DMX_GRID_PHASE_HI => [⟨0, 32, .rw, 0x0, [.manager]⟩]
  | .DMX_RDM_UID_LO => [⟨0, 32, .ro, 0x0, []⟩]
  | .DMX_RDM_UID_HI => [⟨0, 16, .ro, 0x0, []⟩]
  | .DMX_LATE_FETCH_COUNT => [⟨0, 32, .ro, 0x0, []⟩]
  | .DMX_RX_ERR_COUNT => [⟨0, 32, .ro, 0x0, []⟩]
  | .DMX_REFUSED_COUNT => [⟨0, 32, .ro, 0x0, []⟩]
  | .MIDI_TX => [⟨0, 8, .wo, 0x0, [.manager]⟩]
  | .MIDI_RX => [⟨0, 8, .ro, 0x0, []⟩, ⟨8, 1, .ro, 0x0, []⟩, ⟨9, 1, .ro, 0x0, []⟩, ⟨31, 1, .ro, 0x0, []⟩]
  | .MIDI_RX_ST_LO => [⟨0, 32, .ro, 0x0, []⟩]
  | .MIDI_RX_ST_HI => [⟨0, 32, .ro, 0x0, []⟩]
  | .MIDI_STATUS => [⟨0, 9, .ro, 0x0, []⟩, ⟨16, 9, .ro, 0x0, []⟩, ⟨30, 1, .w1c, 0x0, [.manager]⟩, ⟨31, 1, .w1c, 0x0, [.manager]⟩]
  | .LTC_IN_TC => [⟨0, 6, .ro, 0x0, []⟩, ⟨6, 1, .ro, 0x0, []⟩, ⟨8, 7, .ro, 0x0, []⟩, ⟨16, 7, .ro, 0x0, []⟩, ⟨24, 6, .ro, 0x0, []⟩]
  | .LTC_IN_ST_LO => [⟨0, 32, .ro, 0x0, []⟩]
  | .LTC_IN_ST_HI => [⟨0, 32, .ro, 0x0, []⟩]
  | .LTC_IN_USER => [⟨0, 32, .ro, 0x0, []⟩]
  | .LTC_IN_STATUS => [⟨0, 1, .ro, 0x0, []⟩, ⟨1, 1, .ro, 0x0, []⟩, ⟨2, 1, .ro, 0x0, []⟩, ⟨8, 8, .ro, 0x0, []⟩]
  | .LTC_OUT_CTRL => [⟨0, 1, .rw, 0x0, [.manager]⟩]
  | .LTC_OUT_ANCHOR_LO => [⟨0, 32, .rw, 0x0, [.manager]⟩]
  | .LTC_OUT_ANCHOR_HI => [⟨0, 32, .rw, 0x0, [.manager]⟩]
  | .LTC_OUT_START => [⟨0, 6, .rw, 0x0, [.manager]⟩, ⟨6, 1, .rw, 0x0, [.manager]⟩, ⟨8, 7, .rw, 0x0, [.manager]⟩, ⟨16, 7, .rw, 0x0, [.manager]⟩, ⟨24, 6, .rw, 0x0, [.manager]⟩]
  | .LTC_OUT_USER => [⟨0, 32, .rw, 0x0, [.manager]⟩]
  | .LTC_OUT_TC => [⟨0, 6, .ro, 0x0, []⟩, ⟨6, 1, .ro, 0x0, []⟩, ⟨8, 7, .ro, 0x0, []⟩, ⟨16, 7, .ro, 0x0, []⟩, ⟨24, 6, .ro, 0x0, []⟩]
  | .FADER_VAL => [⟨0, 12, .ro, 0x0, []⟩, ⟨12, 1, .ro, 0x0, []⟩]
  | .FADER_INVALID => [⟨0, 32, .ro, 0x0, []⟩]
  | .FADER_MOVED => [⟨0, 32, .w1c, 0x0, [.manager]⟩]
  | .ENC_COUNT => [⟨0, 32, .ro, 0x0, []⟩]
  | .ENC_ST_LO => [⟨0, 32, .ro, 0x0, []⟩]
  | .ENC_ST_HI => [⟨0, 32, .ro, 0x0, []⟩]
  | .ENC_ERR_COUNT => [⟨0, 32, .ro, 0x0, []⟩]
  | .SSI_RAW => [⟨0, 32, .ro, 0x0, []⟩]
  | .SSI_STATUS => [⟨0, 1, .ro, 0x0, []⟩, ⟨8, 8, .ro, 0x0, []⟩, ⟨16, 8, .ro, 0x0, []⟩, ⟨24, 8, .ro, 0x0, []⟩]
  | .BUS_CFG => [⟨0, 7, .rw, 0x0, [.manager]⟩, ⟨8, 8, .rw, 0x0, [.manager]⟩, ⟨16, 8, .rw, 0x0, [.manager]⟩]
  | .BUS_DATA => [⟨0, 32, .rw, 0x0, [.manager]⟩]
  | .BUS_CTRL => [⟨0, 1, .w1s, 0x0, [.manager]⟩]
  | .BUS_STATUS => [⟨0, 1, .ro, 0x0, []⟩, ⟨1, 3, .ro, 0x0, []⟩]
  | .GPIO_IN => [⟨0, 32, .ro, 0x0, []⟩]
  | .GPIO_OUT => [⟨0, 32, .rw, 0x0, [.manager]⟩]
  | .GPIO_SET => [⟨0, 32, .w1s, 0x0, [.manager]⟩]
  | .GPIO_CLR => [⟨0, 32, .w1c, 0x0, [.manager]⟩]
  | .GPIO_EDGE_RISE => [⟨0, 32, .rw, 0x0, [.manager]⟩]
  | .GPIO_EDGE_FALL => [⟨0, 32, .rw, 0x0, [.manager]⟩]
  | .GPIO_EDGE => [⟨0, 32, .w1c, 0x0, [.manager]⟩]
  | .GPIO_EDGE_ST_LO => [⟨0, 32, .ro, 0x0, []⟩]
  | .GPIO_EDGE_ST_HI => [⟨0, 32, .ro, 0x0, []⟩]
  | .AUD_STATUS => [⟨0, 8, .ro, 0x0, []⟩, ⟨8, 8, .ro, 0x0, []⟩, ⟨16, 1, .ro, 0x0, []⟩]
  | .CLIP_TABLE_LO => [⟨4, 28, .rw, 0x0, [.manager]⟩]
  | .CLIP_TABLE_HI => [⟨0, 16, .rw, 0x0, [.manager]⟩]
  | .CLIP_COUNT => [⟨0, 11, .rw, 0x0, [.manager]⟩]
  | .SLIP_COUNT => [⟨0, 32, .ro, 0x0, []⟩]
  | .BUS_IN => [⟨0, 8, .rw, 0x0, [.manager]⟩, ⟨8, 1, .w1c, 0x0, [.manager]⟩, ⟨16, 16, .rw, 0x0, [.manager]⟩]
  | .BUS_GAIN => [⟨0, 16, .rw, 0x0, [.manager]⟩, ⟨16, 1, .ro, 0x0, []⟩]
  | .BUS_DELAY => [⟨0, 14, .rw, 0x0, [.manager]⟩]
  | .BUS_EQ_A => [⟨0, 3, .rw, 0x0, [.manager]⟩, ⟨16, 16, .rw, 0x0, [.manager]⟩]
  | .BUS_EQ_B => [⟨0, 16, .rw, 0x0, [.manager]⟩, ⟨16, 16, .rw, 0x0, [.manager]⟩]
  | .BUS_EQ_COMMIT => [⟨0, 1, .w1s, 0x0, [.manager]⟩]
  | .BUS_LIM => [⟨0, 1, .rw, 0x0, [.manager]⟩, ⟨8, 8, .rw, 0x0, [.manager]⟩, ⟨16, 8, .rw, 0x0, [.manager]⟩]
  | .BUS_LIM2 => [⟨0, 16, .rw, 0x0, [.manager]⟩]
  | .BUS_STATUS_A => [⟨0, 1, .ro, 0x0, []⟩, ⟨1, 1, .w1c, 0x0, [.manager]⟩]
  | .OUT_SEL => [⟨0, 6, .rw, 0x0, [.manager]⟩, ⟨6, 1, .w1c, 0x0, [.manager]⟩, ⟨16, 16, .rw, 0x0, [.manager]⟩]
  | .PLAYER_CTRL => [⟨0, 16, .rw, 0x0, [.manager]⟩, ⟨16, 1, .w1s, 0x0, [.manager]⟩, ⟨17, 1, .w1s, 0x0, [.manager]⟩, ⟨18, 1, .w1s, 0x0, [.manager]⟩]
  | .PLAYER_FADE => [⟨0, 16, .rw, 0x0, [.manager]⟩]
  | .PLAYER_STATUS => [⟨0, 2, .ro, 0x0, []⟩, ⟨2, 1, .w1c, 0x0, [.manager]⟩]
  | .UNDERRUN_COUNT => [⟨0, 32, .ro, 0x0, []⟩]
  | .TONE_CFG => [⟨0, 2, .rw, 0x0, [.manager]⟩, ⟨16, 16, .rw, 0x0, [.manager]⟩]
  | .TONE_LEVEL => [⟨0, 16, .rw, 0x0, [.manager]⟩]
  | .SIL_CFG => [⟨0, 7, .rw, 0x0, [.manager]⟩, ⟨16, 10, .rw, 0x0, [.manager]⟩]
  | .SIL_STATUS => [⟨0, 1, .ro, 0x0, []⟩, ⟨1, 1, .ro, 0x0, []⟩]
  | .AES_CFG => [⟨0, 1, .rw, 0x0, [.manager]⟩, ⟨1, 1, .rw, 0x0, [.manager]⟩, ⟨2, 3, .rw, 0x0, [.manager]⟩, ⟨8, 8, .rw, 0x0, [.manager]⟩]
  | .AES_ADDR => [⟨0, 32, .rw, 0x0, [.manager]⟩]
  | .AES_UDP => [⟨0, 16, .rw, 0x0, [.manager]⟩]
  | .AES_TS_OFFSET => [⟨0, 32, .rw, 0x0, [.manager]⟩]
  | .AES_LINK_OFFSET => [⟨0, 32, .rw, 0x0, [.manager]⟩]
  | .LOSS_COUNT => [⟨0, 32, .ro, 0x0, []⟩]
  | .EVT_ROUTE => [⟨0, 1, .ro, 0x0, [.island]⟩, ⟨1, 1, .rw, 0x0, [.manager, .inner]⟩, ⟨2, 1, .rw, 0x0, [.manager, .inner]⟩, ⟨3, 1, .rw, 0x0, [.manager, .inner]⟩, ⟨4, 1, .rw, 0x0, [.manager, .inner]⟩, ⟨8, 3, .rw, 0x0, [.manager, .inner]⟩, ⟨11, 1, .rw, 0x0, [.inner]⟩, ⟨12, 11, .rw, 0x0, [.manager, .inner]⟩, ⟨24, 6, .rw, 0x0, [.manager, .inner]⟩]
  | .EVT_MGMT_PEND => [⟨0, 32, .w1c, 0x0, [.manager]⟩]
  | .EVT_STICKY => [⟨0, 32, .w1c, 0x0, [.manager, .inner]⟩]
  | .PF_MSIX_ADDR_LO => [⟨0, 32, .rw, 0x0, [.manager]⟩]
  | .PF_MSIX_ADDR_HI => [⟨0, 32, .rw, 0x0, [.manager]⟩]
  | .PF_MSIX_DATA => [⟨0, 32, .rw, 0x0, [.manager]⟩]
  | .PF_MSIX_CTRL => [⟨0, 1, .rw, 0x1, [.manager]⟩]
  | .PF_PBA => [⟨0, 32, .ro, 0x0, []⟩]
  | .EVT_CUE_SRC => [⟨0, 9, .rw, 0x0, [.manager]⟩, ⟨31, 1, .rw, 0x0, [.manager]⟩]
  | .EVT_CUE_OFFSET => [⟨0, 32, .rw, 0x0, [.manager]⟩]
  | .EVT_CUE_ENTRY => [⟨0, 32, .rw, 0x0, [.manager]⟩]
  | .EVT_CUE_STATUS => [⟨0, 4, .ro, 0x0, []⟩, ⟨16, 16, .ro, 0x0, []⟩]
  | .EVT_HAP_LINK_A => [⟨0, 9, .rw, 0x0, [.manager]⟩, ⟨12, 4, .rw, 0x0, [.manager]⟩, ⟨31, 1, .rw, 0x0, [.manager]⟩]
  | .EVT_HAP_LINK_B => [⟨0, 8, .rw, 0x0, [.manager]⟩, ⟨8, 8, .rw, 0x0, [.manager]⟩]
  | .PMC_SEL => [⟨0, 8, .rw, 0x0, [.manager, .inner]⟩, ⟨8, 9, .rw, 0x0, [.manager, .inner]⟩, ⟨17, 1, .rw, 0x0, [.manager, .inner]⟩, ⟨18, 5, .rw, 0x0, [.manager, .inner]⟩, ⟨23, 2, .rw, 0x0, [.manager, .inner]⟩, ⟨25, 1, .rw, 0x0, [.manager, .inner]⟩, ⟨26, 1, .rw, 0x0, [.manager, .inner]⟩, ⟨27, 1, .rw, 0x0, [.manager, .inner]⟩, ⟨28, 1, .rw, 0x0, [.manager, .inner]⟩]
  | .PMC_OWNER => [⟨0, 8, .rw, 0x0, [.manager, .inner]⟩]
  | .PMC_ADDR_BASE_LO => [⟨6, 26, .rw, 0x0, [.manager, .inner]⟩]
  | .PMC_ADDR_BASE_HI => [⟨0, 16, .rw, 0x0, [.manager, .inner]⟩]
  | .PMC_ADDR_LIMIT_LO => [⟨6, 26, .rw, 0x0, [.manager, .inner]⟩]
  | .PMC_ADDR_LIMIT_HI => [⟨0, 16, .rw, 0x0, [.manager, .inner]⟩]
  | .PMC_VAL_LO => [⟨0, 32, .rw, 0x0, [.manager, .inner]⟩]
  | .PMC_VAL_HI => [⟨0, 16, .rw, 0x0, [.manager, .inner]⟩, ⟨31, 1, .w1c, 0x0, [.manager, .inner]⟩]
  | .PMC_GLOBAL => [⟨0, 1, .rw, 0x0, [.manager, .inner]⟩, ⟨1, 1, .w1s, 0x0, [.manager, .inner]⟩]
  | .PMC_MIRROR_OVF => [⟨0, 32, .w1c, 0x0, [.manager]⟩]
  | .PSAMP_CTRL => [⟨0, 1, .rw, 0x0, [.manager, .inner]⟩, ⟨8, 8, .rw, 0x0, [.manager, .inner]⟩]
  | .PSAMP_PERIOD => [⟨0, 24, .rw, 0x0, [.manager, .inner]⟩]
  | .PSAMP_BASE_LO => [⟨0, 4, .rw, 0x0, [.manager, .inner]⟩, ⟨12, 20, .rw, 0x0, [.manager, .inner]⟩]
  | .PSAMP_BASE_HI => [⟨0, 16, .rw, 0x0, [.manager, .inner]⟩]
  | .PSAMP_WR => [⟨0, 16, .ro, 0x0, []⟩]
  | .PSAMP_RD => [⟨0, 16, .rw, 0x0, [.manager, .inner]⟩]
  | .PSAMP_WM => [⟨0, 16, .rw, 0x0, [.manager, .inner]⟩]
  | .PSAMP_LOST => [⟨0, 32, .ro, 0x0, []⟩]
  | .BW_CTRL => [⟨0, 1, .rw, 0x0, [.manager, .inner]⟩, ⟨1, 1, .rw, 0x0, [.manager, .inner]⟩]
  | .BW_WINDOW => [⟨0, 20, .rw, 0x0, [.manager, .inner]⟩]
  | .BW_SEQ => [⟨0, 31, .ro, 0x0, []⟩, ⟨31, 1, .ro, 0x0, []⟩]
  | .BW_PORT_LO => [⟨0, 32, .ro, 0x0, []⟩]
  | .BW_PORT_HI => [⟨0, 32, .ro, 0x0, []⟩]
  | .PMU_STATE_CTRL => [⟨0, 3, .rw, 0x0, [.manager, .inner]⟩, ⟨3, 1, .w1s, 0x0, [.manager, .inner]⟩]
  | .PMU_STATE_STATUS => [⟨0, 3, .ro, 0x0, []⟩, ⟨3, 1, .ro, 0x0, []⟩, ⟨4, 3, .ro, 0x0, []⟩, ⟨8, 3, .ro, 0x0, []⟩, ⟨11, 1, .w1c, 0x0, [.manager, .inner]⟩]
  | .PMU_WAKE_EN => [⟨0, 11, .rw, 0x0, [.manager, .inner]⟩]
  | .PMU_WAKE_CAUSE => [⟨0, 11, .w1c, 0x0, [.manager, .inner]⟩]
  | .PMU_AOT_WAKE => [⟨0, 32, .rw, 0x0, [.manager, .inner]⟩]

/-- Part 0 of the list of all registers. -/
def Reg.all0 : List Reg :=
  [.SYS_RESET_CTRL, .SYS_RESET_CAUSE, .SYS_BOOT_STATUS, .SYS_RCP_STATUS, .SYS_RCP_CTRL, .SYS_RCP_PUSH_ADDR_LO, .SYS_RCP_PUSH_ADDR_HI, .SYS_RCP_PUSH_LEN, .SYS_RCP_ERR_DETAIL, .SYS_RCP_ID, .SYS_RCP_BW_CEILING, .SYS_RCP_BW_ADMITTED, .SYS_RCP_IFACE, .SYS_TEMP, .TIME_STATUS, .TIME_ST_LO, .TIME_ST_HI, .TIME_PHASE_ERR, .TIME_FREQ_ADJ, .TIME_HOLDOVER_AGE, .TIME_LTC_TC, .TIME_LTC_ST_LO, .TIME_LTC_ST_HI, .AXIS_STATUS, .AXIS_POS_LO, .AXIS_POS_HI, .AXIS_VEL_LO, .AXIS_VEL_HI, .AXIS_EVAL_ST_LO, .AXIS_EVAL_ST_HI, .AXIS_SAMPLE_RAW, .CUE_ENTRY, .CUE_ARM_CTRL, .CUE_STATUS, .CUE_COUNT, .CUE_MARK_ST_LO, .CUE_MARK_ST_HI, .CUE_MARK_TAG, .CUE_GLOBAL, .CUE_DEFER_COUNT, .CUE_LATE_COUNT, .CUE_VOID_COUNT, .CUE_LAST_FAIL, .CUE_CLR, .FAB_STATUS, .FAB_CTRL, .FAB_SLOT_DONE, .FAB_PEER_RELEASE, .FAB_PEER_COUNT, .FAB_UNKNOWN_COUNT, .FAB_LATE_REPLY_COUNT, .FAB_PORT_STATUS, .FAB_PORT_DELAY, .FAB_PORT_RETRY, .FAB_PORT_AUTH_FAIL, .FAB_PORT_DISCARD, .FAB_PORT_TXCTR_LO, .FAB_PORT_TXCTR_HI, .FAB_SLOT_CFG, .FAB_SLOT_VOID]

/-- Part 1 of the list of all registers. -/
def Reg.all1 : List Reg :=
  [.FAB_SLOT_DATA, .FAB_SLOT_SEND, .FAB_SLOT_STATUS, .FAB_SLOT_RESULT_LO, .FAB_SLOT_RESULT_HI, .FAB_APP_RING_LO, .FAB_APP_RING_HI, .FAB_APP_RING_CFG, .FAB_APP_RING_HEAD, .FAB_APP_RING_TAIL, .ISL_STATUS, .ISL_GLAZE_STATUS, .ISL_PAIR_SWITCH_COUNT, .ISL_RENDER_SWITCH_COUNT, .ISL_LINE_MISMATCH_COUNT, .ISL_SRAM_CE_COUNT, .ISL_HB_FAIL_COUNT, .ISL_ID_KEY, .ISL_MBOX_TX, .ISL_MBOX_TX_CTRL, .ISL_MBOX_STATUS, .ISL_MBOX_RX, .ISL_MBOX_RX_POP, .GFX_STATUS, .GFX_CTRL, .GFX_CLK, .GFX_CTX_ALLOC, .GFX_CTX_ALLOC_STATUS, .GFX_BIN_FREE, .GFX_PARTIAL_COUNT, .CTX_CFG, .CTX_SLICE, .CTX_RING_LO, .CTX_RING_HI, .CTX_RING_SIZE, .CTX_HEAD, .CTX_TAIL, .CTX_SAVE_LO, .CTX_SAVE_HI, .CTX_STATE, .CTX_CTRL, .CTX_FAULT_ADDR_LO, .CTX_FAULT_ADDR_HI, .CTX_FAULT_OFFSET, .CMP_STATUS, .CMP_SHED_LO, .CMP_SHED_HI, .CMP_OUT_CTRL, .CMP_OUT_BG, .CMP_OUT_FS_LO, .CMP_OUT_FS_HI, .LAYER_ID, .LAYER_CTRL, .LAYER_FMT, .LAYER_SRC_SIZE, .LAYER_CROP, .LAYER_DST_POS, .LAYER_DST_SIZE, .LAYER_PITCH, .LAYER_PLANE_OFF]

/-- Part 2 of the list of all registers. -/
def Reg.all2 : List Reg :=
  [.LAYER_META_OFF, .LAYER_OPQ_POS, .LAYER_OPQ_SIZE, .WARP_K, .LAYER_COMMIT, .SUB_ADDR_LO, .SUB_ADDR_HI, .SUB_NB_LO, .SUB_NB_HI, .SUB_DA_LO, .SUB_DA_HI, .SUB_REF_LO, .SUB_REF_HI, .SUB_CTRL, .SUB_STATUS, .LAYER_STATUS, .REL_INFO, .REL_ST_LO, .REL_ST_HI, .REL_POP, .CNT_SKIPPED, .CNT_LATE, .CNT_REFUSED, .CNT_CLAMP, .OUT_STATUS, .OUT_CTRL, .OUT_TIMING_H0, .OUT_TIMING_H1, .OUT_TIMING_V0, .OUT_TIMING_V1, .OUT_PCLK, .OUT_LOCK_ERR, .OUT_FRAME_INDEX, .OUT_UNDERRUN_COUNT, .OUT_UNDERRUN_LINE, .OUT_LINK_INFO, .OUT_FRZ_CTRL, .OUT_FRZ_COUNT, .OUT_FRZ_CLR, .OUT_SUB_BG, .OUT_FRZ_WIN_POS, .OUT_FRZ_WIN_SIZE, .OUT_FRZ_SIG, .MEM_STATUS, .MEM_CAPACITY, .MEM_CHAN_ACTIVE, .MEM_CHAN_DOWN, .MEM_PAGE_CTRL, .MEM_RETRAIN_CTRL, .MEM_ERR_ADDR_LO, .MEM_ERR_ADDR_HI, .MEM_ERR_INFO, .MEM_CE_COUNT, .MEM_UE_COUNT, .MEM_LINK_ECC, .MEM_CEILING_NOW, .MEM_RESERVED_NOW, .MEM_PORT_QOS, .MEM_PORT_STATUS, .MEM_PORT_RESERVE]

/-- Part 3 of the list of all registers. -/
def Reg.all3 : List Reg :=
  [.MEM_PORT_LATE, .CPX_STATUS, .CPX_DBG_EN, .CPX_FENCE_VIOL_ADDR_LO, .CPX_FENCE_VIOL_ADDR_HI, .CPX_FENCE_VIOL_INFO, .CPX_FENCE_REGION_BASE, .CPX_FENCE_REGION_SIZE, .VIR_STATUS, .VIR_POOL_FREE_0, .VIR_POOL_FREE_1, .VIR_MB_PENDING, .VIR_PORT_CFG, .VIR_CREATE_SHAPE, .VIR_CREATE_QUOTA, .VIR_CREATE_LAYERS_LO, .VIR_CREATE_LAYERS_HI, .VIR_CREATE_DRAM_BASE, .VIR_CREATE_DRAM_SIZE, .VIR_CREATE_CTRL, .VIR_CREATE_STATUS, .VIR_MB_RX, .VIR_MB_RX_POP, .VIR_MB_STATUS, .VIR_MB_TX, .VIR_MB_TX_GO, .VIR_INST_STATE, .VIR_INST_CTRL, .VIR_INST_BUF_LO, .VIR_INST_BUF_HI, .VIR_INST_BUF_LEN, .VIR_INST_SAVE_SIZE, .VIR_INST_RESTORE_INFO, .DOORBELL, .QCOMP_LO, .QCOMP_HI, .INST_STATUS, .TT_ROOT_LO, .TT_ROOT_HI, .INV_ADDR_LO, .INV_ADDR_HI, .INV_PAGES, .INV_CTRL, .INV_STATUS, .TFAULT_ADDR_LO, .TFAULT_ADDR_HI, .TFAULT_INFO, .TFAULT_VEC, .INST_MB_TX, .INST_MB_TX_CTRL, .INST_MB_TX_STATUS, .INST_MB_RX, .INST_MB_RX_POP, .INST_MB_RX_STATUS, .MBOX_RX_VEC, .INST_MSIX_ADDR_LO, .INST_MSIX_ADDR_HI, .INST_MSIX_DATA, .INST_MSIX_CTRL, .INST_PBA]

/-- Part 4 of the list of all registers. -/
def Reg.all4 : List Reg :=
  [.CH_BASE_LO, .CH_BASE_HI, .CH_CQ_LO, .CH_CQ_HI, .CH_CQ_HEAD, .CH_STATUS, .CH_VEC, .CH_START, .CH_CFG, .CH_TRIG, .CH_CTRL, .CH_CUR_LO, .CH_CUR_HI, .CH_DONE_BYTES, .CH_MISSED_COUNT, .CH_OWNER, .TIMER_PERIOD, .TIMER_PHASE_LO, .TIMER_PHASE_HI, .ENG_STATUS, .CRC_CFG, .CRC_POLY, .CRC_INIT, .CRC_XOR, .CRC_DATA, .CRC_DATA_B, .CRC_RESULT_LO, .CRC_RESULT_HI, .CRC_EXPECT, .CRC_CTRL, .CRC_STATUS, .TCH_STATUS, .TCH_CTRL, .TCH_THRESH, .TCH_THRESH2, .TCH_CSTATUS, .TCH_FRAME_ST_LO, .TCH_FRAME_ST_HI, .TCH_REPORT_HDR, .TCH_REGION, .TCH_DEGRADED, .TCH_RERUN_COUNT, .TCH_STALE_COUNT, .TCH_CONTACT_A, .TCH_CONTACT_B, .TCH_NOISE, .HAP_STATUS, .HAP_CH_STATUS, .HAP_CH_FIRE, .HAP_CH_CTRL, .HAP_CH_PEAK_I, .HAP_CH_FIRE_COUNT, .HAP_CH_DROP_COUNT, .DMX_CFG, .DMX_TIMING, .DMX_TIMING2, .DMX_BUF_LO, .DMX_BUF_HI, .DMX_CTRL, .DMX_STATUS]

/-- Part 5 of the list of all registers. -/
def Reg.all5 : List Reg :=
  [.DMX_RX_INFO, .DMX_RX_ST_LO, .DMX_RX_ST_HI, .DMX_RDM_ADDR_LO, .DMX_RDM_ADDR_HI, .DMX_RDM_LEN, .DMX_GRID_PERIOD, .DMX_GRID_PHASE_LO, .DMX_GRID_PHASE_HI, .DMX_RDM_UID_LO, .DMX_RDM_UID_HI, .DMX_LATE_FETCH_COUNT, .DMX_RX_ERR_COUNT, .DMX_REFUSED_COUNT, .MIDI_TX, .MIDI_RX, .MIDI_RX_ST_LO, .MIDI_RX_ST_HI, .MIDI_STATUS, .LTC_IN_TC, .LTC_IN_ST_LO, .LTC_IN_ST_HI, .LTC_IN_USER, .LTC_IN_STATUS, .LTC_OUT_CTRL, .LTC_OUT_ANCHOR_LO, .LTC_OUT_ANCHOR_HI, .LTC_OUT_START, .LTC_OUT_USER, .LTC_OUT_TC, .FADER_VAL, .FADER_INVALID, .FADER_MOVED, .ENC_COUNT, .ENC_ST_LO, .ENC_ST_HI, .ENC_ERR_COUNT, .SSI_RAW, .SSI_STATUS, .BUS_CFG, .BUS_DATA, .BUS_CTRL, .BUS_STATUS, .GPIO_IN, .GPIO_OUT, .GPIO_SET, .GPIO_CLR, .GPIO_EDGE_RISE, .GPIO_EDGE_FALL, .GPIO_EDGE, .GPIO_EDGE_ST_LO, .GPIO_EDGE_ST_HI, .AUD_STATUS, .CLIP_TABLE_LO, .CLIP_TABLE_HI, .CLIP_COUNT, .SLIP_COUNT, .BUS_IN, .BUS_GAIN, .BUS_DELAY]

/-- Part 6 of the list of all registers. -/
def Reg.all6 : List Reg :=
  [.BUS_EQ_A, .BUS_EQ_B, .BUS_EQ_COMMIT, .BUS_LIM, .BUS_LIM2, .BUS_STATUS_A, .OUT_SEL, .PLAYER_CTRL, .PLAYER_FADE, .PLAYER_STATUS, .UNDERRUN_COUNT, .TONE_CFG, .TONE_LEVEL, .SIL_CFG, .SIL_STATUS, .AES_CFG, .AES_ADDR, .AES_UDP, .AES_TS_OFFSET, .AES_LINK_OFFSET, .LOSS_COUNT, .EVT_ROUTE, .EVT_MGMT_PEND, .EVT_STICKY, .PF_MSIX_ADDR_LO, .PF_MSIX_ADDR_HI, .PF_MSIX_DATA, .PF_MSIX_CTRL, .PF_PBA, .EVT_CUE_SRC, .EVT_CUE_OFFSET, .EVT_CUE_ENTRY, .EVT_CUE_STATUS, .EVT_HAP_LINK_A, .EVT_HAP_LINK_B, .PMC_SEL, .PMC_OWNER, .PMC_ADDR_BASE_LO, .PMC_ADDR_BASE_HI, .PMC_ADDR_LIMIT_LO, .PMC_ADDR_LIMIT_HI, .PMC_VAL_LO, .PMC_VAL_HI, .PMC_GLOBAL, .PMC_MIRROR_OVF, .PSAMP_CTRL, .PSAMP_PERIOD, .PSAMP_BASE_LO, .PSAMP_BASE_HI, .PSAMP_WR, .PSAMP_RD, .PSAMP_WM, .PSAMP_LOST, .BW_CTRL, .BW_WINDOW, .BW_SEQ, .BW_PORT_LO, .BW_PORT_HI, .PMU_STATE_CTRL, .PMU_STATE_STATUS]

/-- Part 7 of the list of all registers. -/
def Reg.all7 : List Reg :=
  [.PMU_WAKE_EN, .PMU_WAKE_CAUSE, .PMU_AOT_WAKE]

/-- Every register, for the address decode of R7 and R20. -/
def Reg.all : List Reg :=
  Reg.all0 ++ Reg.all1 ++ Reg.all2 ++ Reg.all3 ++ Reg.all4 ++ Reg.all5 ++ Reg.all6 ++ Reg.all7

/-- A field named by its register and bits. -/
structure Fld where
  reg : Reg
  lo : Nat
  width : Nat
  deriving DecidableEq, Repr

end Sys2Proof.Machine
end

