-- ==== Sys2Proof/Machine/Fields.lean ====
section
/-! DEFINITION. One name for every field of the register map, spelled REGISTER.field as the spec spells it. -/

namespace Sys2Proof.Machine.F

abbrev SYS_RESET_CTRL.full : Fld := ⟨.SYS_RESET_CTRL, 0, 1⟩
abbrev SYS_RESET_CTRL.key : Fld := ⟨.SYS_RESET_CTRL, 8, 8⟩
abbrev SYS_RESET_CAUSE.por : Fld := ⟨.SYS_RESET_CAUSE, 0, 1⟩
abbrev SYS_RESET_CAUSE.pin : Fld := ⟨.SYS_RESET_CAUSE, 1, 1⟩
abbrev SYS_RESET_CAUSE.perst : Fld := ⟨.SYS_RESET_CAUSE, 2, 1⟩
abbrev SYS_RESET_CAUSE.soft : Fld := ⟨.SYS_RESET_CAUSE, 3, 1⟩
abbrev SYS_RESET_CAUSE.loader : Fld := ⟨.SYS_RESET_CAUSE, 4, 1⟩
abbrev SYS_RESET_CAUSE.stuck : Fld := ⟨.SYS_RESET_CAUSE, 5, 1⟩
abbrev SYS_RESET_CAUSE.wake : Fld := ⟨.SYS_RESET_CAUSE, 6, 1⟩
abbrev SYS_RESET_CAUSE.supply : Fld := ⟨.SYS_RESET_CAUSE, 7, 1⟩
abbrev SYS_RESET_CAUSE.thermal : Fld := ⟨.SYS_RESET_CAUSE, 8, 1⟩
abbrev SYS_BOOT_STATUS.island_ok : Fld := ⟨.SYS_BOOT_STATUS, 0, 1⟩
abbrev SYS_BOOT_STATUS.tartal_ok : Fld := ⟨.SYS_BOOT_STATUS, 1, 1⟩
abbrev SYS_BOOT_STATUS.honour_hold : Fld := ⟨.SYS_BOOT_STATUS, 2, 1⟩
abbrev SYS_BOOT_STATUS.channels : Fld := ⟨.SYS_BOOT_STATUS, 8, 6⟩
abbrev SYS_BOOT_STATUS.data_rate : Fld := ⟨.SYS_BOOT_STATUS, 16, 16⟩
abbrev SYS_RCP_STATUS.state : Fld := ⟨.SYS_RCP_STATUS, 0, 4⟩
abbrev SYS_RCP_STATUS.verdict : Fld := ⟨.SYS_RCP_STATUS, 4, 4⟩
abbrev SYS_RCP_STATUS.err : Fld := ⟨.SYS_RCP_STATUS, 8, 8⟩
abbrev SYS_RCP_STATUS.source : Fld := ⟨.SYS_RCP_STATUS, 16, 1⟩
abbrev SYS_RCP_STATUS.locked : Fld := ⟨.SYS_RCP_STATUS, 17, 1⟩
abbrev SYS_RCP_STATUS.push_refused : Fld := ⟨.SYS_RCP_STATUS, 18, 1⟩
abbrev SYS_RCP_STATUS.unfused : Fld := ⟨.SYS_RCP_STATUS, 19, 1⟩
abbrev SYS_RCP_STATUS.busy : Fld := ⟨.SYS_RCP_STATUS, 20, 1⟩
abbrev SYS_RCP_CTRL.push : Fld := ⟨.SYS_RCP_CTRL, 0, 1⟩
abbrev SYS_RCP_CTRL.reset_to_loader : Fld := ⟨.SYS_RCP_CTRL, 1, 1⟩
abbrev SYS_RCP_PUSH_ADDR_LO.addr_lo : Fld := ⟨.SYS_RCP_PUSH_ADDR_LO, 12, 20⟩
abbrev SYS_RCP_PUSH_ADDR_HI.addr_hi : Fld := ⟨.SYS_RCP_PUSH_ADDR_HI, 0, 32⟩
abbrev SYS_RCP_PUSH_LEN.len : Fld := ⟨.SYS_RCP_PUSH_LEN, 0, 25⟩
abbrev SYS_RCP_ERR_DETAIL.section : Fld := ⟨.SYS_RCP_ERR_DETAIL, 0, 8⟩
abbrev SYS_RCP_ERR_DETAIL.offset : Fld := ⟨.SYS_RCP_ERR_DETAIL, 8, 24⟩
abbrev SYS_RCP_ID.digest : Fld := ⟨.SYS_RCP_ID, 0, 32⟩
abbrev SYS_RCP_BW_CEILING.ceiling : Fld := ⟨.SYS_RCP_BW_CEILING, 0, 32⟩
abbrev SYS_RCP_BW_ADMITTED.reserved_sum : Fld := ⟨.SYS_RCP_BW_ADMITTED, 0, 32⟩
abbrev SYS_RCP_IFACE.recipe_if : Fld := ⟨.SYS_RCP_IFACE, 0, 8⟩
abbrev SYS_RCP_IFACE.tartal_if : Fld := ⟨.SYS_RCP_IFACE, 8, 8⟩
abbrev SYS_RCP_IFACE.island_if : Fld := ⟨.SYS_RCP_IFACE, 16, 8⟩
abbrev SYS_TEMP.tj : Fld := ⟨.SYS_TEMP, 0, 9⟩
abbrev SYS_TEMP.sensor : Fld := ⟨.SYS_TEMP, 12, 4⟩
abbrev SYS_TEMP.over : Fld := ⟨.SYS_TEMP, 16, 1⟩
abbrev SYS_TEMP.trip : Fld := ⟨.SYS_TEMP, 17, 1⟩
abbrev TIME_STATUS.state : Fld := ⟨.TIME_STATUS, 0, 3⟩
abbrev TIME_STATUS.source : Fld := ⟨.TIME_STATUS, 3, 3⟩
abbrev TIME_STATUS.valid : Fld := ⟨.TIME_STATUS, 6, 1⟩
abbrev TIME_STATUS.slewing : Fld := ⟨.TIME_STATUS, 7, 1⟩
abbrev TIME_STATUS.clk_present : Fld := ⟨.TIME_STATUS, 8, 1⟩
abbrev TIME_STATUS.ltc_jump : Fld := ⟨.TIME_STATUS, 9, 1⟩
abbrev TIME_STATUS.holdover_count : Fld := ⟨.TIME_STATUS, 16, 8⟩
abbrev TIME_ST_LO.st_lo : Fld := ⟨.TIME_ST_LO, 0, 32⟩
abbrev TIME_ST_HI.st_hi : Fld := ⟨.TIME_ST_HI, 0, 32⟩
abbrev TIME_PHASE_ERR.phase_err : Fld := ⟨.TIME_PHASE_ERR, 0, 32⟩
abbrev TIME_FREQ_ADJ.freq_adj : Fld := ⟨.TIME_FREQ_ADJ, 0, 32⟩
abbrev TIME_HOLDOVER_AGE.age_us : Fld := ⟨.TIME_HOLDOVER_AGE, 0, 32⟩
abbrev TIME_LTC_TC.frames : Fld := ⟨.TIME_LTC_TC, 0, 6⟩
abbrev TIME_LTC_TC.drop_frame : Fld := ⟨.TIME_LTC_TC, 6, 1⟩
abbrev TIME_LTC_TC.seconds : Fld := ⟨.TIME_LTC_TC, 8, 7⟩
abbrev TIME_LTC_TC.minutes : Fld := ⟨.TIME_LTC_TC, 16, 7⟩
abbrev TIME_LTC_TC.hours : Fld := ⟨.TIME_LTC_TC, 24, 6⟩
abbrev TIME_LTC_ST_LO.ltc_st : Fld := ⟨.TIME_LTC_ST_LO, 0, 32⟩
abbrev TIME_LTC_ST_HI.ltc_st : Fld := ⟨.TIME_LTC_ST_HI, 0, 32⟩
abbrev AXIS_STATUS.state : Fld := ⟨.AXIS_STATUS, 0, 3⟩
abbrev AXIS_STATUS.reject_count : Fld := ⟨.AXIS_STATUS, 8, 8⟩
abbrev AXIS_POS_LO.value : Fld := ⟨.AXIS_POS_LO, 0, 32⟩
abbrev AXIS_POS_HI.value : Fld := ⟨.AXIS_POS_HI, 0, 32⟩
abbrev AXIS_VEL_LO.value : Fld := ⟨.AXIS_VEL_LO, 0, 32⟩
abbrev AXIS_VEL_HI.value : Fld := ⟨.AXIS_VEL_HI, 0, 32⟩
abbrev AXIS_EVAL_ST_LO.value : Fld := ⟨.AXIS_EVAL_ST_LO, 0, 32⟩
abbrev AXIS_EVAL_ST_HI.value : Fld := ⟨.AXIS_EVAL_ST_HI, 0, 32⟩
abbrev AXIS_SAMPLE_RAW.raw : Fld := ⟨.AXIS_SAMPLE_RAW, 0, 32⟩
abbrev CUE_ENTRY.word : Fld := ⟨.CUE_ENTRY, 0, 32⟩
abbrev CUE_ARM_CTRL.op : Fld := ⟨.CUE_ARM_CTRL, 0, 3⟩
abbrev CUE_ARM_CTRL.slot : Fld := ⟨.CUE_ARM_CTRL, 4, 12⟩
abbrev CUE_ARM_CTRL.window : Fld := ⟨.CUE_ARM_CTRL, 16, 7⟩
abbrev CUE_STATUS.busy : Fld := ⟨.CUE_STATUS, 0, 1⟩
abbrev CUE_STATUS.err : Fld := ⟨.CUE_STATUS, 8, 4⟩
abbrev CUE_STATUS.slot : Fld := ⟨.CUE_STATUS, 16, 12⟩
abbrev CUE_COUNT.in_use : Fld := ⟨.CUE_COUNT, 0, 13⟩
abbrev CUE_COUNT.limit : Fld := ⟨.CUE_COUNT, 16, 13⟩
abbrev CUE_MARK_ST_LO.value : Fld := ⟨.CUE_MARK_ST_LO, 0, 32⟩
abbrev CUE_MARK_ST_HI.value : Fld := ⟨.CUE_MARK_ST_HI, 0, 32⟩
abbrev CUE_MARK_TAG.value : Fld := ⟨.CUE_MARK_TAG, 0, 32⟩
abbrev CUE_GLOBAL.in_use : Fld := ⟨.CUE_GLOBAL, 0, 13⟩
abbrev CUE_GLOBAL.staged : Fld := ⟨.CUE_GLOBAL, 16, 13⟩
abbrev CUE_DEFER_COUNT.count : Fld := ⟨.CUE_DEFER_COUNT, 0, 32⟩
abbrev CUE_LATE_COUNT.count : Fld := ⟨.CUE_LATE_COUNT, 0, 32⟩
abbrev CUE_VOID_COUNT.count : Fld := ⟨.CUE_VOID_COUNT, 0, 32⟩
abbrev CUE_LAST_FAIL.slot : Fld := ⟨.CUE_LAST_FAIL, 0, 12⟩
abbrev CUE_LAST_FAIL.action : Fld := ⟨.CUE_LAST_FAIL, 16, 8⟩
abbrev CUE_LAST_FAIL.owner : Fld := ⟨.CUE_LAST_FAIL, 24, 8⟩
abbrev CUE_CLR.counts : Fld := ⟨.CUE_CLR, 0, 1⟩
abbrev FAB_STATUS.star : Fld := ⟨.FAB_STATUS, 0, 12⟩
abbrev FAB_STATUS.numbered : Fld := ⟨.FAB_STATUS, 12, 1⟩
abbrev FAB_STATUS.secure : Fld := ⟨.FAB_STATUS, 13, 1⟩
abbrev FAB_STATUS.master : Fld := ⟨.FAB_STATUS, 14, 1⟩
abbrev FAB_STATUS.master_star : Fld := ⟨.FAB_STATUS, 16, 12⟩
abbrev FAB_CTRL.port_en : Fld := ⟨.FAB_CTRL, 0, 8⟩
abbrev FAB_SLOT_DONE.done : Fld := ⟨.FAB_SLOT_DONE, 0, 32⟩
abbrev FAB_PEER_RELEASE.star : Fld := ⟨.FAB_PEER_RELEASE, 0, 12⟩
abbrev FAB_PEER_RELEASE.go : Fld := ⟨.FAB_PEER_RELEASE, 31, 1⟩
abbrev FAB_PEER_COUNT.tx : Fld := ⟨.FAB_PEER_COUNT, 0, 9⟩
abbrev FAB_PEER_COUNT.rx : Fld := ⟨.FAB_PEER_COUNT, 16, 9⟩
abbrev FAB_UNKNOWN_COUNT.count : Fld := ⟨.FAB_UNKNOWN_COUNT, 0, 32⟩
abbrev FAB_LATE_REPLY_COUNT.count : Fld := ⟨.FAB_LATE_REPLY_COUNT, 0, 32⟩
abbrev FAB_PORT_STATUS.state : Fld := ⟨.FAB_PORT_STATUS, 0, 4⟩
abbrev FAB_PORT_STATUS.reason : Fld := ⟨.FAB_PORT_STATUS, 4, 3⟩
abbrev FAB_PORT_STATUS.clk_present : Fld := ⟨.FAB_PORT_STATUS, 7, 1⟩
abbrev FAB_PORT_STATUS.peer_star : Fld := ⟨.FAB_PORT_STATUS, 8, 12⟩
abbrev FAB_PORT_STATUS.time_port : Fld := ⟨.FAB_PORT_STATUS, 20, 1⟩
abbrev FAB_PORT_STATUS.peer_numbered : Fld := ⟨.FAB_PORT_STATUS, 21, 1⟩
abbrev FAB_PORT_DELAY.delay : Fld := ⟨.FAB_PORT_DELAY, 0, 32⟩
abbrev FAB_PORT_RETRY.count : Fld := ⟨.FAB_PORT_RETRY, 0, 32⟩
abbrev FAB_PORT_AUTH_FAIL.count : Fld := ⟨.FAB_PORT_AUTH_FAIL, 0, 32⟩
abbrev FAB_PORT_DISCARD.count : Fld := ⟨.FAB_PORT_DISCARD, 0, 32⟩
abbrev FAB_PORT_TXCTR_LO.value : Fld := ⟨.FAB_PORT_TXCTR_LO, 0, 32⟩
abbrev FAB_PORT_TXCTR_HI.value : Fld := ⟨.FAB_PORT_TXCTR_HI, 0, 32⟩
abbrev FAB_SLOT_CFG.dst : Fld := ⟨.FAB_SLOT_CFG, 0, 12⟩
abbrev FAB_SLOT_CFG.broadcast : Fld := ⟨.FAB_SLOT_CFG, 12, 1⟩
abbrev FAB_SLOT_CFG.bulk : Fld := ⟨.FAB_SLOT_CFG, 13, 1⟩
abbrev FAB_SLOT_CFG.arm : Fld := ⟨.FAB_SLOT_CFG, 14, 1⟩
abbrev FAB_SLOT_CFG.app_port : Fld := ⟨.FAB_SLOT_CFG, 16, 5⟩
abbrev FAB_SLOT_CFG.owner : Fld := ⟨.FAB_SLOT_CFG, 24, 8⟩
abbrev FAB_SLOT_VOID.void_us : Fld := ⟨.FAB_SLOT_VOID, 0, 20⟩
abbrev FAB_SLOT_DATA.data : Fld := ⟨.FAB_SLOT_DATA, 0, 32⟩
abbrev FAB_SLOT_SEND.send : Fld := ⟨.FAB_SLOT_SEND, 0, 1⟩
abbrev FAB_SLOT_STATUS.state : Fld := ⟨.FAB_SLOT_STATUS, 0, 3⟩
abbrev FAB_SLOT_STATUS.outcome : Fld := ⟨.FAB_SLOT_STATUS, 4, 3⟩
abbrev FAB_SLOT_STATUS.late_reply : Fld := ⟨.FAB_SLOT_STATUS, 7, 1⟩
abbrev FAB_SLOT_STATUS.detail : Fld := ⟨.FAB_SLOT_STATUS, 8, 8⟩
abbrev FAB_SLOT_STATUS.err : Fld := ⟨.FAB_SLOT_STATUS, 16, 4⟩
abbrev FAB_SLOT_STATUS.late_outcome : Fld := ⟨.FAB_SLOT_STATUS, 20, 3⟩
abbrev FAB_SLOT_RESULT_LO.value : Fld := ⟨.FAB_SLOT_RESULT_LO, 0, 32⟩
abbrev FAB_SLOT_RESULT_HI.value : Fld := ⟨.FAB_SLOT_RESULT_HI, 0, 32⟩
abbrev FAB_APP_RING_LO.addr : Fld := ⟨.FAB_APP_RING_LO, 12, 20⟩
abbrev FAB_APP_RING_HI.addr : Fld := ⟨.FAB_APP_RING_HI, 0, 32⟩
abbrev FAB_APP_RING_CFG.log2 : Fld := ⟨.FAB_APP_RING_CFG, 0, 4⟩
abbrev FAB_APP_RING_CFG.big : Fld := ⟨.FAB_APP_RING_CFG, 4, 1⟩
abbrev FAB_APP_RING_CFG.owner : Fld := ⟨.FAB_APP_RING_CFG, 8, 8⟩
abbrev FAB_APP_RING_HEAD.head : Fld := ⟨.FAB_APP_RING_HEAD, 0, 12⟩
abbrev FAB_APP_RING_TAIL.tail : Fld := ⟨.FAB_APP_RING_TAIL, 0, 12⟩
abbrev ISL_STATUS.isl_ok : Fld := ⟨.ISL_STATUS, 0, 1⟩
abbrev ISL_STATUS.main_ok : Fld := ⟨.ISL_STATUS, 1, 1⟩
abbrev ISL_STATUS.active_pair : Fld := ⟨.ISL_STATUS, 2, 1⟩
abbrev ISL_STATUS.standby_ok : Fld := ⟨.ISL_STATUS, 3, 1⟩
abbrev ISL_STATUS.limited : Fld := ⟨.ISL_STATUS, 4, 1⟩
abbrev ISL_STATUS.glaze_valid : Fld := ⟨.ISL_STATUS, 8, 4⟩
abbrev ISL_GLAZE_STATUS.active : Fld := ⟨.ISL_GLAZE_STATUS, 0, 1⟩
abbrev ISL_GLAZE_STATUS.a_state : Fld := ⟨.ISL_GLAZE_STATUS, 1, 2⟩
abbrev ISL_GLAZE_STATUS.b_state : Fld := ⟨.ISL_GLAZE_STATUS, 3, 2⟩
abbrev ISL_GLAZE_STATUS.page : Fld := ⟨.ISL_GLAZE_STATUS, 5, 2⟩
abbrev ISL_GLAZE_STATUS.mixing : Fld := ⟨.ISL_GLAZE_STATUS, 7, 1⟩
abbrev ISL_GLAZE_STATUS.check_ok : Fld := ⟨.ISL_GLAZE_STATUS, 8, 1⟩
abbrev ISL_GLAZE_STATUS.hb_ok : Fld := ⟨.ISL_GLAZE_STATUS, 9, 1⟩
abbrev ISL_GLAZE_STATUS.path_fault : Fld := ⟨.ISL_GLAZE_STATUS, 10, 1⟩
abbrev ISL_PAIR_SWITCH_COUNT.count : Fld := ⟨.ISL_PAIR_SWITCH_COUNT, 0, 32⟩
abbrev ISL_RENDER_SWITCH_COUNT.count : Fld := ⟨.ISL_RENDER_SWITCH_COUNT, 0, 32⟩
abbrev ISL_LINE_MISMATCH_COUNT.count : Fld := ⟨.ISL_LINE_MISMATCH_COUNT, 0, 32⟩
abbrev ISL_SRAM_CE_COUNT.count : Fld := ⟨.ISL_SRAM_CE_COUNT, 0, 32⟩
abbrev ISL_HB_FAIL_COUNT.count : Fld := ⟨.ISL_HB_FAIL_COUNT, 0, 32⟩
abbrev ISL_ID_KEY.key : Fld := ⟨.ISL_ID_KEY, 0, 32⟩
abbrev ISL_MBOX_TX.word : Fld := ⟨.ISL_MBOX_TX, 0, 32⟩
abbrev ISL_MBOX_TX_CTRL.go : Fld := ⟨.ISL_MBOX_TX_CTRL, 0, 1⟩
abbrev ISL_MBOX_STATUS.tx_busy : Fld := ⟨.ISL_MBOX_STATUS, 0, 1⟩
abbrev ISL_MBOX_STATUS.rx_valid : Fld := ⟨.ISL_MBOX_STATUS, 1, 1⟩
abbrev ISL_MBOX_RX.word : Fld := ⟨.ISL_MBOX_RX, 0, 32⟩
abbrev ISL_MBOX_RX_POP.pop : Fld := ⟨.ISL_MBOX_RX_POP, 0, 1⟩
abbrev GFX_STATUS.ctx_in_use : Fld := ⟨.GFX_STATUS, 0, 7⟩
abbrev GFX_STATUS.hung_cores : Fld := ⟨.GFX_STATUS, 8, 6⟩
abbrev GFX_STATUS.isa_rev : Fld := ⟨.GFX_STATUS, 16, 8⟩
abbrev GFX_CTRL.yield_timeout_ms : Fld := ⟨.GFX_CTRL, 0, 16⟩
abbrev GFX_CLK.mhz : Fld := ⟨.GFX_CLK, 0, 11⟩
abbrev GFX_CTX_ALLOC.owner : Fld := ⟨.GFX_CTX_ALLOC, 0, 8⟩
abbrev GFX_CTX_ALLOC.queue : Fld := ⟨.GFX_CTX_ALLOC, 8, 4⟩
abbrev GFX_CTX_ALLOC.go : Fld := ⟨.GFX_CTX_ALLOC, 31, 1⟩
abbrev GFX_CTX_ALLOC_STATUS.slot : Fld := ⟨.GFX_CTX_ALLOC_STATUS, 0, 6⟩
abbrev GFX_CTX_ALLOC_STATUS.err : Fld := ⟨.GFX_CTX_ALLOC_STATUS, 8, 4⟩
abbrev GFX_BIN_FREE.chunks : Fld := ⟨.GFX_BIN_FREE, 0, 15⟩
abbrev GFX_PARTIAL_COUNT.count : Fld := ⟨.GFX_PARTIAL_COUNT, 0, 32⟩
abbrev CTX_CFG.owner : Fld := ⟨.CTX_CFG, 0, 8⟩
abbrev CTX_CFG.queue : Fld := ⟨.CTX_CFG, 8, 4⟩
abbrev CTX_CFG.priority : Fld := ⟨.CTX_CFG, 12, 4⟩
abbrev CTX_CFG.max_cores : Fld := ⟨.CTX_CFG, 16, 6⟩
abbrev CTX_SLICE.slice_us : Fld := ⟨.CTX_SLICE, 0, 17⟩
abbrev CTX_RING_LO.addr : Fld := ⟨.CTX_RING_LO, 0, 32⟩
abbrev CTX_RING_HI.addr : Fld := ⟨.CTX_RING_HI, 0, 32⟩
abbrev CTX_RING_SIZE.log2_dwords : Fld := ⟨.CTX_RING_SIZE, 0, 5⟩
abbrev CTX_HEAD.index : Fld := ⟨.CTX_HEAD, 0, 22⟩
abbrev CTX_TAIL.index : Fld := ⟨.CTX_TAIL, 0, 22⟩
abbrev CTX_SAVE_LO.addr : Fld := ⟨.CTX_SAVE_LO, 0, 32⟩
abbrev CTX_SAVE_HI.addr : Fld := ⟨.CTX_SAVE_HI, 0, 32⟩
abbrev CTX_STATE.state : Fld := ⟨.CTX_STATE, 0, 3⟩
abbrev CTX_STATE.fault : Fld := ⟨.CTX_STATE, 8, 8⟩
abbrev CTX_STATE.destroy_pending : Fld := ⟨.CTX_STATE, 16, 1⟩
abbrev CTX_STATE.saved : Fld := ⟨.CTX_STATE, 17, 1⟩
abbrev CTX_CTRL.freeze : Fld := ⟨.CTX_CTRL, 0, 1⟩
abbrev CTX_CTRL.resume : Fld := ⟨.CTX_CTRL, 1, 1⟩
abbrev CTX_CTRL.destroy : Fld := ⟨.CTX_CTRL, 2, 1⟩
abbrev CTX_FAULT_ADDR_LO.value : Fld := ⟨.CTX_FAULT_ADDR_LO, 0, 32⟩
abbrev CTX_FAULT_ADDR_HI.value : Fld := ⟨.CTX_FAULT_ADDR_HI, 0, 32⟩
abbrev CTX_FAULT_OFFSET.value : Fld := ⟨.CTX_FAULT_OFFSET, 0, 32⟩
abbrev CMP_STATUS.ready : Fld := ⟨.CMP_STATUS, 0, 8⟩
abbrev CMP_SHED_LO.shed : Fld := ⟨.CMP_SHED_LO, 0, 32⟩
abbrev CMP_SHED_HI.shed : Fld := ⟨.CMP_SHED_HI, 0, 32⟩
abbrev CMP_OUT_CTRL.dither_mode : Fld := ⟨.CMP_OUT_CTRL, 0, 2⟩
abbrev CMP_OUT_BG.b : Fld := ⟨.CMP_OUT_BG, 0, 10⟩
abbrev CMP_OUT_BG.g : Fld := ⟨.CMP_OUT_BG, 10, 10⟩
abbrev CMP_OUT_BG.r : Fld := ⟨.CMP_OUT_BG, 20, 10⟩
abbrev CMP_OUT_FS_LO.value : Fld := ⟨.CMP_OUT_FS_LO, 0, 32⟩
abbrev CMP_OUT_FS_HI.value : Fld := ⟨.CMP_OUT_FS_HI, 0, 32⟩
abbrev LAYER_ID.layer : Fld := ⟨.LAYER_ID, 0, 6⟩
abbrev LAYER_ID.output : Fld := ⟨.LAYER_ID, 6, 3⟩
abbrev LAYER_ID.z : Fld := ⟨.LAYER_ID, 9, 3⟩
abbrev LAYER_ID.video : Fld := ⟨.LAYER_ID, 12, 1⟩
abbrev LAYER_ID.cursor : Fld := ⟨.LAYER_ID, 13, 1⟩
abbrev LAYER_ID.axis_locked : Fld := ⟨.LAYER_ID, 14, 1⟩
abbrev LAYER_ID.valid : Fld := ⟨.LAYER_ID, 31, 1⟩
abbrev LAYER_CTRL.enable : Fld := ⟨.LAYER_CTRL, 0, 1⟩
abbrev LAYER_CTRL.gated : Fld := ⟨.LAYER_CTRL, 1, 1⟩
abbrev LAYER_CTRL.opaque : Fld := ⟨.LAYER_CTRL, 2, 1⟩
abbrev LAYER_CTRL.premult : Fld := ⟨.LAYER_CTRL, 3, 1⟩
abbrev LAYER_CTRL.stale_hide : Fld := ⟨.LAYER_CTRL, 4, 1⟩
abbrev LAYER_CTRL.plane_alpha : Fld := ⟨.LAYER_CTRL, 8, 8⟩
abbrev LAYER_CTRL.rel_vector : Fld := ⟨.LAYER_CTRL, 16, 8⟩
abbrev LAYER_FMT.format : Fld := ⟨.LAYER_FMT, 0, 8⟩
abbrev LAYER_FMT.matrix : Fld := ⟨.LAYER_FMT, 8, 2⟩
abbrev LAYER_FMT.full_range : Fld := ⟨.LAYER_FMT, 10, 1⟩
abbrev LAYER_FMT.tiled : Fld := ⟨.LAYER_FMT, 11, 1⟩
abbrev LAYER_FMT.compressed : Fld := ⟨.LAYER_FMT, 12, 1⟩
abbrev LAYER_SRC_SIZE.src_w : Fld := ⟨.LAYER_SRC_SIZE, 0, 16⟩
abbrev LAYER_SRC_SIZE.src_h : Fld := ⟨.LAYER_SRC_SIZE, 16, 16⟩
abbrev LAYER_CROP.crop_x : Fld := ⟨.LAYER_CROP, 0, 16⟩
abbrev LAYER_CROP.crop_y : Fld := ⟨.LAYER_CROP, 16, 16⟩
abbrev LAYER_DST_POS.dst_x : Fld := ⟨.LAYER_DST_POS, 0, 16⟩
abbrev LAYER_DST_POS.dst_y : Fld := ⟨.LAYER_DST_POS, 16, 16⟩
abbrev LAYER_DST_SIZE.dst_w : Fld := ⟨.LAYER_DST_SIZE, 0, 16⟩
abbrev LAYER_DST_SIZE.dst_h : Fld := ⟨.LAYER_DST_SIZE, 16, 16⟩
abbrev LAYER_PITCH.pitch : Fld := ⟨.LAYER_PITCH, 0, 20⟩
abbrev LAYER_PLANE_OFF.off : Fld := ⟨.LAYER_PLANE_OFF, 0, 32⟩
abbrev LAYER_META_OFF.off : Fld := ⟨.LAYER_META_OFF, 0, 32⟩
abbrev LAYER_OPQ_POS.x : Fld := ⟨.LAYER_OPQ_POS, 0, 16⟩
abbrev LAYER_OPQ_POS.y : Fld := ⟨.LAYER_OPQ_POS, 16, 16⟩
abbrev LAYER_OPQ_SIZE.w : Fld := ⟨.LAYER_OPQ_SIZE, 0, 16⟩
abbrev LAYER_OPQ_SIZE.h : Fld := ⟨.LAYER_OPQ_SIZE, 16, 16⟩
abbrev WARP_K.coeff : Fld := ⟨.WARP_K, 0, 32⟩
abbrev LAYER_COMMIT.commit : Fld := ⟨.LAYER_COMMIT, 0, 1⟩
abbrev LAYER_COMMIT.pending : Fld := ⟨.LAYER_COMMIT, 1, 1⟩
abbrev LAYER_COMMIT.commit_err : Fld := ⟨.LAYER_COMMIT, 2, 1⟩
abbrev SUB_ADDR_LO.value : Fld := ⟨.SUB_ADDR_LO, 0, 32⟩
abbrev SUB_ADDR_HI.value : Fld := ⟨.SUB_ADDR_HI, 0, 32⟩
abbrev SUB_NB_LO.value : Fld := ⟨.SUB_NB_LO, 0, 32⟩
abbrev SUB_NB_HI.value : Fld := ⟨.SUB_NB_HI, 0, 32⟩
abbrev SUB_DA_LO.value : Fld := ⟨.SUB_DA_LO, 0, 32⟩
abbrev SUB_DA_HI.value : Fld := ⟨.SUB_DA_HI, 0, 32⟩
abbrev SUB_REF_LO.value : Fld := ⟨.SUB_REF_LO, 0, 32⟩
abbrev SUB_REF_HI.value : Fld := ⟨.SUB_REF_HI, 0, 32⟩
abbrev SUB_CTRL.tag : Fld := ⟨.SUB_CTRL, 0, 16⟩
abbrev SUB_CTRL.content_changed : Fld := ⟨.SUB_CTRL, 16, 1⟩
abbrev SUB_CTRL.ref_valid : Fld := ⟨.SUB_CTRL, 17, 1⟩
abbrev SUB_CTRL.flush : Fld := ⟨.SUB_CTRL, 18, 1⟩
abbrev SUB_CTRL.go : Fld := ⟨.SUB_CTRL, 31, 1⟩
abbrev SUB_STATUS.queued : Fld := ⟨.SUB_STATUS, 0, 4⟩
abbrev SUB_STATUS.err : Fld := ⟨.SUB_STATUS, 4, 4⟩
abbrev SUB_STATUS.rel_pending : Fld := ⟨.SUB_STATUS, 8, 5⟩
abbrev SUB_STATUS.rel_lost : Fld := ⟨.SUB_STATUS, 16, 1⟩
abbrev LAYER_STATUS.cur_tag : Fld := ⟨.LAYER_STATUS, 0, 16⟩
abbrev LAYER_STATUS.has_frame : Fld := ⟨.LAYER_STATUS, 16, 1⟩
abbrev LAYER_STATUS.stale : Fld := ⟨.LAYER_STATUS, 17, 1⟩
abbrev LAYER_STATUS.warp_clamped : Fld := ⟨.LAYER_STATUS, 18, 1⟩
abbrev LAYER_STATUS.shed : Fld := ⟨.LAYER_STATUS, 19, 1⟩
abbrev REL_INFO.tag : Fld := ⟨.REL_INFO, 0, 16⟩
abbrev REL_INFO.status : Fld := ⟨.REL_INFO, 16, 3⟩
abbrev REL_INFO.valid : Fld := ⟨.REL_INFO, 31, 1⟩
abbrev REL_ST_LO.value : Fld := ⟨.REL_ST_LO, 0, 32⟩
abbrev REL_ST_HI.value : Fld := ⟨.REL_ST_HI, 0, 32⟩
abbrev REL_POP.pop : Fld := ⟨.REL_POP, 0, 1⟩
abbrev CNT_SKIPPED.count : Fld := ⟨.CNT_SKIPPED, 0, 32⟩
abbrev CNT_LATE.count : Fld := ⟨.CNT_LATE, 0, 32⟩
abbrev CNT_REFUSED.count : Fld := ⟨.CNT_REFUSED, 0, 32⟩
abbrev CNT_CLAMP.count : Fld := ⟨.CNT_CLAMP, 0, 32⟩
abbrev OUT_STATUS.lock : Fld := ⟨.OUT_STATUS, 0, 3⟩
abbrev OUT_STATUS.link : Fld := ⟨.OUT_STATUS, 4, 3⟩
abbrev OUT_STATUS.hpd : Fld := ⟨.OUT_STATUS, 7, 1⟩
abbrev OUT_STATUS.clk_present : Fld := ⟨.OUT_STATUS, 8, 1⟩
abbrev OUT_STATUS.substitute : Fld := ⟨.OUT_STATUS, 9, 1⟩
abbrev OUT_STATUS.frozen : Fld := ⟨.OUT_STATUS, 10, 1⟩
abbrev OUT_STATUS.underrun : Fld := ⟨.OUT_STATUS, 11, 1⟩
abbrev OUT_STATUS.apply_err : Fld := ⟨.OUT_STATUS, 12, 1⟩
abbrev OUT_STATUS.reason : Fld := ⟨.OUT_STATUS, 13, 3⟩
abbrev OUT_CTRL.enable : Fld := ⟨.OUT_CTRL, 0, 1⟩
abbrev OUT_CTRL.apply : Fld := ⟨.OUT_CTRL, 1, 1⟩
abbrev OUT_CTRL.retrain : Fld := ⟨.OUT_CTRL, 2, 1⟩
abbrev OUT_CTRL.hsync_pos : Fld := ⟨.OUT_CTRL, 3, 1⟩
abbrev OUT_CTRL.vsync_pos : Fld := ⟨.OUT_CTRL, 4, 1⟩
abbrev OUT_TIMING_H0.h_active : Fld := ⟨.OUT_TIMING_H0, 0, 16⟩
abbrev OUT_TIMING_H0.h_front : Fld := ⟨.OUT_TIMING_H0, 16, 16⟩
abbrev OUT_TIMING_H1.h_sync : Fld := ⟨.OUT_TIMING_H1, 0, 16⟩
abbrev OUT_TIMING_H1.h_back : Fld := ⟨.OUT_TIMING_H1, 16, 16⟩
abbrev OUT_TIMING_V0.v_active : Fld := ⟨.OUT_TIMING_V0, 0, 16⟩
abbrev OUT_TIMING_V0.v_front : Fld := ⟨.OUT_TIMING_V0, 16, 16⟩
abbrev OUT_TIMING_V1.v_sync : Fld := ⟨.OUT_TIMING_V1, 0, 16⟩
abbrev OUT_TIMING_V1.v_back : Fld := ⟨.OUT_TIMING_V1, 16, 16⟩
abbrev OUT_PCLK.pclk_khz : Fld := ⟨.OUT_PCLK, 0, 22⟩
abbrev OUT_LOCK_ERR.e : Fld := ⟨.OUT_LOCK_ERR, 0, 32⟩
abbrev OUT_FRAME_INDEX.index : Fld := ⟨.OUT_FRAME_INDEX, 0, 32⟩
abbrev OUT_UNDERRUN_COUNT.count : Fld := ⟨.OUT_UNDERRUN_COUNT, 0, 32⟩
abbrev OUT_UNDERRUN_LINE.line : Fld := ⟨.OUT_UNDERRUN_LINE, 0, 16⟩
abbrev OUT_LINK_INFO.link_rate : Fld := ⟨.OUT_LINK_INFO, 0, 12⟩
abbrev OUT_LINK_INFO.lanes : Fld := ⟨.OUT_LINK_INFO, 12, 3⟩
abbrev OUT_LINK_INFO.dsc : Fld := ⟨.OUT_LINK_INFO, 15, 1⟩
abbrev OUT_LINK_INFO.slices : Fld := ⟨.OUT_LINK_INFO, 16, 5⟩
abbrev OUT_FRZ_CTRL.enable : Fld := ⟨.OUT_FRZ_CTRL, 0, 1⟩
abbrev OUT_FRZ_CTRL.frames : Fld := ⟨.OUT_FRZ_CTRL, 8, 8⟩
abbrev OUT_FRZ_COUNT.count : Fld := ⟨.OUT_FRZ_COUNT, 0, 8⟩
abbrev OUT_FRZ_CLR.clear : Fld := ⟨.OUT_FRZ_CLR, 0, 1⟩
abbrev OUT_SUB_BG.bg : Fld := ⟨.OUT_SUB_BG, 0, 30⟩
abbrev OUT_FRZ_WIN_POS.x : Fld := ⟨.OUT_FRZ_WIN_POS, 0, 16⟩
abbrev OUT_FRZ_WIN_POS.y : Fld := ⟨.OUT_FRZ_WIN_POS, 16, 16⟩
abbrev OUT_FRZ_WIN_SIZE.w : Fld := ⟨.OUT_FRZ_WIN_SIZE, 0, 16⟩
abbrev OUT_FRZ_WIN_SIZE.h : Fld := ⟨.OUT_FRZ_WIN_SIZE, 16, 16⟩
abbrev OUT_FRZ_SIG.sig : Fld := ⟨.OUT_FRZ_SIG, 0, 32⟩
abbrev MEM_STATUS.dram_type : Fld := ⟨.MEM_STATUS, 0, 2⟩
abbrev MEM_STATUS.link_ecc : Fld := ⟨.MEM_STATUS, 2, 1⟩
abbrev MEM_STATUS.hot : Fld := ⟨.MEM_STATUS, 3, 1⟩
abbrev MEM_STATUS.shed : Fld := ⟨.MEM_STATUS, 4, 1⟩
abbrev MEM_STATUS.shed_count : Fld := ⟨.MEM_STATUS, 8, 8⟩
abbrev MEM_STATUS.map_set : Fld := ⟨.MEM_STATUS, 16, 2⟩
abbrev MEM_STATUS.folded : Fld := ⟨.MEM_STATUS, 18, 1⟩
abbrev MEM_CAPACITY.usable_mib : Fld := ⟨.MEM_CAPACITY, 0, 18⟩
abbrev MEM_CAPACITY.fitted_gib : Fld := ⟨.MEM_CAPACITY, 24, 8⟩
abbrev MEM_CHAN_ACTIVE.active : Fld := ⟨.MEM_CHAN_ACTIVE, 0, 32⟩
abbrev MEM_CHAN_DOWN.down : Fld := ⟨.MEM_CHAN_DOWN, 0, 32⟩
abbrev MEM_PAGE_CTRL.idle_close : Fld := ⟨.MEM_PAGE_CTRL, 0, 8⟩
abbrev MEM_RETRAIN_CTRL.interval_ms : Fld := ⟨.MEM_RETRAIN_CTRL, 0, 10⟩
abbrev MEM_ERR_ADDR_LO.addr : Fld := ⟨.MEM_ERR_ADDR_LO, 0, 32⟩
abbrev MEM_ERR_ADDR_HI.addr : Fld := ⟨.MEM_ERR_ADDR_HI, 0, 32⟩
abbrev MEM_ERR_INFO.port : Fld := ⟨.MEM_ERR_INFO, 0, 5⟩
abbrev MEM_ERR_INFO.owner : Fld := ⟨.MEM_ERR_INFO, 8, 8⟩
abbrev MEM_ERR_INFO.type_ : Fld := ⟨.MEM_ERR_INFO, 16, 3⟩
abbrev MEM_ERR_INFO.valid : Fld := ⟨.MEM_ERR_INFO, 31, 1⟩
abbrev MEM_CE_COUNT.count : Fld := ⟨.MEM_CE_COUNT, 0, 32⟩
abbrev MEM_UE_COUNT.count : Fld := ⟨.MEM_UE_COUNT, 0, 32⟩
abbrev MEM_LINK_ECC.mask_ : Fld := ⟨.MEM_LINK_ECC, 0, 32⟩
abbrev MEM_CEILING_NOW.ceiling : Fld := ⟨.MEM_CEILING_NOW, 0, 32⟩
abbrev MEM_RESERVED_NOW.sum : Fld := ⟨.MEM_RESERVED_NOW, 0, 32⟩
abbrev MEM_PORT_QOS.target : Fld := ⟨.MEM_PORT_QOS, 0, 16⟩
abbrev MEM_PORT_QOS.weight : Fld := ⟨.MEM_PORT_QOS, 16, 4⟩
abbrev MEM_PORT_STATUS.in_use : Fld := ⟨.MEM_PORT_STATUS, 0, 8⟩
abbrev MEM_PORT_STATUS.pool : Fld := ⟨.MEM_PORT_STATUS, 8, 8⟩
abbrev MEM_PORT_STATUS.urgency : Fld := ⟨.MEM_PORT_STATUS, 16, 2⟩
abbrev MEM_PORT_RESERVE.value : Fld := ⟨.MEM_PORT_RESERVE, 0, 32⟩
abbrev MEM_PORT_LATE.value : Fld := ⟨.MEM_PORT_LATE, 0, 32⟩
abbrev CPX_STATUS.world : Fld := ⟨.CPX_STATUS, 0, 8⟩
abbrev CPX_STATUS.halted : Fld := ⟨.CPX_STATUS, 8, 8⟩
abbrev CPX_STATUS.running : Fld := ⟨.CPX_STATUS, 16, 8⟩
abbrev CPX_DBG_EN.outer_inv : Fld := ⟨.CPX_DBG_EN, 0, 1⟩
abbrev CPX_DBG_EN.outer_noninv : Fld := ⟨.CPX_DBG_EN, 1, 1⟩
abbrev CPX_DBG_EN.inner_inv : Fld := ⟨.CPX_DBG_EN, 2, 1⟩
abbrev CPX_DBG_EN.inner_noninv : Fld := ⟨.CPX_DBG_EN, 3, 1⟩
abbrev CPX_FENCE_VIOL_ADDR_LO.addr : Fld := ⟨.CPX_FENCE_VIOL_ADDR_LO, 0, 32⟩
abbrev CPX_FENCE_VIOL_ADDR_HI.addr : Fld := ⟨.CPX_FENCE_VIOL_ADDR_HI, 0, 32⟩
abbrev CPX_FENCE_VIOL_INFO.requester : Fld := ⟨.CPX_FENCE_VIOL_INFO, 0, 5⟩
abbrev CPX_FENCE_VIOL_INFO.owner : Fld := ⟨.CPX_FENCE_VIOL_INFO, 8, 8⟩
abbrev CPX_FENCE_VIOL_INFO.write : Fld := ⟨.CPX_FENCE_VIOL_INFO, 16, 1⟩
abbrev CPX_FENCE_VIOL_INFO.fetch : Fld := ⟨.CPX_FENCE_VIOL_INFO, 17, 1⟩
abbrev CPX_FENCE_VIOL_INFO.valid : Fld := ⟨.CPX_FENCE_VIOL_INFO, 31, 1⟩
abbrev CPX_FENCE_REGION_BASE.value : Fld := ⟨.CPX_FENCE_REGION_BASE, 0, 32⟩
abbrev CPX_FENCE_REGION_SIZE.value : Fld := ⟨.CPX_FENCE_REGION_SIZE, 0, 32⟩
abbrev VIR_STATUS.created : Fld := ⟨.VIR_STATUS, 0, 7⟩
abbrev VIR_STATUS.wedged : Fld := ⟨.VIR_STATUS, 8, 8⟩
abbrev VIR_POOL_FREE_0.cue_slots : Fld := ⟨.VIR_POOL_FREE_0, 0, 13⟩
abbrev VIR_POOL_FREE_0.dma_channels : Fld := ⟨.VIR_POOL_FREE_0, 16, 9⟩
abbrev VIR_POOL_FREE_1.contexts : Fld := ⟨.VIR_POOL_FREE_1, 0, 7⟩
abbrev VIR_MB_PENDING.mask_ : Fld := ⟨.VIR_MB_PENDING, 0, 32⟩
abbrev VIR_PORT_CFG.total_vfs : Fld := ⟨.VIR_PORT_CFG, 0, 6⟩
abbrev VIR_PORT_CFG.first_instance : Fld := ⟨.VIR_PORT_CFG, 8, 6⟩
abbrev VIR_PORT_CFG.ap_log2 : Fld := ⟨.VIR_PORT_CFG, 16, 6⟩
abbrev VIR_PORT_CFG.cfg_err : Fld := ⟨.VIR_PORT_CFG, 30, 1⟩
abbrev VIR_PORT_CFG.locked : Fld := ⟨.VIR_PORT_CFG, 31, 1⟩
abbrev VIR_CREATE_SHAPE.queues : Fld := ⟨.VIR_CREATE_SHAPE, 0, 5⟩
abbrev VIR_CREATE_SHAPE.vectors : Fld := ⟨.VIR_CREATE_SHAPE, 5, 6⟩
abbrev VIR_CREATE_SHAPE.contexts : Fld := ⟨.VIR_CREATE_SHAPE, 11, 7⟩
abbrev VIR_CREATE_QUOTA.cue_quota : Fld := ⟨.VIR_CREATE_QUOTA, 0, 13⟩
abbrev VIR_CREATE_QUOTA.dma_first : Fld := ⟨.VIR_CREATE_QUOTA, 16, 8⟩
abbrev VIR_CREATE_QUOTA.dma_count : Fld := ⟨.VIR_CREATE_QUOTA, 24, 8⟩
abbrev VIR_CREATE_LAYERS_LO.mask_ : Fld := ⟨.VIR_CREATE_LAYERS_LO, 0, 32⟩
abbrev VIR_CREATE_LAYERS_HI.mask_ : Fld := ⟨.VIR_CREATE_LAYERS_HI, 0, 16⟩
abbrev VIR_CREATE_DRAM_BASE.mib : Fld := ⟨.VIR_CREATE_DRAM_BASE, 0, 18⟩
abbrev VIR_CREATE_DRAM_SIZE.mib : Fld := ⟨.VIR_CREATE_DRAM_SIZE, 0, 18⟩
abbrev VIR_CREATE_CTRL.inst : Fld := ⟨.VIR_CREATE_CTRL, 0, 6⟩
abbrev VIR_CREATE_CTRL.go : Fld := ⟨.VIR_CREATE_CTRL, 31, 1⟩
abbrev VIR_CREATE_STATUS.err : Fld := ⟨.VIR_CREATE_STATUS, 0, 4⟩
abbrev VIR_CREATE_STATUS.busy : Fld := ⟨.VIR_CREATE_STATUS, 4, 1⟩
abbrev VIR_MB_RX.word : Fld := ⟨.VIR_MB_RX, 0, 32⟩
abbrev VIR_MB_RX_POP.pop : Fld := ⟨.VIR_MB_RX_POP, 0, 1⟩
abbrev VIR_MB_STATUS.rx_valid : Fld := ⟨.VIR_MB_STATUS, 0, 1⟩
abbrev VIR_MB_STATUS.tx_busy : Fld := ⟨.VIR_MB_STATUS, 1, 1⟩
abbrev VIR_MB_TX.word : Fld := ⟨.VIR_MB_TX, 0, 32⟩
abbrev VIR_MB_TX_GO.go : Fld := ⟨.VIR_MB_TX_GO, 0, 1⟩
abbrev VIR_INST_STATE.state : Fld := ⟨.VIR_INST_STATE, 0, 3⟩
abbrev VIR_INST_STATE.wedged : Fld := ⟨.VIR_INST_STATE, 3, 1⟩
abbrev VIR_INST_STATE.err : Fld := ⟨.VIR_INST_STATE, 4, 4⟩
abbrev VIR_INST_STATE.port : Fld := ⟨.VIR_INST_STATE, 8, 2⟩
abbrev VIR_INST_CTRL.freeze : Fld := ⟨.VIR_INST_CTRL, 0, 1⟩
abbrev VIR_INST_CTRL.resume : Fld := ⟨.VIR_INST_CTRL, 1, 1⟩
abbrev VIR_INST_CTRL.save : Fld := ⟨.VIR_INST_CTRL, 2, 1⟩
abbrev VIR_INST_CTRL.restore : Fld := ⟨.VIR_INST_CTRL, 3, 1⟩
abbrev VIR_INST_CTRL.destroy : Fld := ⟨.VIR_INST_CTRL, 4, 1⟩
abbrev VIR_INST_BUF_LO.addr : Fld := ⟨.VIR_INST_BUF_LO, 6, 26⟩
abbrev VIR_INST_BUF_HI.addr : Fld := ⟨.VIR_INST_BUF_HI, 0, 32⟩
abbrev VIR_INST_BUF_LEN.len : Fld := ⟨.VIR_INST_BUF_LEN, 0, 24⟩
abbrev VIR_INST_SAVE_SIZE.size : Fld := ⟨.VIR_INST_SAVE_SIZE, 0, 24⟩
abbrev VIR_INST_RESTORE_INFO.cues_dropped : Fld := ⟨.VIR_INST_RESTORE_INFO, 0, 13⟩
abbrev VIR_INST_RESTORE_INFO.frames_dropped : Fld := ⟨.VIR_INST_RESTORE_INFO, 16, 8⟩
abbrev DOORBELL.tail : Fld := ⟨.DOORBELL, 0, 22⟩
abbrev QCOMP_LO.value : Fld := ⟨.QCOMP_LO, 0, 32⟩
abbrev QCOMP_HI.value : Fld := ⟨.QCOMP_HI, 0, 32⟩
abbrev INST_STATUS.state : Fld := ⟨.INST_STATUS, 0, 3⟩
abbrev INST_STATUS.wedged : Fld := ⟨.INST_STATUS, 3, 1⟩
abbrev INST_STATUS.tfault : Fld := ⟨.INST_STATUS, 4, 1⟩
abbrev INST_STATUS.number : Fld := ⟨.INST_STATUS, 8, 8⟩
abbrev INST_STATUS.vectors : Fld := ⟨.INST_STATUS, 16, 6⟩
abbrev TT_ROOT_LO.enable : Fld := ⟨.TT_ROOT_LO, 0, 1⟩
abbrev TT_ROOT_LO.root : Fld := ⟨.TT_ROOT_LO, 12, 20⟩
abbrev TT_ROOT_HI.root : Fld := ⟨.TT_ROOT_HI, 0, 4⟩
abbrev INV_ADDR_LO.va : Fld := ⟨.INV_ADDR_LO, 12, 20⟩
abbrev INV_ADDR_HI.va : Fld := ⟨.INV_ADDR_HI, 0, 16⟩
abbrev INV_PAGES.pages : Fld := ⟨.INV_PAGES, 0, 20⟩
abbrev INV_CTRL.go : Fld := ⟨.INV_CTRL, 0, 1⟩
abbrev INV_STATUS.busy : Fld := ⟨.INV_STATUS, 0, 1⟩
abbrev TFAULT_ADDR_LO.addr : Fld := ⟨.TFAULT_ADDR_LO, 0, 32⟩
abbrev TFAULT_ADDR_HI.addr : Fld := ⟨.TFAULT_ADDR_HI, 0, 16⟩
abbrev TFAULT_INFO.engine : Fld := ⟨.TFAULT_INFO, 0, 2⟩
abbrev TFAULT_INFO.write : Fld := ⟨.TFAULT_INFO, 2, 1⟩
abbrev TFAULT_INFO.reason : Fld := ⟨.TFAULT_INFO, 3, 3⟩
abbrev TFAULT_INFO.valid : Fld := ⟨.TFAULT_INFO, 31, 1⟩
abbrev TFAULT_VEC.vector : Fld := ⟨.TFAULT_VEC, 0, 8⟩
abbrev INST_MB_TX.word : Fld := ⟨.INST_MB_TX, 0, 32⟩
abbrev INST_MB_TX_CTRL.go : Fld := ⟨.INST_MB_TX_CTRL, 0, 1⟩
abbrev INST_MB_TX_STATUS.tx_busy : Fld := ⟨.INST_MB_TX_STATUS, 0, 1⟩
abbrev INST_MB_RX.word : Fld := ⟨.INST_MB_RX, 0, 32⟩
abbrev INST_MB_RX_POP.pop : Fld := ⟨.INST_MB_RX_POP, 0, 1⟩
abbrev INST_MB_RX_STATUS.rx_valid : Fld := ⟨.INST_MB_RX_STATUS, 0, 1⟩
abbrev MBOX_RX_VEC.vector : Fld := ⟨.MBOX_RX_VEC, 0, 8⟩
abbrev INST_MSIX_ADDR_LO.word : Fld := ⟨.INST_MSIX_ADDR_LO, 0, 32⟩
abbrev INST_MSIX_ADDR_HI.word : Fld := ⟨.INST_MSIX_ADDR_HI, 0, 32⟩
abbrev INST_MSIX_DATA.word : Fld := ⟨.INST_MSIX_DATA, 0, 32⟩
abbrev INST_MSIX_CTRL.mask_ : Fld := ⟨.INST_MSIX_CTRL, 0, 1⟩
abbrev INST_PBA.pending : Fld := ⟨.INST_PBA, 0, 32⟩
abbrev CH_BASE_LO.n : Fld := ⟨.CH_BASE_LO, 0, 4⟩
abbrev CH_BASE_LO.addr : Fld := ⟨.CH_BASE_LO, 6, 26⟩
abbrev CH_BASE_HI.addr : Fld := ⟨.CH_BASE_HI, 0, 16⟩
abbrev CH_CQ_LO.m : Fld := ⟨.CH_CQ_LO, 0, 4⟩
abbrev CH_CQ_LO.addr : Fld := ⟨.CH_CQ_LO, 12, 20⟩
abbrev CH_CQ_HI.addr : Fld := ⟨.CH_CQ_HI, 0, 16⟩
abbrev CH_CQ_HEAD.head : Fld := ⟨.CH_CQ_HEAD, 0, 12⟩
abbrev CH_CQ_HEAD.tail : Fld := ⟨.CH_CQ_HEAD, 16, 12⟩
abbrev CH_CQ_HEAD.phase : Fld := ⟨.CH_CQ_HEAD, 31, 1⟩
abbrev CH_STATUS.state : Fld := ⟨.CH_STATUS, 0, 3⟩
abbrev CH_STATUS.cq_overflow : Fld := ⟨.CH_STATUS, 3, 1⟩
abbrev CH_STATUS.missed : Fld := ⟨.CH_STATUS, 4, 1⟩
abbrev CH_STATUS.last : Fld := ⟨.CH_STATUS, 8, 4⟩
abbrev CH_STATUS.head : Fld := ⟨.CH_STATUS, 16, 12⟩
abbrev CH_VEC.vector : Fld := ⟨.CH_VEC, 0, 8⟩
abbrev CH_START.start : Fld := ⟨.CH_START, 0, 1⟩
abbrev CH_CFG.priority : Fld := ⟨.CH_CFG, 0, 2⟩
abbrev CH_CFG.form : Fld := ⟨.CH_CFG, 2, 1⟩
abbrev CH_CFG.max_desc : Fld := ⟨.CH_CFG, 8, 8⟩
abbrev CH_TRIG.kind : Fld := ⟨.CH_TRIG, 0, 3⟩
abbrev CH_TRIG.source : Fld := ⟨.CH_TRIG, 8, 9⟩
abbrev CH_TRIG.falling : Fld := ⟨.CH_TRIG, 17, 1⟩
abbrev CH_CTRL.pause : Fld := ⟨.CH_CTRL, 0, 1⟩
abbrev CH_CTRL.resume : Fld := ⟨.CH_CTRL, 1, 1⟩
abbrev CH_CUR_LO.addr : Fld := ⟨.CH_CUR_LO, 0, 32⟩
abbrev CH_CUR_HI.addr : Fld := ⟨.CH_CUR_HI, 0, 16⟩
abbrev CH_DONE_BYTES.bytes : Fld := ⟨.CH_DONE_BYTES, 0, 32⟩
abbrev CH_MISSED_COUNT.count : Fld := ⟨.CH_MISSED_COUNT, 0, 32⟩
abbrev CH_OWNER.owner : Fld := ⟨.CH_OWNER, 0, 8⟩
abbrev TIMER_PERIOD.ns : Fld := ⟨.TIMER_PERIOD, 0, 32⟩
abbrev TIMER_PHASE_LO.value : Fld := ⟨.TIMER_PHASE_LO, 0, 32⟩
abbrev TIMER_PHASE_HI.value : Fld := ⟨.TIMER_PHASE_HI, 0, 32⟩
abbrev ENG_STATUS.channel : Fld := ⟨.ENG_STATUS, 0, 4⟩
abbrev ENG_STATUS.busy : Fld := ⟨.ENG_STATUS, 4, 1⟩
abbrev CRC_CFG.w : Fld := ⟨.CRC_CFG, 0, 6⟩
abbrev CRC_CFG.refin : Fld := ⟨.CRC_CFG, 6, 1⟩
abbrev CRC_CFG.refout : Fld := ⟨.CRC_CFG, 7, 1⟩
abbrev CRC_POLY.value : Fld := ⟨.CRC_POLY, 0, 32⟩
abbrev CRC_INIT.value : Fld := ⟨.CRC_INIT, 0, 32⟩
abbrev CRC_XOR.value : Fld := ⟨.CRC_XOR, 0, 32⟩
abbrev CRC_DATA.data : Fld := ⟨.CRC_DATA, 0, 32⟩
abbrev CRC_DATA_B.data : Fld := ⟨.CRC_DATA_B, 0, 8⟩
abbrev CRC_RESULT_LO.value : Fld := ⟨.CRC_RESULT_LO, 0, 32⟩
abbrev CRC_RESULT_HI.value : Fld := ⟨.CRC_RESULT_HI, 0, 32⟩
abbrev CRC_EXPECT.value : Fld := ⟨.CRC_EXPECT, 0, 32⟩
abbrev CRC_CTRL.init : Fld := ⟨.CRC_CTRL, 0, 1⟩
abbrev CRC_CTRL.check : Fld := ⟨.CRC_CTRL, 1, 1⟩
abbrev CRC_STATUS.busy : Fld := ⟨.CRC_STATUS, 0, 1⟩
abbrev CRC_STATUS.match_ : Fld := ⟨.CRC_STATUS, 1, 1⟩
abbrev CRC_STATUS.feed_lost : Fld := ⟨.CRC_STATUS, 2, 1⟩
abbrev TCH_STATUS.running : Fld := ⟨.TCH_STATUS, 0, 4⟩
abbrev TCH_STATUS.degraded : Fld := ⟨.TCH_STATUS, 4, 4⟩
abbrev TCH_STATUS.base_fault : Fld := ⟨.TCH_STATUS, 8, 4⟩
abbrev TCH_CTRL.enable : Fld := ⟨.TCH_CTRL, 0, 1⟩
abbrev TCH_CTRL.rebaseline : Fld := ⟨.TCH_CTRL, 1, 1⟩
abbrev TCH_THRESH.touch_thresh : Fld := ⟨.TCH_THRESH, 0, 16⟩
abbrev TCH_THRESH.self_thresh : Fld := ⟨.TCH_THRESH, 16, 16⟩
abbrev TCH_THRESH2.resid_thresh : Fld := ⟨.TCH_THRESH2, 0, 16⟩
abbrev TCH_THRESH2.neg_thresh : Fld := ⟨.TCH_THRESH2, 16, 16⟩
abbrev TCH_CSTATUS.hop : Fld := ⟨.TCH_CSTATUS, 0, 3⟩
abbrev TCH_CSTATUS.water : Fld := ⟨.TCH_CSTATUS, 3, 1⟩
abbrev TCH_CSTATUS.overflow : Fld := ⟨.TCH_CSTATUS, 4, 1⟩
abbrev TCH_CSTATUS.base_fault : Fld := ⟨.TCH_CSTATUS, 5, 1⟩
abbrev TCH_CSTATUS.suspect : Fld := ⟨.TCH_CSTATUS, 6, 1⟩
abbrev TCH_CSTATUS.stale_rows : Fld := ⟨.TCH_CSTATUS, 8, 8⟩
abbrev TCH_FRAME_ST_LO.value : Fld := ⟨.TCH_FRAME_ST_LO, 0, 32⟩
abbrev TCH_FRAME_ST_HI.value : Fld := ⟨.TCH_FRAME_ST_HI, 0, 32⟩
abbrev TCH_REPORT_HDR.contacts : Fld := ⟨.TCH_REPORT_HDR, 0, 5⟩
abbrev TCH_REPORT_HDR.water_nodes : Fld := ⟨.TCH_REPORT_HDR, 8, 8⟩
abbrev TCH_REPORT_HDR.frames : Fld := ⟨.TCH_REPORT_HDR, 16, 16⟩
abbrev TCH_REGION.pressed : Fld := ⟨.TCH_REGION, 0, 32⟩
abbrev TCH_DEGRADED.degraded : Fld := ⟨.TCH_DEGRADED, 0, 32⟩
abbrev TCH_RERUN_COUNT.count : Fld := ⟨.TCH_RERUN_COUNT, 0, 32⟩
abbrev TCH_STALE_COUNT.count : Fld := ⟨.TCH_STALE_COUNT, 0, 32⟩
abbrev TCH_CONTACT_A.id : Fld := ⟨.TCH_CONTACT_A, 0, 6⟩
abbrev TCH_CONTACT_A.new : Fld := ⟨.TCH_CONTACT_A, 6, 1⟩
abbrev TCH_CONTACT_A.lifted : Fld := ⟨.TCH_CONTACT_A, 7, 1⟩
abbrev TCH_CONTACT_A.stale : Fld := ⟨.TCH_CONTACT_A, 8, 1⟩
abbrev TCH_CONTACT_A.strength : Fld := ⟨.TCH_CONTACT_A, 16, 16⟩
abbrev TCH_CONTACT_B.x : Fld := ⟨.TCH_CONTACT_B, 0, 16⟩
abbrev TCH_CONTACT_B.y : Fld := ⟨.TCH_CONTACT_B, 16, 16⟩
abbrev TCH_NOISE.noise : Fld := ⟨.TCH_NOISE, 0, 16⟩
abbrev HAP_STATUS.playing : Fld := ⟨.HAP_STATUS, 0, 16⟩
abbrev HAP_STATUS.fault : Fld := ⟨.HAP_STATUS, 16, 16⟩
abbrev HAP_CH_STATUS.state : Fld := ⟨.HAP_CH_STATUS, 0, 3⟩
abbrev HAP_CH_STATUS.overcurrent : Fld := ⟨.HAP_CH_STATUS, 3, 1⟩
abbrev HAP_CH_STATUS.open_ : Fld := ⟨.HAP_CH_STATUS, 4, 1⟩
abbrev HAP_CH_STATUS.refused : Fld := ⟨.HAP_CH_STATUS, 5, 1⟩
abbrev HAP_CH_STATUS.waveform : Fld := ⟨.HAP_CH_STATUS, 8, 5⟩
abbrev HAP_CH_FIRE.waveform : Fld := ⟨.HAP_CH_FIRE, 0, 8⟩
abbrev HAP_CH_FIRE.amplitude : Fld := ⟨.HAP_CH_FIRE, 8, 8⟩
abbrev HAP_CH_FIRE.go : Fld := ⟨.HAP_CH_FIRE, 31, 1⟩
abbrev HAP_CH_CTRL.stop : Fld := ⟨.HAP_CH_CTRL, 0, 1⟩
abbrev HAP_CH_CTRL.clear_fault : Fld := ⟨.HAP_CH_CTRL, 1, 1⟩
abbrev HAP_CH_PEAK_I.ma : Fld := ⟨.HAP_CH_PEAK_I, 0, 16⟩
abbrev HAP_CH_FIRE_COUNT.count : Fld := ⟨.HAP_CH_FIRE_COUNT, 0, 32⟩
abbrev HAP_CH_DROP_COUNT.count : Fld := ⟨.HAP_CH_DROP_COUNT, 0, 32⟩
abbrev DMX_CFG.mode : Fld := ⟨.DMX_CFG, 0, 2⟩
abbrev DMX_CFG.start_code : Fld := ⟨.DMX_CFG, 8, 8⟩
abbrev DMX_CFG.slot_count : Fld := ⟨.DMX_CFG, 16, 10⟩
abbrev DMX_TIMING.break_us : Fld := ⟨.DMX_TIMING, 0, 10⟩
abbrev DMX_TIMING.mab_us : Fld := ⟨.DMX_TIMING, 16, 10⟩
abbrev DMX_TIMING2.interslot_us : Fld := ⟨.DMX_TIMING2, 0, 7⟩
abbrev DMX_TIMING2.refresh_ms : Fld := ⟨.DMX_TIMING2, 16, 10⟩
abbrev DMX_BUF_LO.addr : Fld := ⟨.DMX_BUF_LO, 6, 26⟩
abbrev DMX_BUF_HI.addr : Fld := ⟨.DMX_BUF_HI, 0, 16⟩
abbrev DMX_CTRL.commit : Fld := ⟨.DMX_CTRL, 0, 1⟩
abbrev DMX_CTRL.rdm_go : Fld := ⟨.DMX_CTRL, 1, 1⟩
abbrev DMX_CTRL.rdm_kind : Fld := ⟨.DMX_CTRL, 2, 1⟩
abbrev DMX_STATUS.state : Fld := ⟨.DMX_STATUS, 0, 2⟩
abbrev DMX_STATUS.refused : Fld := ⟨.DMX_STATUS, 2, 1⟩
abbrev DMX_STATUS.rdm_held : Fld := ⟨.DMX_STATUS, 3, 1⟩
abbrev DMX_STATUS.rdm_result : Fld := ⟨.DMX_STATUS, 4, 3⟩
abbrev DMX_RX_INFO.slots : Fld := ⟨.DMX_RX_INFO, 0, 10⟩
abbrev DMX_RX_INFO.half : Fld := ⟨.DMX_RX_INFO, 10, 1⟩
abbrev DMX_RX_INFO.start_code : Fld := ⟨.DMX_RX_INFO, 16, 8⟩
abbrev DMX_RX_INFO.valid : Fld := ⟨.DMX_RX_INFO, 31, 1⟩
abbrev DMX_RX_ST_LO.value : Fld := ⟨.DMX_RX_ST_LO, 0, 32⟩
abbrev DMX_RX_ST_HI.value : Fld := ⟨.DMX_RX_ST_HI, 0, 32⟩
abbrev DMX_RDM_ADDR_LO.addr : Fld := ⟨.DMX_RDM_ADDR_LO, 6, 26⟩
abbrev DMX_RDM_ADDR_HI.addr : Fld := ⟨.DMX_RDM_ADDR_HI, 0, 16⟩
abbrev DMX_RDM_LEN.msg_len : Fld := ⟨.DMX_RDM_LEN, 0, 8⟩
abbrev DMX_RDM_LEN.resp_slots : Fld := ⟨.DMX_RDM_LEN, 16, 9⟩
abbrev DMX_GRID_PERIOD.ns : Fld := ⟨.DMX_GRID_PERIOD, 0, 32⟩
abbrev DMX_GRID_PHASE_LO.value : Fld := ⟨.DMX_GRID_PHASE_LO, 0, 32⟩
abbrev DMX_GRID_PHASE_HI.value : Fld := ⟨.DMX_GRID_PHASE_HI, 0, 32⟩
abbrev DMX_RDM_UID_LO.value : Fld := ⟨.DMX_RDM_UID_LO, 0, 32⟩
abbrev DMX_RDM_UID_HI.value : Fld := ⟨.DMX_RDM_UID_HI, 0, 16⟩
abbrev DMX_LATE_FETCH_COUNT.count : Fld := ⟨.DMX_LATE_FETCH_COUNT, 0, 32⟩
abbrev DMX_RX_ERR_COUNT.count : Fld := ⟨.DMX_RX_ERR_COUNT, 0, 32⟩
abbrev DMX_REFUSED_COUNT.count : Fld := ⟨.DMX_REFUSED_COUNT, 0, 32⟩
abbrev MIDI_TX.byte : Fld := ⟨.MIDI_TX, 0, 8⟩
abbrev MIDI_RX.byte : Fld := ⟨.MIDI_RX, 0, 8⟩
abbrev MIDI_RX.rt : Fld := ⟨.MIDI_RX, 8, 1⟩
abbrev MIDI_RX.ferr : Fld := ⟨.MIDI_RX, 9, 1⟩
abbrev MIDI_RX.valid : Fld := ⟨.MIDI_RX, 31, 1⟩
abbrev MIDI_RX_ST_LO.value : Fld := ⟨.MIDI_RX_ST_LO, 0, 32⟩
abbrev MIDI_RX_ST_HI.value : Fld := ⟨.MIDI_RX_ST_HI, 0, 32⟩
abbrev MIDI_STATUS.tx_level : Fld := ⟨.MIDI_STATUS, 0, 9⟩
abbrev MIDI_STATUS.rx_level : Fld := ⟨.MIDI_STATUS, 16, 9⟩
abbrev MIDI_STATUS.tx_overflow : Fld := ⟨.MIDI_STATUS, 30, 1⟩
abbrev MIDI_STATUS.rx_overflow : Fld := ⟨.MIDI_STATUS, 31, 1⟩
abbrev LTC_IN_TC.frames : Fld := ⟨.LTC_IN_TC, 0, 6⟩
abbrev LTC_IN_TC.drop_frame : Fld := ⟨.LTC_IN_TC, 6, 1⟩
abbrev LTC_IN_TC.seconds : Fld := ⟨.LTC_IN_TC, 8, 7⟩
abbrev LTC_IN_TC.minutes : Fld := ⟨.LTC_IN_TC, 16, 7⟩
abbrev LTC_IN_TC.hours : Fld := ⟨.LTC_IN_TC, 24, 6⟩
abbrev LTC_IN_ST_LO.value : Fld := ⟨.LTC_IN_ST_LO, 0, 32⟩
abbrev LTC_IN_ST_HI.value : Fld := ⟨.LTC_IN_ST_HI, 0, 32⟩
abbrev LTC_IN_USER.user : Fld := ⟨.LTC_IN_USER, 0, 32⟩
abbrev LTC_IN_STATUS.locked : Fld := ⟨.LTC_IN_STATUS, 0, 1⟩
abbrev LTC_IN_STATUS.reverse : Fld := ⟨.LTC_IN_STATUS, 1, 1⟩
abbrev LTC_IN_STATUS.clk_present : Fld := ⟨.LTC_IN_STATUS, 2, 1⟩
abbrev LTC_IN_STATUS.speed : Fld := ⟨.LTC_IN_STATUS, 8, 8⟩
abbrev LTC_OUT_CTRL.enable : Fld := ⟨.LTC_OUT_CTRL, 0, 1⟩
abbrev LTC_OUT_ANCHOR_LO.value : Fld := ⟨.LTC_OUT_ANCHOR_LO, 0, 32⟩
abbrev LTC_OUT_ANCHOR_HI.value : Fld := ⟨.LTC_OUT_ANCHOR_HI, 0, 32⟩
abbrev LTC_OUT_START.frames : Fld := ⟨.LTC_OUT_START, 0, 6⟩
abbrev LTC_OUT_START.drop_frame : Fld := ⟨.LTC_OUT_START, 6, 1⟩
abbrev LTC_OUT_START.seconds : Fld := ⟨.LTC_OUT_START, 8, 7⟩
abbrev LTC_OUT_START.minutes : Fld := ⟨.LTC_OUT_START, 16, 7⟩
abbrev LTC_OUT_START.hours : Fld := ⟨.LTC_OUT_START, 24, 6⟩
abbrev LTC_OUT_USER.user : Fld := ⟨.LTC_OUT_USER, 0, 32⟩
abbrev LTC_OUT_TC.frames : Fld := ⟨.LTC_OUT_TC, 0, 6⟩
abbrev LTC_OUT_TC.drop_frame : Fld := ⟨.LTC_OUT_TC, 6, 1⟩
abbrev LTC_OUT_TC.seconds : Fld := ⟨.LTC_OUT_TC, 8, 7⟩
abbrev LTC_OUT_TC.minutes : Fld := ⟨.LTC_OUT_TC, 16, 7⟩
abbrev LTC_OUT_TC.hours : Fld := ⟨.LTC_OUT_TC, 24, 6⟩
abbrev FADER_VAL.value : Fld := ⟨.FADER_VAL, 0, 12⟩
abbrev FADER_VAL.valid : Fld := ⟨.FADER_VAL, 12, 1⟩
abbrev FADER_INVALID.mask_ : Fld := ⟨.FADER_INVALID, 0, 32⟩
abbrev FADER_MOVED.mask_ : Fld := ⟨.FADER_MOVED, 0, 32⟩
abbrev ENC_COUNT.count : Fld := ⟨.ENC_COUNT, 0, 32⟩
abbrev ENC_ST_LO.value : Fld := ⟨.ENC_ST_LO, 0, 32⟩
abbrev ENC_ST_HI.value : Fld := ⟨.ENC_ST_HI, 0, 32⟩
abbrev ENC_ERR_COUNT.count : Fld := ⟨.ENC_ERR_COUNT, 0, 32⟩
abbrev SSI_RAW.raw : Fld := ⟨.SSI_RAW, 0, 32⟩
abbrev SSI_STATUS.last_ok : Fld := ⟨.SSI_STATUS, 0, 1⟩
abbrev SSI_STATUS.framing : Fld := ⟨.SSI_STATUS, 8, 8⟩
abbrev SSI_STATUS.monoflop : Fld := ⟨.SSI_STATUS, 16, 8⟩
abbrev SSI_STATUS.parity : Fld := ⟨.SSI_STATUS, 24, 8⟩
abbrev BUS_CFG.addr : Fld := ⟨.BUS_CFG, 0, 7⟩
abbrev BUS_CFG.wlen : Fld := ⟨.BUS_CFG, 8, 8⟩
abbrev BUS_CFG.rlen : Fld := ⟨.BUS_CFG, 16, 8⟩
abbrev BUS_DATA.data : Fld := ⟨.BUS_DATA, 0, 32⟩
abbrev BUS_CTRL.go : Fld := ⟨.BUS_CTRL, 0, 1⟩
abbrev BUS_STATUS.busy : Fld := ⟨.BUS_STATUS, 0, 1⟩
abbrev BUS_STATUS.result : Fld := ⟨.BUS_STATUS, 1, 3⟩
abbrev GPIO_IN.levels : Fld := ⟨.GPIO_IN, 0, 32⟩
abbrev GPIO_OUT.levels : Fld := ⟨.GPIO_OUT, 0, 32⟩
abbrev GPIO_SET.set_ : Fld := ⟨.GPIO_SET, 0, 32⟩
abbrev GPIO_CLR.clr : Fld := ⟨.GPIO_CLR, 0, 32⟩
abbrev GPIO_EDGE_RISE.en : Fld := ⟨.GPIO_EDGE_RISE, 0, 32⟩
abbrev GPIO_EDGE_FALL.en : Fld := ⟨.GPIO_EDGE_FALL, 0, 32⟩
abbrev GPIO_EDGE.edge : Fld := ⟨.GPIO_EDGE, 0, 32⟩
abbrev GPIO_EDGE_ST_LO.value : Fld := ⟨.GPIO_EDGE_ST_LO, 0, 32⟩
abbrev GPIO_EDGE_ST_HI.value : Fld := ⟨.GPIO_EDGE_ST_HI, 0, 32⟩
abbrev AUD_STATUS.clk_present : Fld := ⟨.AUD_STATUS, 0, 8⟩
abbrev AUD_STATUS.amp_en : Fld := ⟨.AUD_STATUS, 8, 8⟩
abbrev AUD_STATUS.rate_96k : Fld := ⟨.AUD_STATUS, 16, 1⟩
abbrev CLIP_TABLE_LO.addr : Fld := ⟨.CLIP_TABLE_LO, 4, 28⟩
abbrev CLIP_TABLE_HI.addr : Fld := ⟨.CLIP_TABLE_HI, 0, 16⟩
abbrev CLIP_COUNT.entries : Fld := ⟨.CLIP_COUNT, 0, 11⟩
abbrev SLIP_COUNT.count : Fld := ⟨.SLIP_COUNT, 0, 32⟩
abbrev BUS_IN.source : Fld := ⟨.BUS_IN, 0, 8⟩
abbrev BUS_IN.refused : Fld := ⟨.BUS_IN, 8, 1⟩
abbrev BUS_IN.gain : Fld := ⟨.BUS_IN, 16, 16⟩
abbrev BUS_GAIN.gain : Fld := ⟨.BUS_GAIN, 0, 16⟩
abbrev BUS_GAIN.gain_pending : Fld := ⟨.BUS_GAIN, 16, 1⟩
abbrev BUS_DELAY.samples : Fld := ⟨.BUS_DELAY, 0, 14⟩
abbrev BUS_EQ_A.type_ : Fld := ⟨.BUS_EQ_A, 0, 3⟩
abbrev BUS_EQ_A.hz : Fld := ⟨.BUS_EQ_A, 16, 16⟩
abbrev BUS_EQ_B.gain : Fld := ⟨.BUS_EQ_B, 0, 16⟩
abbrev BUS_EQ_B.q : Fld := ⟨.BUS_EQ_B, 16, 16⟩
abbrev BUS_EQ_COMMIT.eq_commit : Fld := ⟨.BUS_EQ_COMMIT, 0, 1⟩
abbrev BUS_LIM.enable : Fld := ⟨.BUS_LIM, 0, 1⟩
abbrev BUS_LIM.threshold : Fld := ⟨.BUS_LIM, 8, 8⟩
abbrev BUS_LIM.attack : Fld := ⟨.BUS_LIM, 16, 8⟩
abbrev BUS_LIM2.release : Fld := ⟨.BUS_LIM2, 0, 16⟩
abbrev BUS_STATUS_A.limiting : Fld := ⟨.BUS_STATUS_A, 0, 1⟩
abbrev BUS_STATUS_A.clip : Fld := ⟨.BUS_STATUS_A, 1, 1⟩
abbrev OUT_SEL.bus : Fld := ⟨.OUT_SEL, 0, 6⟩
abbrev OUT_SEL.refused : Fld := ⟨.OUT_SEL, 6, 1⟩
abbrev OUT_SEL.gain : Fld := ⟨.OUT_SEL, 16, 16⟩
abbrev PLAYER_CTRL.clip : Fld := ⟨.PLAYER_CTRL, 0, 16⟩
abbrev PLAYER_CTRL.start : Fld := ⟨.PLAYER_CTRL, 16, 1⟩
abbrev PLAYER_CTRL.stop : Fld := ⟨.PLAYER_CTRL, 17, 1⟩
abbrev PLAYER_CTRL.prime : Fld := ⟨.PLAYER_CTRL, 18, 1⟩
abbrev PLAYER_FADE.ms : Fld := ⟨.PLAYER_FADE, 0, 16⟩
abbrev PLAYER_STATUS.state : Fld := ⟨.PLAYER_STATUS, 0, 2⟩
abbrev PLAYER_STATUS.underrun : Fld := ⟨.PLAYER_STATUS, 2, 1⟩
abbrev UNDERRUN_COUNT.count : Fld := ⟨.UNDERRUN_COUNT, 0, 32⟩
abbrev TONE_CFG.kind : Fld := ⟨.TONE_CFG, 0, 2⟩
abbrev TONE_CFG.hz : Fld := ⟨.TONE_CFG, 16, 16⟩
abbrev TONE_LEVEL.level : Fld := ⟨.TONE_LEVEL, 0, 16⟩
abbrev SIL_CFG.threshold : Fld := ⟨.SIL_CFG, 0, 7⟩
abbrev SIL_CFG.hold : Fld := ⟨.SIL_CFG, 16, 10⟩
abbrev SIL_STATUS.silent : Fld := ⟨.SIL_STATUS, 0, 1⟩
abbrev SIL_STATUS.amp_en : Fld := ⟨.SIL_STATUS, 1, 1⟩
abbrev AES_CFG.enable : Fld := ⟨.AES_CFG, 0, 1⟩
abbrev AES_CFG.eth : Fld := ⟨.AES_CFG, 1, 1⟩
abbrev AES_CFG.channels : Fld := ⟨.AES_CFG, 2, 3⟩
abbrev AES_CFG.first : Fld := ⟨.AES_CFG, 8, 8⟩
abbrev AES_ADDR.ipv4 : Fld := ⟨.AES_ADDR, 0, 32⟩
abbrev AES_UDP.port : Fld := ⟨.AES_UDP, 0, 16⟩
abbrev AES_TS_OFFSET.offset : Fld := ⟨.AES_TS_OFFSET, 0, 32⟩
abbrev AES_LINK_OFFSET.ns : Fld := ⟨.AES_LINK_OFFSET, 0, 32⟩
abbrev LOSS_COUNT.count : Fld := ⟨.LOSS_COUNT, 0, 32⟩
abbrev EVT_ROUTE.isl : Fld := ⟨.EVT_ROUTE, 0, 1⟩
abbrev EVT_ROUTE.mgmt : Fld := ⟨.EVT_ROUTE, 1, 1⟩
abbrev EVT_ROUTE.aia : Fld := ⟨.EVT_ROUTE, 2, 1⟩
abbrev EVT_ROUTE.msix : Fld := ⟨.EVT_ROUTE, 3, 1⟩
abbrev EVT_ROUTE.pmu : Fld := ⟨.EVT_ROUTE, 4, 1⟩
abbrev EVT_ROUTE.hart : Fld := ⟨.EVT_ROUTE, 8, 3⟩
abbrev EVT_ROUTE.m_file : Fld := ⟨.EVT_ROUTE, 11, 1⟩
abbrev EVT_ROUTE.aia_id : Fld := ⟨.EVT_ROUTE, 12, 11⟩
abbrev EVT_ROUTE.msix_vec : Fld := ⟨.EVT_ROUTE, 24, 6⟩
abbrev EVT_MGMT_PEND.pend : Fld := ⟨.EVT_MGMT_PEND, 0, 32⟩
abbrev EVT_STICKY.sticky : Fld := ⟨.EVT_STICKY, 0, 32⟩
abbrev PF_MSIX_ADDR_LO.word : Fld := ⟨.PF_MSIX_ADDR_LO, 0, 32⟩
abbrev PF_MSIX_ADDR_HI.word : Fld := ⟨.PF_MSIX_ADDR_HI, 0, 32⟩
abbrev PF_MSIX_DATA.word : Fld := ⟨.PF_MSIX_DATA, 0, 32⟩
abbrev PF_MSIX_CTRL.mask_ : Fld := ⟨.PF_MSIX_CTRL, 0, 1⟩
abbrev PF_PBA.pending : Fld := ⟨.PF_PBA, 0, 32⟩
abbrev EVT_CUE_SRC.event : Fld := ⟨.EVT_CUE_SRC, 0, 9⟩
abbrev EVT_CUE_SRC.enable : Fld := ⟨.EVT_CUE_SRC, 31, 1⟩
abbrev EVT_CUE_OFFSET.offset_ns : Fld := ⟨.EVT_CUE_OFFSET, 0, 32⟩
abbrev EVT_CUE_ENTRY.word : Fld := ⟨.EVT_CUE_ENTRY, 0, 32⟩
abbrev EVT_CUE_STATUS.err : Fld := ⟨.EVT_CUE_STATUS, 0, 4⟩
abbrev EVT_CUE_STATUS.fail_count : Fld := ⟨.EVT_CUE_STATUS, 16, 16⟩
abbrev EVT_HAP_LINK_A.event : Fld := ⟨.EVT_HAP_LINK_A, 0, 9⟩
abbrev EVT_HAP_LINK_A.channel : Fld := ⟨.EVT_HAP_LINK_A, 12, 4⟩
abbrev EVT_HAP_LINK_A.enable : Fld := ⟨.EVT_HAP_LINK_A, 31, 1⟩
abbrev EVT_HAP_LINK_B.waveform : Fld := ⟨.EVT_HAP_LINK_B, 0, 8⟩
abbrev EVT_HAP_LINK_B.amplitude : Fld := ⟨.EVT_HAP_LINK_B, 8, 8⟩
abbrev PMC_SEL.code : Fld := ⟨.PMC_SEL, 0, 8⟩
abbrev PMC_SEL.unit : Fld := ⟨.PMC_SEL, 8, 9⟩
abbrev PMC_SEL.unit_all : Fld := ⟨.PMC_SEL, 17, 1⟩
abbrev PMC_SEL.priv : Fld := ⟨.PMC_SEL, 18, 5⟩
abbrev PMC_SEL.class_ : Fld := ⟨.PMC_SEL, 23, 2⟩
abbrev PMC_SEL.owner_en : Fld := ⟨.PMC_SEL, 25, 1⟩
abbrev PMC_SEL.addr_en : Fld := ⟨.PMC_SEL, 26, 1⟩
abbrev PMC_SEL.enable : Fld := ⟨.PMC_SEL, 27, 1⟩
abbrev PMC_SEL.mirror : Fld := ⟨.PMC_SEL, 28, 1⟩
abbrev PMC_OWNER.owner : Fld := ⟨.PMC_OWNER, 0, 8⟩
abbrev PMC_ADDR_BASE_LO.addr : Fld := ⟨.PMC_ADDR_BASE_LO, 6, 26⟩
abbrev PMC_ADDR_BASE_HI.addr : Fld := ⟨.PMC_ADDR_BASE_HI, 0, 16⟩
abbrev PMC_ADDR_LIMIT_LO.addr : Fld := ⟨.PMC_ADDR_LIMIT_LO, 6, 26⟩
abbrev PMC_ADDR_LIMIT_HI.addr : Fld := ⟨.PMC_ADDR_LIMIT_HI, 0, 16⟩
abbrev PMC_VAL_LO.count : Fld := ⟨.PMC_VAL_LO, 0, 32⟩
abbrev PMC_VAL_HI.count : Fld := ⟨.PMC_VAL_HI, 0, 16⟩
abbrev PMC_VAL_HI.ovf : Fld := ⟨.PMC_VAL_HI, 31, 1⟩
abbrev PMC_GLOBAL.freeze : Fld := ⟨.PMC_GLOBAL, 0, 1⟩
abbrev PMC_GLOBAL.reset_all : Fld := ⟨.PMC_GLOBAL, 1, 1⟩
abbrev PMC_MIRROR_OVF.ovf : Fld := ⟨.PMC_MIRROR_OVF, 0, 32⟩
abbrev PSAMP_CTRL.enable : Fld := ⟨.PSAMP_CTRL, 0, 1⟩
abbrev PSAMP_CTRL.core_mask : Fld := ⟨.PSAMP_CTRL, 8, 8⟩
abbrev PSAMP_PERIOD.period : Fld := ⟨.PSAMP_PERIOD, 0, 24⟩
abbrev PSAMP_BASE_LO.m : Fld := ⟨.PSAMP_BASE_LO, 0, 4⟩
abbrev PSAMP_BASE_LO.addr : Fld := ⟨.PSAMP_BASE_LO, 12, 20⟩
abbrev PSAMP_BASE_HI.addr : Fld := ⟨.PSAMP_BASE_HI, 0, 16⟩
abbrev PSAMP_WR.wr : Fld := ⟨.PSAMP_WR, 0, 16⟩
abbrev PSAMP_RD.rd : Fld := ⟨.PSAMP_RD, 0, 16⟩
abbrev PSAMP_WM.watermark : Fld := ⟨.PSAMP_WM, 0, 16⟩
abbrev PSAMP_LOST.count : Fld := ⟨.PSAMP_LOST, 0, 32⟩
abbrev BW_CTRL.enable : Fld := ⟨.BW_CTRL, 0, 1⟩
abbrev BW_CTRL.win_event : Fld := ⟨.BW_CTRL, 1, 1⟩
abbrev BW_WINDOW.window_us : Fld := ⟨.BW_WINDOW, 0, 20⟩
abbrev BW_SEQ.seq : Fld := ⟨.BW_SEQ, 0, 31⟩
abbrev BW_SEQ.short : Fld := ⟨.BW_SEQ, 31, 1⟩
abbrev BW_PORT_LO.bytes : Fld := ⟨.BW_PORT_LO, 0, 32⟩
abbrev BW_PORT_HI.bytes : Fld := ⟨.BW_PORT_HI, 0, 32⟩
abbrev PMU_STATE_CTRL.target : Fld := ⟨.PMU_STATE_CTRL, 0, 3⟩
abbrev PMU_STATE_CTRL.go : Fld := ⟨.PMU_STATE_CTRL, 3, 1⟩
abbrev PMU_STATE_STATUS.state : Fld := ⟨.PMU_STATE_STATUS, 0, 3⟩
abbrev PMU_STATE_STATUS.entering : Fld := ⟨.PMU_STATE_STATUS, 3, 1⟩
abbrev PMU_STATE_STATUS.last : Fld := ⟨.PMU_STATE_STATUS, 4, 3⟩
abbrev PMU_STATE_STATUS.refused : Fld := ⟨.PMU_STATE_STATUS, 8, 3⟩
abbrev PMU_STATE_STATUS.refused_clr : Fld := ⟨.PMU_STATE_STATUS, 11, 1⟩
abbrev PMU_WAKE_EN.en : Fld := ⟨.PMU_WAKE_EN, 0, 11⟩
abbrev PMU_WAKE_CAUSE.cause : Fld := ⟨.PMU_WAKE_CAUSE, 0, 11⟩
abbrev PMU_AOT_WAKE.delay_ms : Fld := ⟨.PMU_AOT_WAKE, 0, 32⟩

end Sys2Proof.Machine.F
end

