-- ==== Sys2Proof/Machine/Bytes.lean ====
section
/-! DEFINITION. Reading and writing numbers in byte lists (R5: structures in memory and in the recipe are little-endian,
frames are most significant byte first), fixed-point helpers, and the CRC-32 of R29. -/

namespace Sys2Proof.Machine

/-- The byte at an offset; bytes beyond the end read 0. -/
def u8 (b : List Byte) (o : Nat) : Nat := (b.getD o 0).toNat

/-- A little-endian number of n bytes at an offset (R5). -/
def leNat (b : List Byte) (o : Nat) : Nat → Nat
  | 0 => 0
  | n + 1 => u8 b o + 256 * leNat b (o + 1) n

/-- Two bytes, little-endian. -/
def u16 (b : List Byte) (o : Nat) : Nat := leNat b o 2
/-- Four bytes, little-endian. -/
def u32 (b : List Byte) (o : Nat) : Nat := leNat b o 4
/-- Eight bytes, little-endian. -/
def u64 (b : List Byte) (o : Nat) : Nat := leNat b o 8

/-- A number read as signed in w bits. -/
def signed (w n : Nat) : Int := if n % 2 ^ w < 2 ^ (w - 1) then (n % 2 ^ w : Nat) else ((n % 2 ^ w : Nat) : Int) - 2 ^ w

/-- The low w bits of a signed number. -/
def unsignedBits (w : Nat) (i : Int) : Nat := (i % (2 ^ w : Nat)).toNat

/-- n bytes of a number, least significant first (R5). -/
def leBytes : Nat → Nat → List Byte
  | 0, _ => []
  | n + 1, v => BitVec.ofNat 8 v :: leBytes n (v / 256)

/-- n bytes of a number, most significant first (R5: frames on a wire). -/
def beBytes (n v : Nat) : List Byte := (leBytes n v).reverse

/-- The number of some bytes, the most significant first. -/
def beNat (b : List Byte) : Nat := b.foldl (fun v x => 256 * v + x.toNat) 0

/-- The bytes from an offset, at most n of them. -/
def slice (b : List Byte) (o n : Nat) : List Byte := (b.drop o).take n

/-- Bit i of a number. -/
def bit (n i : Nat) : Nat := n / 2 ^ i % 2

/-- Bits [hi:lo] of a number. -/
def bits (n hi lo : Nat) : Nat := n / 2 ^ lo % 2 ^ (hi + 1 - lo)

/-- Exactly n bytes: cut, or filled with 0. -/
def fitBytes (n : Nat) (b : List Byte) : List Byte := (b ++ List.replicate n 0).take n

/-- Every byte from an offset to another, exclusive, is 0. -/
def allZero (b : List Byte) (lo hi : Nat) : Bool := (slice b lo (hi - lo)).all (fun x => x == 0)

/-- The position of the first non-zero byte of a range, or its end. -/
def firstNonZero (b : List Byte) (lo : Nat) : Nat → Nat
  | 0 => lo
  | n + 1 => if (u8 b lo) = 0 then firstNonZero b (lo + 1) n else lo

/-- One bit of the reflected CRC-32 of R29. -/
def crc32Bit (c : BitVec 32) : BitVec 32 := if c.getLsbD 0 then (c >>> 1) ^^^ 0xEDB88320#32 else c >>> 1

/-- One byte of the reflected CRC-32. -/
def crc32Byte (c : BitVec 32) (x : Byte) : BitVec 32 :=
  crc32Bit (crc32Bit (crc32Bit (crc32Bit (crc32Bit (crc32Bit (crc32Bit (crc32Bit (c ^^^ x.zeroExtend 32))))))))

/-- CRC-32, IEEE 802.3: reflected, initial value and final XOR 0xFFFF_FFFF (R29). -/
def crc32 (b : List Byte) : Nat := (b.foldl crc32Byte 0xFFFFFFFF#32 ^^^ 0xFFFFFFFF#32).toNat

/-- Division rounded up. -/
def ceilDiv (a b : Nat) : Nat := (a + b - 1) / b

/-- Division rounded to nearest, halves away from zero (R94). -/
def roundDiv (n d : Int) : Int :=
  let n' := if d < 0 then -n else n
  let d' : Int := d.natAbs
  if 0 ≤ n' then (2 * n' + d') / (2 * d') else - ((2 * (-n') + d') / (2 * d'))

/-- A number limited to the range of a signed w-bit field. -/
def saturate (w : Nat) (i : Int) : Int := max (-(2 ^ (w - 1))) (min (2 ^ (w - 1) - 1) i)

/-- R397: value a is earlier than value b when (b − a) mod 2^64 lies from 1 to 2^63 − 1, or is exactly 2^63. -/
def earlier (a b : ST) : Bool := decide (0 < (b - a).toNat) && decide ((b - a).toNat ≤ 2 ^ 63)

/-- Not later, under R397. -/
def notLater (a b : ST) : Bool := a == b || earlier a b

/-- The signed distance a − b of two ST values taken modulo 2^64 (R397). -/
def stDiff (a b : ST) : Int := (a - b).toInt

/-- A sum of an ST and a signed distance, modulo 2^64 (R397). -/
def stAdd (a : ST) (d : Int) : ST := a + BitVec.ofInt 64 d

/-- Serial-number order on 32 bits: a is lower than b. -/
def serialBefore (a b : W32) : Bool := decide (0 < (b - a).toNat) && decide ((b - a).toNat < 2 ^ 31)

end Sys2Proof.Machine
end

