-- ==== Sys2Proof/Machine/Recipe.lean ====
section
/-! DEFINITION. A recipe as the sections of its image (R28 to R31), and one accessor for each field that the rest of the
model reads, named as the chapter of the section names it. An absent optional section is empty, so that each of its
fields reads 0 and its block is left disabled (R31). -/

namespace Sys2Proof.Machine

/-- The sections of one recipe image, each with its offset in the image (0: absent). -/
structure Recipe where
  size : Nat
  sections : List (Nat × Nat × List Byte)
  deriving DecidableEq, Repr

/-- No recipe: every section absent. -/
def Recipe.empty : Recipe := ⟨0, []⟩

/-- The bytes of a section; none when absent. -/
def Recipe.sec (r : Recipe) (id : Nat) : List Byte := ((r.sections.find? (fun e => e.1 == id)).map (·.2.2)).getD []

/-- The image offset of a section. -/
def Recipe.secOff (r : Recipe) (id : Nat) : Nat := ((r.sections.find? (fun e => e.1 == id)).map (·.2.1)).getD 0

/-- The section is present. -/
def Recipe.has (r : Recipe) (id : Nat) : Bool := r.sections.any (fun e => e.1 == id)

/-! PART (R35) -/
/-- Number of assured partitions. -/
def Recipe.partCount (r : Recipe) : Nat := u16 (r.sec 3) 0
/-- Most instances of the general pool. -/
def Recipe.generalMaxInstances (r : Recipe) : Nat := u16 (r.sec 3) 2
/-- Cue quota of the general pool. -/
def Recipe.generalCueQuota (r : Recipe) : Nat := u16 (r.sec 3) 4
/-- DMA channels of the general pool. -/
def Recipe.generalDma (r : Recipe) : Nat := u16 (r.sec 3) 6
/-- Raster contexts of the general pool. -/
def Recipe.generalContexts (r : Recipe) : Nat := u8 (r.sec 3) 8
/-- The bytes of partition entry e. -/
def Recipe.partEntry (r : Recipe) (e : Nat) : List Byte := slice (r.sec 3) (16 + 32 * e) 32
/-- The entry that declares partition p, if any. -/
def Recipe.partOf (r : Recipe) (p : Nat) : Option (List Byte) :=
  ((List.range r.partCount).map r.partEntry).find? (fun b => u8 b 0 == p)
/-- Partition p is declared. -/
def Recipe.partDeclared (r : Recipe) (p : Nat) : Bool := (r.partOf p).isSome
/-- The entry bytes of partition p; empty when not declared. -/
def Recipe.part (r : Recipe) (p : Nat) : List Byte := (r.partOf p).getD []
/-- Core mask of partition p. -/
def Recipe.partCores (r : Recipe) (p : Nat) : Nat := u8 (r.part p) 1
/-- World of partition p: 1 inner. -/
def Recipe.partWorld (r : Recipe) (p : Nat) : Nat := u8 (r.part p) 2
/-- Raster contexts of partition p. -/
def Recipe.partContexts (r : Recipe) (p : Nat) : Nat := u8 (r.part p) 3
/-- System SRAM base of partition p, in 64 KiB. -/
def Recipe.partSramBase (r : Recipe) (p : Nat) : Nat := u16 (r.part p) 4
/-- System SRAM size of partition p, in 64 KiB. -/
def Recipe.partSramSize (r : Recipe) (p : Nat) : Nat := u16 (r.part p) 6
/-- Carve-out index of partition p. -/
def Recipe.partCarve (r : Recipe) (p : Nat) : Nat := u8 (r.part p) 8
/-- DRAM requester port of partition p. -/
def Recipe.partPort (r : Recipe) (p : Nat) : Nat := u8 (r.part p) 9
/-- Cue quota of partition p. -/
def Recipe.partCueQuota (r : Recipe) (p : Nat) : Nat := u16 (r.part p) 10
/-- Reserved bandwidth of partition p in MB/s. -/
def Recipe.partBw (r : Recipe) (p : Nat) : Nat := u32 (r.part p) 12
/-- DMA channel mask of partition p, channels 0 to 63. -/
def Recipe.partDmaMask (r : Recipe) (p : Nat) : Nat := u64 (r.part p) 16
/-- The partition that owns a core, if any (R272: at most one). -/
def Recipe.corePartition (r : Recipe) (core : Nat) : Option Nat :=
  (List.range 8).find? (fun p => r.partDeclared p && bit (r.partCores p) core == 1)

/-! MEM (R36) -/
/-- Mapping-set identifier. -/
def Recipe.mapSet (r : Recipe) : Nat := u16 (r.sec 4) 0
/-- Bin pool size in MiB. -/
def Recipe.binPoolMib (r : Recipe) : Nat := u16 (r.sec 4) 2
/-- Number of carve-outs. -/
def Recipe.carveCount (r : Recipe) : Nat := u16 (r.sec 4) 4
/-- Length of the shed order. -/
def Recipe.shedCount (r : Recipe) : Nat := u16 (r.sec 4) 6
/-- Carve-out base, in MiB into DRAM. -/
def Recipe.carveBase (r : Recipe) (c : Nat) : Nat := u32 (r.sec 4) (16 + 16 * c)
/-- Carve-out size in MiB. -/
def Recipe.carveSize (r : Recipe) (c : Nat) : Nat := u32 (r.sec 4) (20 + 16 * c)
/-- Carve-out has inline ECC. -/
def Recipe.carveEcc (r : Recipe) (c : Nat) : Bool := u8 (r.sec 4) (24 + 16 * c) == 1
/-- Carve-out owner: a partition, or 255 for the general pool. -/
def Recipe.carveOwner (r : Recipe) (c : Nat) : Nat := u8 (r.sec 4) (25 + 16 * c)
/-- The shed order, from the first layer shed to the last. -/
def Recipe.shedOrder (r : Recipe) : List Nat :=
  (slice (r.sec 4) (16 + 16 * r.carveCount) r.shedCount).map (·.toNat)

/-! OUT (R204) -/
/-- The 80 bytes of output n. -/
def Recipe.out (r : Recipe) (n : Nat) : List Byte := slice (r.sec 5) (80 * n) 80
/-- Output n is enabled in OUT. -/
def Recipe.outEnabled (r : Recipe) (n : Nat) : Bool := u8 (r.out n) 0 == 1
/-- Output n is large (R181). -/
def Recipe.outLarge (r : Recipe) (n : Nat) : Bool := u8 (r.out n) 1 == 1
/-- Standard of output n (R205). -/
def Recipe.outStandard (r : Recipe) (n : Nat) : Nat := u8 (r.out n) 2
/-- Lanes of output n. -/
def Recipe.outLanes (r : Recipe) (n : Nat) : Nat := u8 (r.out n) 3
/-- Per-lane rate of output n in 10 Mb/s. -/
def Recipe.outRate (r : Recipe) (n : Nat) : Nat := u16 (r.out n) 4
/-- Output n is one half of a locked pair. -/
def Recipe.outPair (r : Recipe) (n : Nat) : Bool := u8 (r.out n) 6 == 1
/-- Lock source of output n: 0 FREE, 1 ST_GRID, 2 GENLOCK. -/
def Recipe.outLockSource (r : Recipe) (n : Nat) : Nat := u8 (r.out n) 7
/-- Genlock input of output n. -/
def Recipe.outGenlock (r : Recipe) (n : Nat) : Nat := u8 (r.out n) 8
/-- Genlock divide of output n. -/
def Recipe.outDivide (r : Recipe) (n : Nat) : Nat := u8 (r.out n) 9
/-- Panel depth of output n. -/
def Recipe.outDepth (r : Recipe) (n : Nat) : Nat := u8 (r.out n) 10
/-- DSC target of output n in sixteenths of a bit per pixel; 0 for none. -/
def Recipe.outDsc (r : Recipe) (n : Nat) : Nat := u16 (r.out n) 12
/-- Boot timing field j of output n: h_active, h_front, h_sync, h_back, v_active, v_front, v_sync, v_back. -/
def Recipe.outTiming (r : Recipe) (n j : Nat) : Nat := u16 (r.out n) (16 + 2 * j)
/-- Boot pixel clock of output n in kHz. -/
def Recipe.outPclk (r : Recipe) (n : Nat) : Nat := u32 (r.out n) 32
/-- Sync polarity flags of output n. -/
def Recipe.outSync (r : Recipe) (n : Nat) : Nat := u8 (r.out n) 36
/-- Largest h_active of output n. -/
def Recipe.outMaxH (r : Recipe) (n : Nat) : Nat := u16 (r.out n) 40
/-- Largest v_active of output n. -/
def Recipe.outMaxV (r : Recipe) (n : Nat) : Nat := u16 (r.out n) 42
/-- Largest pixel clock of output n in kHz. -/
def Recipe.outMaxPclk (r : Recipe) (n : Nat) : Nat := u32 (r.out n) 44
/-- Largest refresh of output n in mHz. -/
def Recipe.outMaxRefresh (r : Recipe) (n : Nat) : Nat := u32 (r.out n) 48
/-- ST of one frame start of output n's grid. -/
def Recipe.outAnchor (r : Recipe) (n : Nat) : Nat := u64 (r.out n) 52
/-- Signed lock offset of output n in ns. -/
def Recipe.outLockOffset (r : Recipe) (n : Nat) : Int := signed 32 (u32 (r.out n) 60)
/-- Substitute background of output n. -/
def Recipe.outSubBg (r : Recipe) (n : Nat) : Nat := u32 (r.out n) 64

/-! LAYER (R182) -/
/-- The 16 bytes of layer n. -/
def Recipe.layer (r : Recipe) (n : Nat) : List Byte := slice (r.sec 6) (16 * n) 16
/-- Output of layer n, or 255. An absent section assigns no layer. -/
def Recipe.layerOut (r : Recipe) (n : Nat) : Nat := if r.has 6 then u8 (r.layer n) 0 else 255
/-- Layer n is used. -/
def Recipe.layerUsed (r : Recipe) (n : Nat) : Bool := decide (n < 48) && r.layerOut n != 255
/-- z of layer n. -/
def Recipe.layerZ (r : Recipe) (n : Nat) : Nat := u8 (r.layer n) 1
/-- Owner code of layer n. -/
def Recipe.layerOwner (r : Recipe) (n : Nat) : Nat := u8 (r.layer n) 2
/-- Axis of layer n, or 255. -/
def Recipe.layerAxis (r : Recipe) (n : Nat) : Nat := u8 (r.layer n) 3
/-- Largest source width of layer n. -/
def Recipe.layerMaxW (r : Recipe) (n : Nat) : Nat := u16 (r.layer n) 4
/-- Largest source height of layer n. -/
def Recipe.layerMaxH (r : Recipe) (n : Nat) : Nat := u16 (r.layer n) 6
/-- Mask of allowed formats of layer n. -/
def Recipe.layerFormats (r : Recipe) (n : Nat) : Nat := u16 (r.layer n) 8
/-- Over-fetch margin of layer n. -/
def Recipe.layerMargin (r : Recipe) (n : Nat) : Nat := u8 (r.layer n) 10

/-! TIME (R98, R99) -/
/-- Source of the recipe. -/
def Recipe.timeSource (r : Recipe) : Nat := u8 (r.sec 8) 0
/-- Port of the source. -/
def Recipe.timePort (r : Recipe) : Nat := u8 (r.sec 8) 1
/-- Slew limit in ppm. -/
def Recipe.slewPpm (r : Recipe) : Nat := u16 (r.sec 8) 2
/-- Genlock frame-rate numerator. -/
def Recipe.frameNum (r : Recipe) : Nat := u32 (r.sec 8) 4
/-- Genlock frame-rate denominator. -/
def Recipe.frameDen (r : Recipe) : Nat := u32 (r.sec 8) 8
/-- Genlock lines of a frame. -/
def Recipe.linesPerFrame (r : Recipe) : Nat := u16 (r.sec 8) 12
/-- LTC rate code. -/
def Recipe.ltcRate (r : Recipe) : Nat := u8 (r.sec 8) 14
/-- Mains frequency in Hz. -/
def Recipe.mainsHz (r : Recipe) : Nat := u8 (r.sec 8) 15
/-- ST of a grid point. -/
def Recipe.timeAnchor (r : Recipe) : Nat := u64 (r.sec 8) 16
/-- Delay from the reference event to the pin. -/
def Recipe.inputDelay (r : Recipe) : Int := signed 32 (u32 (r.sec 8) 24)
/-- Number of axes. -/
def Recipe.axisCount (r : Recipe) : Nat := u8 (r.sec 8) 28
/-- The 48 bytes of axis entry e. -/
def Recipe.axisEntry (r : Recipe) (e : Nat) : List Byte := slice (r.sec 8) (64 + 48 * e) 48
/-- The entry of axis a, if the section declares it. -/
def Recipe.axisOf (r : Recipe) (a : Nat) : Option (List Byte) :=
  ((List.range r.axisCount).map r.axisEntry).find? (fun b => u8 b 0 == a)
/-- The entry bytes of axis a. -/
def Recipe.axis (r : Recipe) (a : Nat) : List Byte := (r.axisOf a).getD []
/-- The axis that an SSI port is bound to, if any. -/
def Recipe.ssiAxis (r : Recipe) (port : Nat) : Option Nat :=
  (((List.range r.axisCount).map r.axisEntry).find? (fun b => u8 b 1 == port)).map (fun b => u8 b 0)

/-! FAB (R122, R123) -/
/-- Star number, or 0xFFFF. -/
def Recipe.fabStar (r : Recipe) : Nat := u16 (r.sec 9) 0
/-- Master priority. -/
def Recipe.masterPriority (r : Recipe) : Nat := u8 (r.sec 9) 2
/-- This star starts enumeration. -/
def Recipe.enumRoot (r : Recipe) : Bool := u8 (r.sec 9) 3 == 1
/-- Rate code of port p (R120). -/
def Recipe.portRate (r : Recipe) (p : Nat) : Nat := u8 (r.sec 9) (4 + 4 * p)
/-- Ring of port p, or 255. -/
def Recipe.portRing (r : Recipe) (p : Nat) : Nat := if r.has 9 then u8 (r.sec 9) (5 + 4 * p) else 255
/-- The express origins. -/
def Recipe.expressOrigins (r : Recipe) : List Nat :=
  if r.has 9 then ((List.range 4).map (fun k => u16 (r.sec 9) (36 + 2 * k))).filter (fun o => o != 0xFFFF) else []
/-- Constellation root key. -/
def Recipe.fabRoot (r : Recipe) : List Byte := slice (r.sec 9) 44 97
/-- Number of certificates. -/
def Recipe.certCount (r : Recipe) : Nat := u16 (r.sec 9) 144
/-- Certificate c, 176 bytes. -/
def Recipe.cert (r : Recipe) (c : Nat) : List Byte := slice (r.sec 9) (160 + 176 * c) 176

/-! IO (R341) -/
/-- Host mode. -/
def Recipe.hostMode (r : Recipe) : Nat := u8 (r.sec 10) 0
/-- USB ports enabled. -/
def Recipe.usbMask (r : Recipe) : Nat := u8 (r.sec 10) 1
/-- Number of pin entries. -/
def Recipe.pinCount (r : Recipe) : Nat := u16 (r.sec 10) 2
/-- DMX entry of port p. -/
def Recipe.dmx (r : Recipe) (p : Nat) : List Byte := slice (r.sec 10) (8 + 16 * p) 16
/-- R284: the host ports that `host_mode` of the IO section enables: 1, 2 or 4. -/
def Recipe.hostPorts (r : Recipe) : Nat := if r.hostMode = 0 then 1 else if r.hostMode = 1 then 2 else 4

/-- MIDI port m is enabled. -/
def Recipe.midiEnabled (r : Recipe) (m : Nat) : Bool := u8 (r.sec 10) (264 + 4 * m) == 1
/-- LTC entry j (inputs 0 and 1, then outputs 0 and 1) is enabled. -/
def Recipe.ltcEnabled (r : Recipe) (j : Nat) : Bool := u8 (r.sec 10) (280 + 4 * j) == 1
/-- Rate of LTC entry j. -/
def Recipe.ltcEntryRate (r : Recipe) (j : Nat) : Nat := u8 (r.sec 10) (281 + 4 * j)
/-- Fader enable mask. -/
def Recipe.faderMask (r : Recipe) : Nat := leNat (r.sec 10) 296 6
/-- Fader rail. -/
def Recipe.faderRail (r : Recipe) : Nat := u16 (r.sec 10) 302
/-- Largest shift of an intact fader. -/
def Recipe.faderShift (r : Recipe) : Nat := u16 (r.sec 10) 304
/-- Conversions to recover. -/
def Recipe.faderRecover (r : Recipe) : Nat := u8 (r.sec 10) 306
/-- Fader deadband. -/
def Recipe.faderDeadband (r : Recipe) : Nat := u8 (r.sec 10) 307
/-- Encoder enable mask. -/
def Recipe.encMask (r : Recipe) : Nat := u16 (r.sec 10) 312
/-- Glitch filter of the encoder lines, in ns. -/
def Recipe.encFilter (r : Recipe) : Nat := u16 (r.sec 10) 314
/-- SSI entry of port p. -/
def Recipe.ssi (r : Recipe) (p : Nat) : List Byte := slice (r.sec 10) (320 + 16 * p) 16
/-- Bus entry of port n: kind 1 I2C, 2 SPI. -/
def Recipe.bus (r : Recipe) (n : Nat) : List Byte := slice (r.sec 10) (448 + 8 * n) 8
/-- Owner of GPIO bank b. -/
def Recipe.gpioOwner (r : Recipe) (b : Nat) : Nat := u8 (r.sec 10) (512 + b)
/-- Pin entry e: ball, function, pad. -/
def Recipe.pin (r : Recipe) (e : Nat) : List Byte := slice (r.sec 10) (528 + 4 * e) 4
/-- The pad byte of GPIO line l of bank b, if the pin table assigns the line. -/
def Recipe.gpioPad (r : Recipe) (b l : Nat) : Option Nat :=
  (((List.range r.pinCount).map r.pin).find? (fun e => u16 e 0 == 32 * b + l && u8 e 2 == 1)).map (fun e => u8 e 3)
/-- Peripheral function k is placed on a ball (R387). -/
def Recipe.periph (r : Recipe) (k : Nat) : Bool :=
  (List.range r.pinCount).any (fun e => u8 (r.pin e) 2 == 2 &&
    (u16 (r.pin e) 0 == 256 + k || (decide (k ≤ 255) && u16 (r.pin e) 0 == k)))

/-! AUD (R374) -/
/-- 96 kHz rate. -/
def Recipe.aud96 (r : Recipe) : Bool := u8 (r.sec 11) 0 == 1
/-- Receive streams enabled. -/
def Recipe.aesRx (r : Recipe) : Nat := u8 (r.sec 11) 1
/-- Transmit streams enabled. -/
def Recipe.aesTx (r : Recipe) : Nat := u8 (r.sec 11) 2
/-- Entry of TDM port p. -/
def Recipe.tdm (r : Recipe) (p : Nat) : List Byte := slice (r.sec 11) (16 + 8 * p) 8
/-- Source s is allowed at slot k of bus b (R368). -/
def Recipe.slotAllows (r : Recipe) (b k s : Nat) : Bool :=
  bit (u8 (r.sec 11) (80 + 24 * (16 * b + k) + s / 8)) (s % 8) == 1
/-- Bus b is allowed at output channel o (R368). -/
def Recipe.outAllows (r : Recipe) (o b : Nat) : Bool := bit (u32 (r.sec 11) (12368 + 4 * o)) b == 1

/-! TCH and HAP (R338, R339) -/
/-- Controllers in use. -/
def Recipe.tchMask (r : Recipe) : Nat := u8 (r.sec 12) 0
/-- Controller of the wake gesture, or 255. -/
def Recipe.wakeCtrl (r : Recipe) : Nat := u8 (r.sec 12) 1
/-- Wake gesture: 1 double tap, 2 swipe. -/
def Recipe.wakeGesture (r : Recipe) : Nat := u8 (r.sec 12) 2
/-- Swipe direction. -/
def Recipe.swipeDir (r : Recipe) : Nat := u8 (r.sec 12) 3
/-- Number of regions. -/
def Recipe.regionCount (r : Recipe) : Nat := u16 (r.sec 12) 4
/-- Swipe length in nodes. -/
def Recipe.swipeLen (r : Recipe) : Nat := u8 (r.sec 12) 6
/-- The wake region. -/
def Recipe.wakeRegion (r : Recipe) : Nat := u8 (r.sec 12) 7
/-- Entry of controller c. -/
def Recipe.tch (r : Recipe) (c : Nat) : List Byte := slice (r.sec 12) (32 + 48 * c) 48
/-- Region entry e. -/
def Recipe.region (r : Recipe) (e : Nat) : List Byte := slice (r.sec 12) (224 + 16 * e) 16
/-- The region entries of controller c. -/
def Recipe.regionsOf (r : Recipe) (c : Nat) : List (List Byte) :=
  ((List.range r.regionCount).map r.region).filter (fun b => u8 b 0 == c)
/-- Haptic channels in use. -/
def Recipe.hapMask (r : Recipe) : Nat := u16 (r.sec 13) 0
/-- Number of waveforms. -/
def Recipe.waveCount (r : Recipe) : Nat := u8 (r.sec 13) 2
/-- Number of bindings. -/
def Recipe.hapBindCount (r : Recipe) : Nat := u8 (r.sec 13) 3
/-- Entry of haptic channel n. -/
def Recipe.hapCh (r : Recipe) (n : Nat) : List Byte := slice (r.sec 13) (16 + 16 * n) 16
/-- Waveform w. -/
def Recipe.wave (r : Recipe) (w : Nat) : List Byte := slice (r.sec 13) (272 + 8 * w) 8
/-- Haptic binding e. -/
def Recipe.hapBind (r : Recipe) (e : Nat) : List Byte := slice (r.sec 13) (272 + 8 * r.waveCount + 8 * e) 8

/-! DBG and PWR (R279, R74) -/
/-- Outer-world debug enables: bit 0 invasive, bit 1 non-invasive. -/
def Recipe.dbgOuter (r : Recipe) : Nat := u8 (r.sec 14) 0
/-- Inner-world debug enables. -/
def Recipe.dbgInner (r : Recipe) : Nat := u8 (r.sec 14) 1
/-- DV-440 mirror mask. -/
def Recipe.mirrorMask (r : Recipe) : Nat := u16 (r.sec 14) 2
/-- Permitted power states. -/
def Recipe.permitted (r : Recipe) : Nat := u8 (r.sec 15) 0
/-- Wake sources allowed. -/
def Recipe.wakeAllowed (r : Recipe) : Nat := u16 (r.sec 15) 2

/-! GLAZE (R226 to R229, R235) -/
/-- Outputs with glaze. -/
def Recipe.glazeMask (r : Recipe) : Nat := u8 (r.sec 7) 0
/-- Number of atlases. -/
def Recipe.atlasCount (r : Recipe) : Nat := u8 (r.sec 7) 1
/-- Number of bindings. -/
def Recipe.bindCount (r : Recipe) : Nat := u16 (r.sec 7) 2
/-- Bytes of palette n. -/
def Recipe.palette (r : Recipe) (n : Nat) : List Byte := slice (r.sec 7) (u32 (r.sec 7) 4 + 2048 * n) 2048
/-- Binding e, 16 bytes. -/
def Recipe.binding (r : Recipe) (e : Nat) : List Byte := slice (r.sec 7) (u32 (r.sec 7) 12 + 16 * e) 16
/-- Offset in the section of a list of output n: normal (false) or main offline (true). -/
def Recipe.listOff (r : Recipe) (n : Nat) (offline : Bool) : Nat :=
  u32 (r.sec 7) (32 + 16 * n + (if offline then 8 else 0))
/-- Length of that list. -/
def Recipe.listLen (r : Recipe) (n : Nat) (offline : Bool) : Nat :=
  u32 (r.sec 7) (36 + 16 * n + (if offline then 8 else 0))
/-- Bytes of that list, header included. -/
def Recipe.glazeList (r : Recipe) (n : Nat) (offline : Bool) : List Byte :=
  slice (r.sec 7) (r.listOff n offline) (r.listLen n offline)

/-- Split the records of a display list, each with its offset, by the `units` byte (R228). -/
def splitRecords (b : List Byte) (o : Nat) : Nat → List (Nat × List Byte)
  | 0 => []
  | n + 1 => (o, slice b o (16 * u8 b (o + 1))) :: splitRecords b (o + 16 * u8 b (o + 1)) n

/-- The records of a display list with their offsets. -/
def listRecords (b : List Byte) : List (Nat × List Byte) := splitRecords b 16 (u16 b 0)

end Sys2Proof.Machine
end

