-- ==== Sys2Proof/Machine/Tbl.lean ====
section
/-! DEFINITION. Sparse tables as sorted lists in one canonical form: keys strictly rising in a fixed order, and no entry
equal to what an unlisted key reads as. Registers, memory and the per-copy state of every block are held this way, so
that equal contents are equal lists. -/

namespace Sys2Proof.Machine

variable {κ α : Type}

/-- The value listed for a key, if the table lists one. -/
def lookup [DecidableEq κ] : List (κ × α) → κ → Option α
  | [], _ => none
  | (k, v) :: t, key => if k = key then some v else lookup t key

/-- The table without a key. -/
def dropKey [DecidableEq κ] : List (κ × α) → κ → List (κ × α)
  | [], _ => []
  | (k, v) :: t, key => if k = key then dropKey t key else (k, v) :: dropKey t key

/-- The table with a key placed before the first key of higher rank. -/
def place (rank : κ → Nat) : List (κ × α) → κ → α → List (κ × α)
  | [], key, v => [(key, v)]
  | (k, w) :: t, key, v => if rank key < rank k then (key, v) :: (k, w) :: t else (k, w) :: place rank t key v

/-- A write: the entry is dropped when the value is what an unlisted key reads as. -/
def putKey [DecidableEq κ] [DecidableEq α] (rank : κ → Nat) (unlisted : α) (m : List (κ × α)) (key : κ) (v : α) :
    List (κ × α) :=
  if v = unlisted then dropKey m key else place rank (dropKey m key) key v

/-- The canonical form: ranks strictly rising, no entry equal to what an unlisted key reads as. -/
def canonical [DecidableEq α] (rank : κ → Nat) (unlisted : κ → α) : List (κ × α) → Bool
  | [] => true
  | [(k, v)] => decide (v ≠ unlisted k)
  | (k, v) :: (k', v') :: t =>
    decide (v ≠ unlisted k) && decide (rank k < rank k') && canonical rank unlisted ((k', v') :: t)

/-- A table indexed by a number. -/
abbrev Tbl (α : Type) := List (Nat × α)

/-- The entry of an index, or what an unlisted index holds. -/
def Tbl.get (unlisted : α) (m : Tbl α) (i : Nat) : α := (lookup m i).getD unlisted

/-- A write of one entry. -/
def Tbl.set [DecidableEq α] (unlisted : α) (m : Tbl α) (i : Nat) (v : α) : Tbl α := putKey id unlisted m i v

/-- A change of one entry. -/
def Tbl.upd [DecidableEq α] (unlisted : α) (m : Tbl α) (i : Nat) (f : α → α) : Tbl α :=
  Tbl.set unlisted m i (f (Tbl.get unlisted m i))

/-- A set of numbers, as a table of the members. -/
def NSet.insert : List Nat → Nat → List Nat
  | [], n => [n]
  | m :: t, n => if n < m then n :: m :: t else if n = m then m :: t else m :: NSet.insert t n

/-- The set without a member. -/
def NSet.erase (l : List Nat) (n : Nat) : List Nat := l.filter (fun m => m != n)

/-- Apply a change when a condition holds. -/
def onlyIf {σ : Type} (c : Bool) (f : σ → σ) (s : σ) : σ := if c then f s else s

/-- Apply a change once for each element, in order. -/
def forEach {σ : Type} (l : List α) (f : α → σ → σ) (s : σ) : σ := l.foldl (fun s a => f a s) s

end Sys2Proof.Machine
end

