-- ==== Sys2Proof/Machine/State.lean ====
section
/-! DEFINITION. The state of one DV-880 as plain data: the registers of its map, memory, and for each block what the spec
says it holds behind its registers; the queue of waiting commands; the reasons a command can stop; and the state right
after reset. A register's word is the one home of what software can read; a block structure holds only what no register
shows. -/

namespace Sys2Proof.Machine

/-- Why a command stops with a fault. None is raised: every command of the table that the spec gives an effect answers a
next state, and the spec names no event that stops the part. Safe. -/
inductive Fault where
  /-- Raised by nothing: the spec names no fault that stops the device. -/
  | none_
  deriving DecidableEq, Repr

/-- Why a command is refused. -/
inductive Refusal where
  /-- The command has no meaning yet. Safe: nothing can be proved of it. -/
  | notModelled (mnemonic : String)
  /-- A REGISTER_WRITE into the register window of a USB host controller, whose registers the spec leaves to the xHCI
  standard and does not give (R360). Raised by execRegisterWrite. Safe: nothing follows from it. -/
  | usbHostController
  deriving DecidableEq, Repr

/-- A register copy: its name and its two indices. -/
structure RegKey where
  reg : Reg
  i : Nat
  k : Nat
  deriving DecidableEq, Repr

/-- The order of the register file: by register, then by first and second index. -/
def RegKey.rank (r : RegKey) : Nat := (r.reg.ctorIdx * 4096 + r.i) * 4096 + r.k

/-- The registers that hold another value than their reset value. -/
abbrev RegFile := List (RegKey × W32)

/-! ### Reset, boot, recipe and power -/

/-- What the island runs (R54, R61, R62). -/
inductive IslandMode where
  | inReset | booting | running | inRom
  deriving DecidableEq, Repr

/-- One OTP root key hash slot (R38, R39). -/
structure RootSlot where
  programmed : Bool
  digest : Digest
  revoked : Bool
  deriving DecidableEq, Repr

/-- OTP and stepping, which no reset changes (R34, R38, R59). -/
structure Fuses where
  rootA : RootSlot
  rootB : RootSlot
  honourHold : Bool
  stepping : Nat
  deriving DecidableEq, Repr

/-- Reset pins, holds and timers (R53 to R59), supplies and temperature (R390, R392), status pins (R54, R240), and the host link in L2
(R71). -/
structure Domains where
  porn : Bool
  island : IslandMode
  resetnLow : Bool
  filterArmed : Bool
  stuckArmed : Bool
  pinHold : Bool
  ignoring : Bool
  releaseArmed : Bool
  stuckEvent : Bool
  perst : List Nat
  suppliesOut : List Supply
  coreLost : Bool
  thermalTrip : Bool
  mainUp : Bool
  bridgeOpen : Bool
  tartalChecked : Bool
  trained : Bool
  loaderPending : Bool
  toLoader : Bool
  ddrSel : BitVec 3
  islOkPin : Bool
  mainOkPin : Bool
  thermTripn : Bool
  pcieWaken : Bool
  hostL2 : Bool
  deriving DecidableEq, Repr

/-- Where a recipe load stands (R48). -/
inductive LoadPhase where
  | idle | fetch | sign | admitting
  deriving DecidableEq, Repr

/-- The recipe being loaded, the recipes the island knows, the firmware checked, and the Eclipse digests (R48, R49, R73). -/
structure RecipeState where
  phase : LoadPhase
  image : List Byte
  loading : Recipe
  admitted : Option Recipe
  signed : Option Recipe
  earlier : Option Recipe
  otherSigned : Bool
  islandFw : Option FwImage
  tartalFw : Option FwImage
  limited : Bool
  digests : List Digest
  stored : List Digest
  deriving DecidableEq, Repr

/-- The power ladder (R66 to R73). -/
structure PowerState where
  state : Nat
  target : Nat
  exiting : Bool
  causes : Nat
  aotArmed : Bool
  lookAhead : Bool
  deriving DecidableEq, Repr

/-! ### Show time and axes -/

/-- TIME and the island time copy (R14, R79 to R89). `genFrame` is the number k of the
grid point that the last reference event stood for; `genLine` the line of the next genlock H pulse; `ticks` the ticks of the
local 1 GHz clock so far, which no step of ST moves (log entry 173). -/
structure TimeState where
  st : ST
  frac : BitVec 32
  islandCopy : ST
  adjust : Int
  goodCount : Nat
  changePending : Bool
  resetPending : Bool
  holdSince : ST
  genFrame : Int
  genLine : Option Nat
  hOff : Nat
  ltcPrev : Option Nat
  ltcDay : Nat
  ticks : Nat
  deriving DecidableEq, Repr

/-- One axis (R92 to R97): the accepted samples (stamp and position, newest first), the unwrapped value u, the count
towards `resume_count`, the frozen position, the coast deadline, the stamp of a read in progress, and the ST after which the next
multiple of the sample period starts a read. -/
structure AxisState where
  window : List (ST × Int)
  unwrapped : Option Int
  count : Nat
  frozen : Option Int
  deadline : ST
  reading : Option ST
  lastInstant : ST
  deriving DecidableEq, Repr

/-- A value latched for one agent by a low-word read (R76, R100): the register and copy it stands for. -/
structure Shadow where
  agent : Agent
  reg : Reg
  i : Nat
  value : W32
  deriving DecidableEq, Repr

/-! ### Cues -/

/-- A cue entry (R102). -/
structure CueEntry where
  key : BitVec 64
  argument : BitVec 64
  period : BitVec 32
  slack : BitVec 16
  action : Byte
  keyspec : Byte
  flags : Byte
  owner : Byte
  target : BitVec 16
  seq : W32
  deriving DecidableEq, Repr

/-- One slot of the cue table in use (R106, R108): the entry, whether it is staged, the launch ST that stands for its key,
the ST at which it is due, whether it was deferred (R109), whether it launches late whatever its delay (R115, R118), and
whether it is voided at launch because its owner was reset (R117). -/
structure CueSlot where
  entry : CueEntry
  staged : Bool
  key : ST
  due : ST
  deferred : Bool
  late : Bool
  voided : Bool
  deriving DecidableEq, Repr

/-- The cue engine (R105 to R118): the slots in use, the launch window begun and what it launched, and the last
evaluation of each axis. -/
structure CueState where
  slots : List (Nat × CueSlot)
  winStart : ST
  winCount : Nat
  axisPrev : Tbl (Option Int)
  deriving DecidableEq, Repr

/-! ### Constellation links -/

/-- What a Weahar frame carries, by class and type (R125, R130, R131, R135, R137, R141, R145, R146). -/
inductive Frame where
  | hello (version : Nat) (secure : Bool) (rate : Nat) (star : BitVec 12) (unnumbered : Bool)
  | key (certIndex : Nat) (nonce : BitVec 128) (ephemeral signature : BitVec 512)
  | finish (hash : Digest)
  | linkAck (ctr : Nat)
  | rekey
  | enum (number : BitVec 12)
  | topo (links : List TopoLink)
  | heartbeat
  | ringFault (other : BitVec 12)
  | ringHealed (linkA linkB : BitVec 12)
  | indication (indId : BitVec 16) (change : W32) (originSt : ST) (body : List Byte)
  | data (m : DataMsg)
  | reply (m : ReplyMsg)
  | bulk (appPort : Nat) (body : List Byte)
  | pdelayReq
  | pdelayResp
  | sync (st : ST)
  | announce (priority : Nat) (star : BitVec 12) (hops : Nat)
  deriving DecidableEq, Repr

/-- A frame with the header fields that do not depend on the link it takes (R126). -/
structure FabPacket where
  dst : BitVec 12
  broadcast : Bool
  src : BitVec 12
  unnumbered : Bool
  hops : Nat
  body : Frame
  deriving DecidableEq, Repr

/-- A cue or bulk frame sent and not yet acknowledged on its link (R135): its counter, how often it was sent, the frame, and
its bytes as sent. -/
structure Outstanding where
  ctr : Nat
  sends : Nat
  packet : FabPacket
  bytes : List Byte
  deriving DecidableEq, Repr

/-- The key and the salt of one direction of a link (R132). -/
structure LinkKey where
  key : List Byte
  salt : List Byte
  deriving DecidableEq, Repr

/-- A replay window (R136): the highest counter accepted and those accepted within 256 of it. -/
structure RxWindow where
  high : Nat
  seen : List Nat
  deriving DecidableEq, Repr

/-- The best master that a port's Announce named (R143): priority, star, hops to it, and the own Announce intervals since. -/
structure Heard where
  priority : Nat
  star : BitVec 12
  hops : Nat
  age : Nat
  deriving DecidableEq, Repr

/-- A HELLO that arrived while the own verify is not answered yet (R131). -/
structure HeldHello where
  hdr : FabHdr
  version : Nat
  secure : Bool
  rate : Nat
  deriving DecidableEq, Repr

/-- One port (R131 to R136, R141, R143, R146): verify tries; the handshake (HELLO and KEY of both ends as sent, own ephemeral
secret, nonces, the peer's certificate, ephemeral key and signature, what arrived early); the keys of each direction, the new
and the old ones of a rekey, the phases and their windows; missed heartbeats; unacknowledged frames; the neighbour known; the
link delay measured; and what its Announce named. -/
structure PortState where
  verifyTries : Nat
  helloDone : Bool
  heldHello : Option HeldHello
  myHello : List Byte
  peerHello : List Byte
  myKey : List Byte
  peerKey : List Byte
  secret : BitVec 256
  nonce : BitVec 128
  keyIn : Bool
  certIndex : Nat
  peerNonce : BitVec 128
  peerEphemeral : BitVec 512
  peerSignature : BitVec 512
  keysOk : Bool
  heldFinish : Option (FabHdr × Digest)
  txKey : LinkKey
  rxKey : LinkKey
  newRxKey : Option LinkKey
  oldRxKey : Option LinkKey
  phaseTx : Bool
  phaseRx : Bool
  window : RxWindow
  oldWindow : RxWindow
  rekeying : Bool
  rekeyIn : Bool
  missed : Nat
  outstanding : List Outstanding
  neighbour : Option (BitVec 12)
  delayKnown : Bool
  heard : Option Heard
  deriving DecidableEq, Repr

/-- A sender's peer entry (R137, R138). -/
structure TxPeer where
  star : BitVec 12
  epoch : BitVec 16
  next : W32
  opened : Bool
  unanswered : List Nat
  waiting : List Nat
  deriving DecidableEq, Repr

/-- A recorded outcome (R139). -/
structure RxRecord where
  seq : W32
  outcome : Nat
  detail : Nat
  result : BitVec 64
  deriving DecidableEq, Repr

/-- A receiver's record of one sender (R139), newest `seq` first, and when its last message came. -/
structure RxPeer where
  star : BitVec 12
  epoch : BitVec 16
  records : List RxRecord
  last : ST
  deriving DecidableEq, Repr

/-- What a send slot holds of the message it sent (R137, R138): its path bound D in ns, the time of its first send, and how
often it was repeated. -/
structure SlotState where
  dst : BitVec 12
  msg : Option DataMsg
  bound : Nat
  sentSt : ST
  repeats : Nat
  deriving DecidableEq, Repr

/-- The current state of one indication (R130): as originated, or as last accepted from an origin. -/
structure Indication where
  origin : BitVec 12
  indId : BitVec 16
  change : W32
  originSt : ST
  body : List Byte
  sentSt : ST
  deriving DecidableEq, Repr

/-- A copy waiting for an express send slot (R130): the indication, which copy of three, and when it fell due. -/
structure IndCopy where
  indId : BitVec 16
  copy : Nat
  due : ST
  deriving DecidableEq, Repr

/-- The walk of ENUM through this star (R145): how often it passed each ring, the rings that this star entered it into, the
ring and port by which it goes on when they are done, and an ENUM waiting for a link. -/
structure EnumWalk where
  passes : Tbl Nat
  entered : List Nat
  onward : Option (Nat × Nat)
  held : Option (Nat × FabPacket)
  deriving DecidableEq, Repr

/-- FAB (R120 to R148): enabled at admission (R123), ports, topology from TOPO and the TOPO lists that this star sent, peers,
send slots, indications originated and accepted, the priority of the master known and the own Announce intervals since it was
last heard, rings opened by a heal, the walk of ENUM, and whether the number held came by it. -/
structure FabState where
  enabled : Bool
  ports : Tbl PortState
  topology : List (BitVec 12 × List TopoLink)
  ownTopo : List (List TopoLink)
  txPeers : List TxPeer
  rxPeers : List RxPeer
  slots : Tbl SlotState
  origin : List Indication
  copies : List IndCopy
  accepted : List Indication
  masterPriority : Nat
  masterSilent : Nat
  openRings : List Nat
  walk : EnumWalk
  byEnum : Bool
  deriving DecidableEq, Repr

/-! ### Layer composition -/

/-- One of the three register copies of R187 as 22 words, in the order of the offsets 0x04 to 0x58 of a layer window. -/
abbrev LayerSet := List W32

/-- The layer registers after reset (R202): LAYER_CTRL 0x00FF_FF00, LAYER_FMT 5, all others 0. -/
def LayerSet.initial : LayerSet := [0x00FFFF00, 5] ++ List.replicate 20 0

/-- A frame of a layer's queue (R189 to R191, R198). `ref` is the page-7 warp reference. -/
structure QFrame where
  tag : BitVec 16
  addr : BitVec 64
  nb : ST
  da : ST
  changed : Bool
  ref : Option Int
  flipped : Bool
  deriving DecidableEq, Repr

/-- A release record (R193). -/
structure RelRec where
  tag : BitVec 16
  status : Nat
  st : ST
  deriving DecidableEq, Repr

/-- A rectangle of segments that one opaque area of a covering layer contains: columns and bands, ends included (R196). -/
structure SegRect where
  c0 : Nat
  c1 : Nat
  b0 : Nat
  b1 : Nat
  deriving DecidableEq, Repr

/-- The image that cursor memory holds (R200): its width and its ARGB8888 words, row by row. -/
structure CursorImage where
  width : Nat
  words : List W32
  deriving DecidableEq, Repr

/-- One layer (R187 to R202): queued frames (oldest first, without the current one), the current frame, its warp reference
p_ref, pending and live register sets, release FIFO, hidden by a reset of its owner until enabled, the terms clamped in the
current frame, the last warp (dx, dy in 1/2^32 pixel, θ in 1/2^32 degree); of a cursor layer the frames that the current one
replaced and that are not released yet (oldest first), whether the copy of the current one runs, the image shown, how many of
the replaced frames came before it and go at the next frame start, and an image that came too late for the running frame with
that number; the segments not fetched, whether the last frame start selected a frame, and whether the layer is shed or hidden
from the next frame start on. -/
structure LayerState where
  queue : List QFrame
  current : Option QFrame
  pRef : Int
  pending : Option LayerSet
  live : LayerSet
  rel : List RelRec
  hidden : Bool
  clamped : Bool
  warp : Int × Int × Int
  old : List QFrame
  copying : Bool
  image : Option CursorImage
  lag : Nat
  ready : Option (CursorImage × Nat)
  skips : List SegRect
  fresh : Bool
  shedding : Bool
  leaving : Bool
  deriving DecidableEq, Repr

/-- A layer after reset (R202). -/
def LayerState.initial : LayerState :=
  ⟨[], none, 0, none, LayerSet.initial, [], false, false, (0, 0, 0), [], false, none, 0, none, [], false, false, false⟩

/-- CMP: the layers, and the background and dither mode that each output latched at its last frame start. -/
structure CmpState where
  layers : Tbl LayerState
  liveBg : Tbl W32
  liveDither : Tbl Nat
  deriving DecidableEq, Repr

/-! ### Output tails -/

/-- The timing in force on an output (R204, R213): h_active, h_front, h_sync, h_back, v_active, v_front, v_sync, v_back,
pclk_khz and the sync polarities. -/
structure Timing where
  hActive : Nat
  hFront : Nat
  hSync : Nat
  hBack : Nat
  vActive : Nat
  vFront : Nat
  vSync : Nat
  vBack : Nat
  pclk : Nat
  sync : Nat
  deriving DecidableEq, Repr

/-- One output tail (R209 to R220): timing in force; consecutive frame starts within 4 ns; the correction of v_front in
lines and of the pixel clock in ppm; frames counted from enable; last frame start; the sink has a DSC decoder; signature and
freeze settings in force (windows as position and size words); signatures of the last frame and whether one is known; the
running CRCs of the four windows and of the heartbeat; the last good pixel of main content, at panel depth (R218); the
running frame should change; underrun lines in this frame; frames without change (PSR); the glaze changed since the last
frame start; stopped by an apply until training succeeds and a frame starts; the link state before Twilight. -/
structure OutState where
  timing : Timing
  good : Nat
  vAdjust : Int
  pclkTrim : Int
  frames : Nat
  lastFs : ST
  sinkDsc : Bool
  frzCtrl : W32
  frzWin : List (W32 × W32)
  sigs : List W32
  sigKnown : Bool
  sigAcc : List W32
  hbAcc : W32
  lastGood : W32
  shouldChange : Bool
  underrunFrame : Bool
  still : Nat
  glazeChanged : Bool
  dark : Bool
  linkWas : Nat
  deriving DecidableEq, Repr

/-- One genlock input (R83, R210, R212): ST of the last V pulse, the last period, consecutive V pulses since a loss, and
whether the reference is lost. -/
structure GenlockIn where
  lastV : Option ST
  period : Option Nat
  run : Nat
  lost : Bool
  deriving DecidableEq, Repr

/-! ### Island -/

/-- A checkpoint (R222): the island time at which it was taken, and the heartbeat phases of the outputs. What the firmware
had taken in by then is acknowledged and gone; what came later is kept outside it (R223). -/
structure Checkpoint where
  time : ST
  phases : Tbl Bool
  deriving DecidableEq, Repr

/-- One lockstep pair (R222, R224): running self-test, failed until the next island reset, the island times of its failures,
and the checkpoint that it loaded. -/
structure PairState where
  testing : Bool
  held : Bool
  fails : List ST
  loaded : Option Checkpoint
  deriving DecidableEq, Repr

/-- The lists of one buffer (R225, R234): normal and main offline. -/
structure GlazeLists where
  normal : List Byte
  offline : List Byte
  deriving DecidableEq, Repr

/-- The glaze data that one renderer reads (R225): the lists drawn, those under edit, and the bytes of the GLAZE section with
its palettes and atlases. -/
structure GlazeCopy where
  front : GlazeLists
  back : GlazeLists
  assets : List Byte
  deriving DecidableEq, Repr

/-- One renderer (R225, R238): its copy of the glaze data, held failed, the island times of its failures, reloaded and under
its whole-frame check, and no differing line in this frame. -/
structure RendState where
  copy : GlazeCopy
  held : Bool
  fails : List ST
  checking : Bool
  equal : Bool
  deriving DecidableEq, Repr

/-- A commit of one output (R234): the page, the lists and the GLAZE section that it installs, and the mailbox channels whose
GLZ_COMMIT it serves. -/
structure GlazeSnap where
  page : Nat
  lists : GlazeLists
  assets : List Byte
  chans : List Nat
  deriving DecidableEq, Repr

/-- The glaze of one output (R226 to R239): the commits on their way in order, both renderers, the first line after a switch,
a mismatch in this frame, frames without one, the heartbeat due in the next pass, its phase, the CRC of the last frame's
heartbeat, and consecutive changes of it. -/
structure GlazeOut where
  commits : List GlazeSnap
  rendA : RendState
  rendB : RendState
  switched : Bool
  mismatch : Bool
  clean : Nat
  hbDue : Bool
  hbPhase : Bool
  hbCrc : Option W32
  hbChanges : Nat
  deriving DecidableEq, Repr

/-- A GLZ_COMMIT whose reply waits for its outputs (R244). -/
structure CommitWait where
  chan : Nat
  seq : W32
  outs : List Nat
  deriving DecidableEq, Repr

/-- What a mailbox message asks for (R244, R276): malformed, a command number that no table lists, or a command with its
payload. -/
inductive MailReq where
  | malformed
  | unlisted
  | edit (immediate : Bool) (out index offset : Nat) (bytes : List Byte)
  | commit (mask : Byte)
  | read (out index : Nat)
  | alive
  | status
  | random (count : Nat)
  | seal (plain : List Byte)
  | unseal (sealed : List Byte)
  | debug
  deriving DecidableEq, Repr

/-- A mailbox message that the island has not taken yet. -/
structure Mail where
  cmd : Nat
  seq : W32
  req : MailReq
  deriving DecidableEq, Repr

/-- What the firmware has done since its newest checkpoint, and does again when it resumes from it (R223): an indication
applied, a critical touch handled (controller, region, pressed), a heartbeat toggled, a message taken. -/
inductive IslWork where
  | ind (x : Indication)
  | touch (ctrl region : Nat) (press : Bool)
  | heartbeat (out : Nat)
  | mail (chan : Nat) (m : Mail)
  deriving DecidableEq, Repr

/-- The island (R222 to R244): pairs, whether a pair runs the firmware, whether the standby resumes after an error, the two
checkpoints and which is newer, the work done since, events pending and those of them that the firmware has seen since the
checkpoint, indications and critical touches waiting for a pass, touches that a resumed pair handles again, glaze per output,
the word counter and last word of the status line, MAIN_ALIVE heard within 100 ms, mailbox messages to the main domain per
channel (oldest first), commits waiting for a reply, and the message of each channel that the firmware has not taken. -/
structure IslState where
  pairs : Tbl PairState
  firmware : Bool
  switching : Bool
  ckpt : Checkpoint × Checkpoint
  ckptNew : Bool
  work : List IslWork
  pend : List Nat
  seen : List Nat
  indications : List Indication
  touches : List (Nat × Nat × Bool)
  again : List (Nat × Nat × Bool)
  glaze : Tbl GlazeOut
  wordCount : BitVec 3
  word : BitVec 16
  alive : Bool
  rx : Tbl (List (List Byte))
  waits : List CommitWait
  mail : Tbl (Option Mail)
  deriving DecidableEq, Repr

/-! ### Memory system -/

/-- A DRAM request (R253 to R256): its number, requester, place under the mapping set, its arrival, the fill of the line buffer
that it serves in ns, the urgency at which it was issued, and how often an open-row hit passed it over. -/
structure DramReq where
  id : Nat
  req : Requester
  write : Bool
  addr : Nat
  len : Nat
  bytes : List Byte
  chan : Nat
  bank : Nat
  row : Nat
  arrived : ST
  fillNs : Nat
  urgency : Nat
  passed : Nat
  deriving DecidableEq, Repr

/-- MEM (R247 to R263): the next request number, requests waiting (oldest first) and in flight, open rows per channel and
bank, credit per port in bytes, the next port of the round robin and what is left of its weight, channels whose pause
failed once, ST of the last corrected-error event, entries of the shed order reached, channels folded out at boot, the
channels whose device reports heat, the channels whose exit pause is due, the last access of each bank, and the retraining
interval: when it began, and the first channel that it has not reached. -/
structure MemState where
  nextId : Nat
  waiting : List DramReq
  inFlight : List DramReq
  openRow : Tbl (Option Nat)
  credit : Tbl Int
  turn : Nat
  turnLeft : Nat
  failedOnce : List Nat
  ceAt : Option ST
  shedPos : Nat
  folded : List Nat
  hot : List Nat
  exiting : List Nat
  rowAt : Tbl ST
  interval : Option ST
  retrainNext : Nat
  deriving DecidableEq, Repr

/-! ### Cores -/

/-- A translation that a core's TLB holds (R269): its tags (world, VMID where the access was a guest's, ASID), the virtual page
of 4 KiB, whether the entry is global, the guest-physical page, the physical page, and the flags of the leaves of the two
stages. -/
structure CoreTlb where
  inner : Bool
  vmid : Option Nat
  asid : Nat
  page : Nat
  glob : Bool
  gpage : Nat
  ppage : Nat
  flags : Nat
  gflags : Nat
  deriving DecidableEq, Repr

/-- One application core as far as the spec gives it (R266 to R280): argument registers a0 to a5, pc, the mode of its last
command, the CSRs that a WCALL writes, those of translation and delegation, the others by number, the TLB, `mworld.pworld`, the
outer context saved by ENTER, the service vector registered by its inner partition, a halt request that waits, the predictor
structures tagged with world and VMID (history and branch targets), and the untagged ones that a world switch clears. -/
structure CoreState where
  a : List (BitVec 64)
  pc : BitVec 64
  mepc : BitVec 64
  mcause : BitVec 64
  mtval : BitVec 64
  mtinst : W32
  mode : CoreMode
  satp : BitVec 64
  vsatp : BitVec 64
  hgatp : BitVec 64
  medeleg : BitVec 64
  htinst : W32
  csrs : Tbl (BitVec 64)
  tlb : List CoreTlb
  pworld : Bool
  saved : Option (BitVec 64)
  vector : Option (BitVec 64)
  haltPending : Bool
  history : List (BitVec 64)
  targets : List (BitVec 64)
  ras : List (BitVec 64)
  indirect : List (BitVec 64)
  prefetch : List (BitVec 64)
  deriving DecidableEq, Repr

/-- A core before its release (R270: `world` and `pworld` reset to 1; `world` is CPX_STATUS). -/
def CoreState.initial : CoreState :=
  ⟨List.replicate 6 0, 0, 0, 0, 0, 0, .m, 0, 0, 0, 0, 0, [], [], true, none, none, false, [], [], [], [], []⟩

/-- Who holds the slot of a directory line (R282): a writeback of a core, or the transaction of a core that was granted. -/
inductive DirHolder where
  | writeback (core : Nat)
  | owner (core : Nat)
  deriving DecidableEq, Repr

/-- One line of a directory slice (R282): slot, waiting cores, the reserved next owner and whether it spent its first
retry. -/
structure DirLine where
  slice : Nat
  line : Nat
  holder : Option DirHolder
  waiting : List Nat
  reserved : Option Nat
  retried : Bool
  deriving DecidableEq, Repr

/-- CPX (R270 to R283): the cores, the cores that hold a copy of a line of 64 bytes as the inclusive directory tracks them,
directory lines in use and slice pointers. -/
structure CpxState where
  cores : Tbl CoreState
  copies : Tbl (List Nat)
  lines : List DirLine
  pointers : Tbl Nat
  deriving DecidableEq, Repr

/-! ### Virtual instances -/

/-- What an instance holds (R292), with the size of its aperture as a power of two (R26). -/
structure Shape where
  queues : Nat
  vectors : Nat
  contexts : Nat
  cueQuota : Nat
  dmaFirst : Nat
  dmaCount : Nat
  layers : List Nat
  dramBase : Nat
  dramSize : Nat
  aperture : Nat
  deriving DecidableEq, Repr

/-- A translation that an engine keeps (R297): owner, engine (0 GFX, 1 CMP, 2 DMA), virtual page, and the leaf entry with
the page size it maps. -/
structure TlbEntry where
  owner : Nat
  engine : Nat
  page : Nat
  leaf : BitVec 64
  size : Nat
  deriving DecidableEq, Repr

/-- VIR (R284 to R303): shapes granted, ports with VF Enable set, host ports whose link is down, functions with MSI-X Enable
set (0 the PF) and with its Function Mask set, cached translations, context slots out of the pool, the container that is being written or loaded, and the
invalidation in progress (first page and pages, 0 all). -/
structure VirState where
  shapes : Tbl (Option Shape)
  vfEnable : List Nat
  linkDown : List Nat
  msixOn : List Nat
  msixMask : List Nat
  tlb : List TlbEntry
  wedged : List Nat
  container : Tbl (List Byte)
  inv : Tbl (Option (Nat × Nat))
  deriving DecidableEq, Repr

/-! ### DMA and CRC -/

/-- One DMA channel (R307 to R316): descriptors taken in this run, the run is not finished, the
descriptor in progress waits for its CRC channel, that descriptor as it was read, and whether it could be read. -/
structure ChanState where
  taken : Nat
  unfinished : Bool
  crcWait : Bool
  desc : List Byte
  readable : Bool
  deriving DecidableEq, Repr

/-- DMA: channels, and from which ST the timers of each engine fire again (R310; key 4 × engine + timer). -/
structure DmaState where
  chans : Tbl ChanState
  timerFrom : Tbl (Option ST)
  deriving DecidableEq, Repr

/-- CRC (R319, R320): the register of each channel and the DMA channel whose descriptor feeds it. -/
structure CrcState where
  value : Tbl (BitVec 64)
  feeder : Tbl (Option Nat)
  deriving DecidableEq, Repr

/-! ### Touch and haptics -/

/-- A contact (R327): id, position in 1/64 node (oriented), strength, whether new, stale or lifted in this report. -/
structure Contact where
  id : Nat
  x : Nat
  y : Nat
  strength : Nat
  fresh : Bool
  stale : Bool
  lifted : Bool
  deriving DecidableEq, Repr

/-- A raw mutual reading at RX i, TX j, in counts. -/
structure NodeRaw where
  i : Nat
  j : Nat
  raw : Int
  deriving DecidableEq, Repr

/-- A touch frame that was scanned (R323 to R325): its grid point, hop, the thresholds it latched, the rows without a clean run,
the raw mutual readings, and the self readings of the TX rows and of the RX columns. -/
structure TouchFrame where
  fs : ST
  hop : Nat
  thresh : W32
  thresh2 : W32
  stale : List Nat
  nodes : List NodeRaw
  rows : List Nat
  cols : List Nat
  deriving DecidableEq, Repr

/-- One touch controller (R323 to R331): frame results since enable or rebaseline, results to come of frames that began before a
rebaseline, frames scanned whose result is to come (oldest
first), baselines (mutual keyed 128 × TX + RX, TX rows, RX columns; sums while the first 8 frames run), dead nodes, suspect
lines (TX rows, then 128 + RX column), frames for which a node's baseline stays frozen, consecutive negative frames of a node,
frames left and sum of its local re-baseline, last clean deltas of a row, consecutive stale and clean frames of a row, the
contacts of the last report; in Night (R333) the places of the contact that lasts, newest first, and the last short contact: its
start, end and place. -/
structure TouchCtrl where
  frames : Nat
  skip : Nat
  scans : List TouchFrame
  baseM : Tbl Rat
  baseR : Tbl Rat
  baseC : Tbl Rat
  dead : List Nat
  suspect : List Nat
  frozen : Tbl Nat
  negative : Tbl Nat
  local_ : Tbl (Nat × Int)
  clean : Tbl (List (Nat × Rat))
  staleRun : Tbl Nat
  cleanRun : Tbl Nat
  contacts : List Contact
  trail : List (ST × Nat × Nat)
  tap : Option (ST × ST × Nat × Nat)
  deriving DecidableEq, Repr

/-- A controller before its first frame. -/
def TouchCtrl.initial : TouchCtrl := ⟨0, 0, [], [], [], [], [], [], [], [], [], [], [], [], [], [], none⟩

/-- A report block latched for an agent by a header read (R332). -/
structure ReportLatch where
  agent : Agent
  ctrl : Nat
  words : List (Reg × Nat × W32)
  deriving DecidableEq, Repr

/-- Where a fire comes from, in the order of R336. -/
inductive FireSource where
  | binding (ctrl region : Nat)
  | cue (slot owner : Nat)
  | link (j : Nat)
  | register
  deriving DecidableEq, Repr

/-- One haptic channel (R334 to R336): amplitude playing, phase of the sine in samples × Hz modulo 200,000, how far the cycle has
come in the same unit, cycles done in this phase of the waveform, whether the limit held in this cycle, consecutive cycles with
the limit, overcurrent raised in this fire, peak of this cycle, first cycle over, and the sample and source of the last fire. -/
structure HapCh where
  amplitude : Nat
  phase : Nat
  prog : Nat
  cycles : Nat
  limited : Bool
  limitRun : Nat
  ocRaised : Bool
  peak : Nat
  firstDone : Bool
  firedAt : Option Nat
  source : FireSource
  deriving DecidableEq, Repr

/-- A channel that plays nothing. -/
def HapCh.initial : HapCh := ⟨0, 0, 0, 0, false, 0, false, 0, false, none, .register⟩

/-! ### Show I/O -/

/-- One DMX port (R343 to R349): the last frame sent with its start code, whether the running frame has its bytes, the ticks at
which the last frame or request started and at which its last stop bit ends; the half being filled, the ST of the break of the
frame being received, the bytes received, whether the frame is discarded; an RDM transaction queued or running (true:
discovery); and DMX_CFG, DMX_TIMING and DMX_TIMING2 as the running frame took them. -/
structure DmxPort where
  last : Option (List Byte)
  fetched : Bool
  startTick : Nat
  endTick : Nat
  rxHalf : Nat
  rxBreak : Option ST
  rxBytes : List Byte
  rxBad : Bool
  rdmQueued : Option Bool
  rdmRunning : Option Bool
  liveCfg : W32
  liveTiming : W32
  liveTiming2 : W32
  deriving DecidableEq, Repr

/-- A DMX port that has sent and received nothing. -/
def DmxPort.initial : DmxPort := ⟨none, false, 0, 0, 0, none, [], false, none, none, 0, 0, 0⟩

/-- A MIDI byte received (R350). -/
structure MidiRx where
  byte : Byte
  ferr : Bool
  st : ST
  deriving DecidableEq, Repr

/-- One MIDI port: transmit and receive FIFO, oldest first, and the ns left of the byte on the line. -/
structure MidiPort where
  tx : List Byte
  rx : List MidiRx
  left : Nat
  deriving DecidableEq, Repr

/-- What an LTC output sends by (R352): anchor, start timecode and user bits. -/
structure LtcPlan where
  anchor : ST
  start : W32
  user : W32
  deriving DecidableEq, Repr

/-- One LTC output (R352): the plan in force, and the plans written since, oldest first, each with the ST from which it may act. -/
structure LtcOut where
  plan : LtcPlan
  waiting : List (ST × LtcPlan)
  deriving DecidableEq, Repr

/-- One fader (R353, R354): the last normal conversion, consecutive passing tests, and the published value at the last
clear of its moved bit. -/
structure Fader where
  normal : Option Nat
  passes : Nat
  reference : Nat
  deriving DecidableEq, Repr

/-- One encoder (R355): filtered levels of its lines and the ST of its last count change. -/
structure Encoder where
  a : Bool
  b : Bool
  changed : ST
  deriving DecidableEq, Repr

/-- SIO: ports, the level at each GPIO ball driven from outside (key 32 × bank + line; 1 low, 2 high), the tick of the last
encoder-move event and whether a count has changed since, the ports whose VBUS an overcurrent turned off, the bytes that the
transfer on each bus port reads, and the tick of the last valid frame of each LTC input. -/
structure SioState where
  dmx : Tbl DmxPort
  midi : Tbl MidiPort
  ltcOut : Tbl LtcOut
  faders : Tbl Fader
  encoders : Tbl Encoder
  driven : Tbl Nat
  encMoveAt : Option Nat
  encChanged : Bool
  usbOff : List Nat
  busReads : Tbl Nat
  ltcSeen : Tbl Nat
  deriving DecidableEq, Repr

/-! ### Audio -/

/-- A gain that waits for its step (R369). -/
structure GainPend where
  point : GainPoint
  gain : BitVec 16
  deadline : ST
  deriving DecidableEq, Repr

/-- What crossfades (R369). -/
inductive FadePoint where
  | mux (m : MuxPoint)
  | delay (b : Nat)
  deriving DecidableEq, Repr

/-- A crossfade of a multiplexer or a delay (R369): from what, to what, and the ST at which it ends. -/
structure Fade where
  point : FadePoint
  old : Nat
  new : Nat
  endSt : ST
  deriving DecidableEq, Repr

/-- A clip that a player holds (R370): its table entry, the samples fetched ahead, the next to play first, the number of the next
to play, and whether `prime` fetched its first. -/
structure ClipRun where
  entry : List Byte
  ahead : List Rat
  pos : Nat
  fromPrime : Bool
  deriving DecidableEq, Repr

/-- A linear fade (R369, R370): the ST at which it starts and ends, and the level from which it falls. -/
structure FadeOut where
  start : ST
  stop : ST
  level : Rat
  deriving DecidableEq, Repr

/-- An action that a player takes at its next sample instant (R370): begin a clip, or fade out over a time. -/
inductive PlayerAct where
  | start (run : ClipRun)
  | stop (start stop : ST)
  deriving DecidableEq, Repr

/-- One sample player (R370): the clip it plays, the clip primed for a start with its number, actions that wait, its fade, the
samples left of a replaced clip with the ST at which the crossfade from them ends, and underrun raised since the start. -/
structure Player where
  run : ClipRun
  primed : Option (Nat × ClipRun)
  acts : List PlayerAct
  fade : Option FadeOut
  cross : Option (ST × List Rat)
  underrunRaised : Bool
  deriving DecidableEq, Repr

/-- No clip. -/
def ClipRun.initial : ClipRun := ⟨[], [], 0, false⟩

/-- A player at rest. -/
def Player.initial : Player := ⟨ClipRun.initial, none, [], none, none, false⟩

/-- A sample for an output channel: the channel, the bus that feeds it, and its value, full scale 1. -/
structure OutSample where
  chan : Nat
  bus : Nat
  value : Rat
  deriving DecidableEq, Repr

/-- A packet held for a receive stream (R367): the number of its first sample, and its samples, 24-bit big-endian. -/
structure AesPacket where
  first : Nat
  payload : List Byte
  deriving DecidableEq, Repr

/-- AUD (R363 to R373): it runs; the last sample instant; gains in force and gains that wait; crossfades; EQ sets in force
and the commits that wait, each with its ST; players; tone phases in 1/fs of a cycle; quiet blocks per port; ports whose
external bit clock has stopped; packets held per receive stream; and when a loss event was last raised. Of the last instant: the
samples of the sources, the sum of each bus, its output; per bus the samples before its delay, newest first, and the samples for
which its limiter still works; the samples of output channels for the two instants before, newest first; those of each transmit
stream since its last packet, oldest first; the peak of each port in the block, and the number of the block judged last. -/
structure AudState where
  running : Bool
  instant : Nat
  gains : List (GainPoint × BitVec 16)
  pendGains : List GainPend
  fades : List Fade
  eq : Tbl (List W32)
  eqDue : List (Nat × ST)
  players : Tbl Player
  tonePhase : Tbl Nat
  quiet : Tbl Nat
  stopped : List Nat
  buffers : Tbl (List AesPacket)
  lossAt : Tbl Nat
  heard : Tbl Rat
  sums : Tbl Rat
  busOut : Tbl Rat
  lines : Tbl (List Rat)
  limiting : Tbl Nat
  pipe : List (List OutSample)
  txHeld : Tbl (List (List Rat))
  peaks : Tbl Rat
  judged : Tbl Nat
  deriving DecidableEq, Repr

/-! ### Events and counters -/

/-- EVT (R384, R385): bytes moved per port in the open window, whether a step cut it short, its number and its length in µs, and
the world under which the sample ring is written. -/
structure EvtState where
  bytes : Tbl Nat
  short : Bool
  window : Nat
  windowUs : Nat
  sampInner : Bool
  deriving DecidableEq, Repr

/-! ### What leaves the device -/

/-- Everything the device sends or drives outside, as the commands make it. -/
inductive Emission where
  /-- An 802.3br verify frame on a port (R131). -/
  | verify (port : Nat)
  /-- A Weahar frame on a port: the express MAC or, with its priority, the preemptable one (R127), what it carries, and its
  bytes from the destination MAC to the FCS (R124). -/
  | frame (port : Nat) (express : Bool) (priority : Nat) (f : Frame) (bytes : List Byte)
  /-- An MSI-X message of a function (0 the PF): address and data of its table entry. -/
  | msix (function : Nat) (vector : Nat) (addr : Nat) (value : W32)
  /-- A write to an AIA interrupt file. -/
  | aia (hart : Nat) (machine : Bool) (id : Nat) (inner : Bool)
  /-- The error response of a bus access. -/
  | busError (a : Agent)
  /-- The value that a read returns. -/
  | readValue (a : Agent) (value : W32)
  /-- The response of a DRAM or system access: data read, or an error. -/
  | response (id : Nat) (bytes : List Byte) (error : Bool)
  /-- Bytes written to host memory through a host port. -/
  | hostWrite (port : Nat) (addr : Nat) (bytes : List Byte)
  /-- A DMX frame or RDM request starts on a port: break and least mark after it in µs. -/
  | dmxBreak (port : Nat) (breakUs mabUs : Nat)
  /-- The slots of that frame, from the start code on, with the mark before each in µs. -/
  | dmxSlots (port : Nat) (gapUs : Nat) (bytes : List Byte)
  /-- A MIDI byte. -/
  | midi (port : Nat) (byte : Byte)
  /-- An LTC frame: timecode word and user bits. -/
  | ltc (out : Nat) (timecode user : W32)
  /-- An I2C or SPI transfer starts: port, address or chip select, bytes written, bytes to read. -/
  | bus (port : Nat) (target : Nat) (bytes : List Byte) (readLen : Nat)
  /-- The glaze status word (R241). -/
  | glazeWord (w : BitVec 16)
  /-- The drive of a haptic channel: peak-to-peak target in 0.1 V at the element, the phase of the sine in 1/200,000 of a cycle,
  whether it is in anti-phase (R334), and HAPn_EN. -/
  | haptic (ch : Nat) (deciVolt phase : Nat) (anti enabled : Bool)
  /-- The clocks of one SSI read (R356). -/
  | ssiClock (port : Nat) (clocks : Nat)
  /-- The value that a read of a CSR returns to its core. -/
  | csr (core number : Nat) (value : BitVec 64)
  /-- A core takes an exception: its cause. -/
  | coreTrap (core : Nat) (cause : Nat)
  /-- A link of an output starts training at a number of lanes and a rate, with DSC (R207): target rate in 1/16 bit per pixel
  (0 for none), slices per line, slice height, block prediction. -/
  | linkTrain (out : Nat) (lanes rate : Nat) (dscBpp slices sliceHeight : Nat) (blockPrediction : Bool)
  /-- The pixels of an active line at the PHY input of an output (R17, R230): R[29:20], G[19:10], B[9:0], each channel
  left-aligned from panel depth. -/
  | scanLine (out line : Nat) (pixels : List W32)
  /-- AMPn_EN. -/
  | ampEn (port : Nat) (level : Bool)
  /-- USBn_VBUS_EN. -/
  | vbus (port : Nat) (level : Bool)
  /-- An Unsupported Request or completer abort on a host port. -/
  | unsupported (port : Nat)
  /-- A directory answer to a core (R282). -/
  | directory (slice line core : Nat) (granted : Bool)
  /-- A frame of an audio port leaves at an instant: one word of the port's size per channel, left-aligned on the line (R365). -/
  | audioFrame (port instant : Nat) (words : List Int)
  /-- One audio packet of a transmit stream (R367): Ethernet port, IPv4 address, UDP port and DSCP, the RTP timestamp of its first
  sample, and its samples, 24-bit big-endian. -/
  | aes67 (stream eth : Nat) (addr : W32) (udp dscp : Nat) (timestamp : Nat) (payload : List Byte)
  deriving DecidableEq, Repr

/-! ### Raster engine -/

/-- What a waiting context waits for (R156, R157): an ST, or a compare of the 64-bit word at a virtual address. -/
inductive GfxWait where
  | untilSt (st : ST)
  | onValue (addr : Nat) (value : BitVec 64) (compare : Nat)
  deriving DecidableEq, Repr

/-- A fragment of a pass that has not retired: the number of its primitive (R165), the pipeline and dynamic state bound at its
draw, whether its shader uses the interlock (R166), and the fragment. -/
structure PendFrag where
  num : W32
  pipe : List Byte
  dyn : List Byte
  interlock : Bool
  frag : Frag
  deriving DecidableEq, Repr

/-- A pass in progress (R159 to R166): descriptor, render mode now (true: binned), tile (1: 32 × 32), AUTO not yet decided,
the two flags of the status record, draws and primitives so far, bin bytes used since the last release, chunks held, their
peak, partial renders, and the ST of PASS_BEGIN; whether memory holds what the pass has rendered so far, so that its load
operations are done; the next primitive number; the fragments binned and not rendered; and the pixels rendered in tile memory
and not written out, by attachment, place and sample. -/
structure PassState where
  desc : List Byte
  binned : Bool
  tile : Nat
  undecided : Bool
  autoFlush : Bool
  forced : Bool
  draws : Nat
  prims : Nat
  binBytes : Nat
  chunks : Nat
  peak : Nat
  partials : Nat
  start : ST
  loaded : Bool
  number : W32
  work : List PendFrag
  image : Tbl (Option (List Byte))
  deriving DecidableEq, Repr

/-- A bound state object, with its bytes as read at bind time (R158); a descriptor set with its table. -/
structure Binding where
  type : Nat
  slot : Nat
  bytes : List Byte
  deriving DecidableEq, Repr

/-- What the containers of the bound pipeline say (R150, R166, R176): the fragment shader uses the interlock, the largest
`vgprs`, and `local_bytes` and the workgroup's size of a compute shader. -/
structure PipeInfo where
  interlock : Bool
  vgprs : Nat
  localBytes : Nat
  group : Nat
  deriving DecidableEq, Repr

/-- The last draw or dispatch that a context started (R150, R156, R157): the counts of its packet or record, the indices that
it drew with, the constant block it saw, and how many waves each SIMD or workgroups each core may keep resident. -/
structure Launch where
  counts : List W32
  indices : List Nat
  consts : Tbl W32
  resident : Nat
  deriving DecidableEq, Repr

/-- One raster context (R154 to R172): constant block, bindings and what the bound pipeline's containers say, pass, the CALL
buffers being executed (next address and dwords left, innermost first) and the ring offset of the outer CALL, what it waits for,
whether it waits for clusters to begin a pass (R168), and preemption, freeze, destruction or a fault (code, address, ring offset)
pending until the next preemption point; what the first-level caches of its cores may hold, its last draw or dispatch, and what
the loads and atomics of that returned. -/
structure CtxState where
  consts : Tbl W32
  bindings : List Binding
  pipe : Option PipeInfo
  pass : Option PassState
  calls : List (Nat × Nat)
  callAt : Nat
  wait : Option GfxWait
  wantsPass : Bool
  preempt : Bool
  freeze : Bool
  destroy : Bool
  pendFault : Option (Nat × Nat × Nat)
  l1 : Tbl (Option Byte)
  launched : Option Launch
  returned : List (List Byte)
  deriving DecidableEq, Repr, Inhabited

/-- A context slot just allocated. -/
def CtxState.initial : CtxState := ⟨[], [], none, none, [], 0, none, false, false, false, false, none, [], none, []⟩

/-- What a core runs (R168): a context, and graphics or compute. -/
structure CoreUse where
  ctx : Nat
  graphics : Bool
  deriving DecidableEq, Repr

/-- A byte of the raster L2 (R152): its value, and the context whose write made it dirty; none while it is clean. -/
structure L2Byte where
  value : Byte
  owner : Option Nat
  deriving DecidableEq, Repr

/-- GFX: its contexts; those that are READY or RUNNING in the order in which the scheduler takes equal priorities (R169); its 48
cores, four to a cluster (R149); and the raster L2 by physical address (R152). -/
structure GfxState where
  ctx : Tbl CtxState
  order : List Nat
  cores : Tbl (Option CoreUse)
  l2 : Tbl (Option L2Byte)
  deriving DecidableEq, Repr

/-- GFX after a main-domain reset (R173). -/
def GfxState.initial : GfxState := ⟨[], [], [], []⟩

/-! ### The whole device -/

/-- The DV-880. `ram` holds system SRAM and DRAM by physical address. `sent` is what left the device, newest first;
`raised` the events that the running command raised and that delivery has not taken yet; `draws` counts the free values
taken. These three, and `pending`, are the model's own; everything else the spec gives the device. -/
structure State where
  regs : RegFile
  ram : List Host.Cell
  fuses : Fuses
  dom : Domains
  rcp : RecipeState
  pwr : PowerState
  tim : TimeState
  axes : Tbl AxisState
  genlock : Tbl GenlockIn
  shadows : List Shadow
  cue : CueState
  fab : FabState
  gfx : GfxState
  cmp : CmpState
  outs : Tbl OutState
  isl : IslState
  mem : MemState
  cpx : CpxState
  vir : VirState
  dma : DmaState
  crc : CrcState
  tch : Tbl TouchCtrl
  latches : List ReportLatch
  hap : Tbl HapCh
  sio : SioState
  aud : AudState
  evt : EvtState
  sent : List Emission
  raised : List Nat
  draws : Nat
  pending : List Instr
  deriving DecidableEq, Repr

/-! ### Each block right after its reset -/

/-- No programmed slot, no blown fuse, stepping B0 (log entry 3). -/
def Fuses.initial : Fuses := ⟨⟨false, 0, false⟩, ⟨false, 0, false⟩, false, 2⟩

/-- ISL_PORn low: the whole device held (R54). -/
def Domains.initial : Domains :=
  { porn := false, island := .inReset, resetnLow := false, filterArmed := false, stuckArmed := false, pinHold := false,
    ignoring := false, releaseArmed := false, stuckEvent := false, perst := [], suppliesOut := [], coreLost := false,
    thermalTrip := false, mainUp := false, bridgeOpen := false, tartalChecked := false, trained := false,
    loaderPending := false, toLoader := false, ddrSel := 0, islOkPin := false, mainOkPin := false, thermTripn := true,
    pcieWaken := true, hostL2 := false }

/-- No recipe since the island reset. -/
def RecipeState.initial : RecipeState :=
  { phase := .idle, image := [], loading := Recipe.empty, admitted := none, signed := none, earlier := none,
    otherSigned := false, islandFw := none, tartalFw := none, limited := false, digests := [], stored := [] }

/-- Day, nothing entering (R66). -/
def PowerState.initial : PowerState := ⟨0, 0, false, 0, false, false⟩

/-- ST not loaded; the island time copy starts at 0 (R80). -/
def TimeState.initial : TimeState :=
  { st := 0, frac := 0, islandCopy := 0, adjust := 0, goodCount := 0, changePending := false, resetPending := false,
    holdSince := 0, genFrame := 0, genLine := none, hOff := 0, ltcPrev := none, ltcDay := 0, ticks := 0 }

/-- An axis without samples. -/
def AxisState.initial : AxisState := ⟨[], none, 0, none, 0, none, 0⟩

/-- A genlock input that has seen no V pulse. -/
def GenlockIn.initial : GenlockIn := ⟨none, none, 0, true⟩

/-- An empty cue table (R117). -/
def CueState.initial : CueState := ⟨[], 0, 0, []⟩

/-- No key. -/
def LinkKey.none : LinkKey := ⟨[], []⟩

/-- A window that has accepted nothing. -/
def RxWindow.initial : RxWindow := ⟨0, []⟩

/-- A port without a link. -/
def PortState.initial : PortState :=
  { verifyTries := 0, helloDone := false, heldHello := none, myHello := [], peerHello := [], myKey := [], peerKey := [],
    secret := 0, nonce := 0, keyIn := false, certIndex := 0, peerNonce := 0, peerEphemeral := 0, peerSignature := 0,
    keysOk := false, heldFinish := none, txKey := LinkKey.none, rxKey := LinkKey.none, newRxKey := none, oldRxKey := none,
    phaseTx := false, phaseRx := false, window := RxWindow.initial, oldWindow := RxWindow.initial, rekeying := false,
    rekeyIn := false, missed := 0, outstanding := [], neighbour := none, delayKnown := false, heard := none }

/-- A send slot that has sent nothing. -/
def SlotState.initial : SlotState := ⟨0, none, 0, 0, 0⟩

/-- No ENUM has passed. -/
def EnumWalk.initial : EnumWalk := ⟨[], [], none, none⟩

/-- FAB before admission. -/
def FabState.initial : FabState :=
  { enabled := false, ports := [], topology := [], ownTopo := [], txPeers := [], rxPeers := [], slots := [], origin := [],
    copies := [], accepted := [], masterPriority := 0, masterSilent := 0, openRings := [], walk := EnumWalk.initial,
    byEnum := false }

/-- CMP after a main-domain reset (R202). -/
def CmpState.initial : CmpState := ⟨[], [], []⟩

/-- No timing. -/
def Timing.zero : Timing := ⟨0, 0, 0, 0, 0, 0, 0, 0, 0, 0⟩

/-- An output tail after an island reset (R212: OFF). -/
def OutState.initial : OutState :=
  { timing := Timing.zero, good := 0, vAdjust := 0, pclkTrim := 0, frames := 0, lastFs := 0, sinkDsc := false,
    frzCtrl := 0, frzWin := [], sigs := [], sigKnown := false, sigAcc := [], hbAcc := 0xFFFFFFFF, lastGood := 0,
    shouldChange := false, underrunFrame := false, still := 0, glazeChanged := false, dark := false, linkWas := 0 }

/-- A lockstep pair without a failure. -/
def PairState.initial : PairState := ⟨false, false, [], none⟩

/-- Empty lists. -/
def GlazeLists.empty : GlazeLists := ⟨[], []⟩

/-- A renderer without a failure, and without glaze data. -/
def RendState.initial : RendState := ⟨⟨GlazeLists.empty, GlazeLists.empty, []⟩, false, [], false, true⟩

/-- An output without glaze. -/
def GlazeOut.initial : GlazeOut :=
  { commits := [], rendA := RendState.initial, rendB := RendState.initial, switched := false, mismatch := false, clean := 0,
    hbDue := false, hbPhase := false, hbCrc := none, hbChanges := 0 }

/-- A checkpoint that nothing has been written to. -/
def Checkpoint.initial : Checkpoint := ⟨0, []⟩

/-- The island in reset. -/
def IslState.initial : IslState :=
  { pairs := [], firmware := false, switching := false, ckpt := (Checkpoint.initial, Checkpoint.initial), ckptNew := false,
    work := [], pend := [], seen := [], indications := [], touches := [], again := [], glaze := [], wordCount := 0, word := 0,
    alive := false, rx := [], waits := [], mail := [] }

/-- MEM before boot training. -/
def MemState.initial : MemState :=
  { nextId := 0, waiting := [], inFlight := [], openRow := [], credit := [], turn := 0, turnLeft := 0, failedOnce := [],
    ceAt := none, shedPos := 0, folded := [], hot := [], exiting := [], rowAt := [], interval := none,
    retrainNext := 0 }

/-- CPX after a main-domain reset: every core in reset (R272). -/
def CpxState.initial : CpxState := ⟨[], [], [], []⟩

/-- VIR after a main-domain reset: no instance (R303); MSI-X Enable clear until a host sets it (log entry 21). -/
def VirState.initial : VirState := ⟨[], [], [], [], [], [], [], [], []⟩

/-- A channel that has run nothing. -/
def ChanState.initial : ChanState := ⟨0, false, false, [], true⟩

/-- DMA after a main-domain reset (R317). -/
def DmaState.initial : DmaState := ⟨[], []⟩

/-- CRC after a main-domain reset. -/
def CrcState.initial : CrcState := ⟨[], []⟩

/-- A MIDI port with empty FIFOs. -/
def MidiPort.initial : MidiPort := ⟨[], [], 0⟩

/-- An LTC output at rest. -/
def LtcOut.initial : LtcOut := ⟨⟨0, 0, 0⟩, []⟩

/-- A fader before its first conversion. -/
def Fader.initial : Fader := ⟨none, 0, 0⟩

/-- An encoder at rest. -/
def Encoder.initial : Encoder := ⟨false, false, 0⟩

/-- SIO after a main-domain reset (R361). -/
def SioState.initial : SioState := ⟨[], [], [], [], [], [], none, false, [], [], []⟩

/-- AUD after a main-domain reset (R373). -/
def AudState.initial : AudState :=
  { running := false, instant := 0, gains := [], pendGains := [], fades := [], eq := [], eqDue := [], players := [],
    tonePhase := [], quiet := [], stopped := [], buffers := [], lossAt := [], heard := [], sums := [], busOut := [], lines := []
    limiting := [], pipe := [], txHeld := [], peaks := [], judged := [] }

/-- EVT after a main-domain reset. -/
def EvtState.initial : EvtState := ⟨[], false, 0, 0, false⟩

/-- The machine right after reset: ISL_PORn has gone low (R54), every register at its reset value, memory with nothing
listed, nothing sent and nothing waiting. -/
def State.reset : State :=
  { regs := [], ram := [], fuses := Fuses.initial, dom := Domains.initial, rcp := RecipeState.initial,
    pwr := PowerState.initial, tim := TimeState.initial, axes := [], genlock := [], shadows := [], cue := CueState.initial,
    fab := FabState.initial, gfx := GfxState.initial, cmp := CmpState.initial, outs := [], isl := IslState.initial,
    mem := MemState.initial, cpx := CpxState.initial, vir := VirState.initial, dma := DmaState.initial,
    crc := CrcState.initial, tch := [], latches := [], hap := [], sio := SioState.initial, aud := AudState.initial,
    evt := EvtState.initial, sent := [], raised := [], draws := 0, pending := [] }

end Sys2Proof.Machine
end

