-- ==== Sys2Proof/Machine/Ops.lean ====
section
/-! DEFINITION. The named operations over registers, memory and what leaves the device, through which every meaning reads
and changes the state. -/

namespace Sys2Proof.Machine

/-! ### Registers -/

/-- What an unlisted copy of a register reads as: its value after reset (R11). -/
def Reg.initial (r : Reg) : W32 := BitVec.ofNat 32 r.info.reset

/-- A register's word. -/
def State.get (s : State) (r : Reg) (i : Nat := 0) (k : Nat := 0) : W32 :=
  (lookup s.regs ⟨r, i, k⟩).getD r.initial

/-- Store a register's word. -/
def State.put (s : State) (r : Reg) (v : W32) (i : Nat := 0) (k : Nat := 0) : State :=
  { s with regs := putKey RegKey.rank r.initial s.regs ⟨r, i, k⟩ v }

/-- The bits of a field within a word. -/
def Fld.of (f : Fld) (w : W32) : Nat := w.toNat / 2 ^ f.lo % 2 ^ f.width

/-- A word with a field replaced; bits beyond the field's width are dropped. -/
def Fld.into (f : Fld) (v : Nat) (w : W32) : W32 :=
  BitVec.ofNat 32 (w.toNat - f.of w * 2 ^ f.lo + v % 2 ^ f.width * 2 ^ f.lo)

/-- A field's value. -/
def State.fget (s : State) (f : Fld) (i : Nat := 0) (k : Nat := 0) : Nat := f.of (s.get f.reg i k)

/-- Store a field. -/
def State.fset (s : State) (f : Fld) (v : Nat) (i : Nat := 0) (k : Nat := 0) : State :=
  s.put f.reg (f.into v (s.get f.reg i k)) i k

/-- A one-bit field is 1. -/
def State.flag (s : State) (f : Fld) (i : Nat := 0) (k : Nat := 0) : Bool := s.fget f i k == 1

/-- Store a one-bit field. -/
def State.fflag (s : State) (f : Fld) (b : Bool) (i : Nat := 0) (k : Nat := 0) : State := s.fset f b.toNat i k

/-- Add 1 to a counter that wraps at its width. -/
def State.bump (s : State) (f : Fld) (i : Nat := 0) (k : Nat := 0) : State := s.fset f (s.fget f i k + 1) i k

/-- Add to a counter that wraps at its width. -/
def State.bumpBy (s : State) (f : Fld) (n : Nat) (i : Nat := 0) (k : Nat := 0) : State :=
  s.fset f (s.fget f i k + n) i k

/-- Add 1 to a counter that saturates. -/
def State.bumpSat (s : State) (f : Fld) (i : Nat := 0) (k : Nat := 0) : State :=
  s.fset f (min (s.fget f i k + 1) (2 ^ f.width - 1)) i k

/-- A 64-bit value held in two registers, low word first. -/
def State.get64 (s : State) (lo hi : Reg) (i : Nat := 0) (k : Nat := 0) : BitVec 64 :=
  s.get hi i k ++ s.get lo i k

/-- Store a 64-bit value in two registers. -/
def State.put64 (s : State) (lo hi : Reg) (v : BitVec 64) (i : Nat := 0) (k : Nat := 0) : State :=
  (s.put lo (v.truncate 32) i k).put hi ((v >>> 32).truncate 32) i k

/-- The listed copies of a register: index and word. A copy that is not listed holds the reset value. -/
def State.copies (s : State) (r : Reg) : List (Nat × W32) :=
  s.regs.filterMap (fun e => if e.1.reg = r then some (e.1.i, e.2) else none)

/-- Set one bit of a register. -/
def State.setBit (s : State) (r : Reg) (b : Nat) (i : Nat := 0) (k : Nat := 0) : State :=
  s.put r (s.get r i k ||| (1#32 <<< b)) i k

/-- Clear one bit of a register. -/
def State.clearBit (s : State) (r : Reg) (b : Nat) (i : Nat := 0) (k : Nat := 0) : State :=
  s.put r (s.get r i k &&& ~~~(1#32 <<< b)) i k

/-- Set or clear one bit of a register. -/
def State.bitTo (s : State) (r : Reg) (b : Nat) (v : Bool) (i : Nat := 0) (k : Nat := 0) : State :=
  if v then s.setBit r b i k else s.clearBit r b i k

/-- One bit of a register. -/
def State.hasBit (s : State) (r : Reg) (b : Nat) (i : Nat := 0) (k : Nat := 0) : Bool := (s.get r i k).getLsbD b

/-- Registers that a condition names take their reset values. -/
def State.dropRegs (s : State) (f : RegKey → Bool) : State := { s with regs := s.regs.filter (fun e => !f e.1) }

/-- The words of one register row take the place of those of another. -/
def State.copyWords (s : State) (src : Reg) (i : Nat) (dst : Reg) (j : Nat) : State :=
  (s.regs.filterMap (fun e => if e.1.reg = src ∧ e.1.i = i then some (e.1.k, e.2) else none)).foldr
    (fun e s => s.put dst e.2 j e.1) (s.dropRegs (fun r => r.reg == dst && r.i == j))

/-! ### Memory -/

/-- What a byte that nothing has written reads as (log entry 1). -/
def Memory.unlisted : Byte := 0

/-- The canonical form of memory: addresses strictly rising, no byte equal to what an unlisted one reads as. -/
def Memory.wf (m : List Host.Cell) : Bool := canonical id (fun _ => Memory.unlisted) m

/-- Bytes stored from an address. -/
abbrev Store := Nat × List Byte

/-- One byte of memory. -/
def Memory.read (m : List Host.Cell) (a : Nat) : Byte := (lookup m a).getD Memory.unlisted

/-- Store one byte, keeping the canonical form. -/
def Memory.write (m : List Host.Cell) (a : Nat) (v : Byte) : List Host.Cell := putKey id Memory.unlisted m a v

/-- Store bytes from an address. -/
def Memory.writeBytes (m : List Host.Cell) (a : Nat) : List Byte → List Host.Cell
  | [] => m
  | b :: t => Memory.writeBytes (Memory.write m a b) (a + 1) t

/-- Make stores in order. -/
def Memory.storeAll (m : List Host.Cell) : List Store → List Host.Cell
  | [] => m
  | w :: t => Memory.storeAll (Memory.writeBytes m w.1 w.2) t

/-- One byte of system SRAM or DRAM, by physical address. -/
def State.readByte (s : State) (a : Nat) : Byte := Memory.read s.ram a

/-- n bytes from an address. -/
def State.readBytes (s : State) (a n : Nat) : List Byte := (List.range n).map (fun i => s.readByte (a + i))

/-! ### Events, output and free values -/

/-- Raise an event (R376); delivery follows when the command's own effect is done. -/
def State.raise (s : State) (n : Nat) : State := { s with raised := s.raised ++ [n] }

/-- Send something out of the device. -/
def State.emit (s : State) (e : Emission) : State := { s with sent := e :: s.sent }

/-- Take a free value: the state after it. The value is a Config constant applied to `draws` before. -/
def State.drawn (s : State) : State := { s with draws := s.draws + 1 }

/-! ### What runs -/

/-- The main domain is out of reset. -/
def State.up (s : State) : Bool := s.dom.mainUp

/-- The main domain runs in Day or Dusk (R66). -/
def State.awake (s : State) : Bool := s.dom.mainUp && decide (s.pwr.state ≤ 1)

/-- The main domain runs in Day. -/
def State.day (s : State) : Bool := s.dom.mainUp && s.pwr.state == 0

/-- The main domain runs in Day, Dusk or Twilight (R66). -/
def State.dozing (s : State) : Bool := s.dom.mainUp && decide (s.pwr.state ≤ 2)

/-- R22, R66: a block answers while it is clocked: GFX in Day; TIME, TCH, FAB, OUT and ISL down to Twilight; the others in Day and
Dusk (log entry 79). -/
def State.clocked (s : State) (b : Block) : Bool :=
  match b with
  | .GFX => s.day
  | .TIME | .TCH | .FAB | .OUT | .ISL => s.dozing
  | _ => s.awake

/-- The recipe is admitted (R48). -/
def State.admitted (s : State) : Bool := s.fget F.SYS_RCP_STATUS.state == 2

/-- The admitted recipe; empty when none is. -/
def State.recipe (s : State) : Recipe := if s.admitted then s.rcp.admitted.getD Recipe.empty else Recipe.empty

/-- The recipe whose OUT section the tails obey: the last one that passed its signature check (R49, R233). -/
def State.tailRecipe (s : State) : Recipe := s.rcp.signed.getD Recipe.empty

/-- ST is valid (R81). -/
def State.stValid (s : State) : Bool := s.flag F.TIME_STATUS.valid

/-- The local ST copy, or the island time copy while ST is not valid (R323, R363, R385). -/
def State.gridTime (s : State) : ST := if s.stValid then s.tim.st else s.tim.islandCopy

/-- The time that the island keeps: show time while the main domain disciplines the copy, else the copy (R14). -/
def State.islandTime (s : State) : ST := s.tim.islandCopy

/-- Apply a change while the main domain is out of reset. -/
def State.whenUp (s : State) (f : State → State) : State := if s.up then f s else s

/-- Apply a change while the main domain runs in Day or Dusk. -/
def State.whenAwake (s : State) (f : State → State) : State := if s.awake then f s else s

/-- Apply a change while the main domain runs in Day. -/
def State.whenDay (s : State) (f : State → State) : State := if s.day then f s else s

/-! ### Owners (R102) -/

/-- The owner code of an agent (R102, R271). -/
def ownerOf : Agent → Nat
  | .island => 255
  | .guest i => i.val
  | .partition p => 64 + p.val
  | _ => 0

/-- The agent that an owner code names. -/
def agentOf (owner : Nat) : Agent :=
  if h : owner < 64 then (if owner = 0 then .manager else .guest ⟨owner, h⟩)
  else if h : owner < 72 then .partition ⟨owner - 64, by omega⟩
  else .island

/-- The agent is the manager or the owner named by a code. -/
def mayAct (a : Agent) (owner : Nat) : Bool :=
  a == .manager || (ownerOf a == owner && a != .inner && a != .management)

/-- The world that an owner's accesses carry: inner for a partition whose PART entry says so (R271). -/
def State.ownerInner (s : State) (owner : Nat) : Bool :=
  decide (64 ≤ owner) && decide (owner < 72) && s.recipe.partWorld (owner - 64) == 1

/-- A power of two times a signed 32.32 number is how positions are held (R93); this is 1. -/
def one32 : Int := 4294967296

end Sys2Proof.Machine
end

