-- ==== Sys2Proof/Machine/AudGrid.lean ====
section
/-! DEFINITION. The sample grid of audio (R363): the instants, and what a step of ST does to the ports. -/

namespace Sys2Proof.Machine

/-- The sample rate of a recipe in Hz. -/
def Recipe.audFs (r : Recipe) : Nat := if r.aud96 then 96000 else 48000

/-- The ST of instant n. -/
def instantNs (fs n : Nat) : Nat := n * 1000000000 / fs

/-- The last instant at or before an ST. -/
def instantIndex (fs t : Nat) : Nat := ((t + 1) * fs - 1) / 1000000000

/-- The instant that lies at an ST, if one does. -/
def instantAt (fs t : Nat) : Option Nat :=
  let n := instantIndex fs t
  if instantNs fs n = t then some n else none

/-- Port p carries audio: AUD runs and its entry enables the port. -/
def State.audPort (s : State) (p : Nat) : Bool := s.aud.running && u8 (s.recipe.tdm p) 0 == 1

/-- R363: after a step every port drops or repeats the samples that the step covers. -/
def State.audStep (s : State) (old new : ST) : State :=
  let a := instantIndex s.recipe.audFs old.toNat
  let b := instantIndex s.recipe.audFs new.toNat
  forEach ((List.range 8).filter (fun p => s.audPort p && !s.aud.stopped.contains p))
    (fun p s => s.bumpBy F.SLIP_COUNT.count (a - b + (b - a)) p) s

end Sys2Proof.Machine
end

