-- ==== Sys2Proof/Machine/Holders.lean ====
section
/-! DEFINITION. Who holds what: layers, DMA channels, send slots, ports and banks by owner code (R102, R104, R182, R305), and
the slot ranges of the cue table (R402). -/

namespace Sys2Proof.Machine

/-- The island's owner code (R102). -/
def islandOwner : Nat := 255

/-- What instance i holds (R292). -/
def State.shape (s : State) (i : Nat) : Option Shape := Tbl.get none s.vir.shapes i

/-- The state of instance i (R286). -/
def State.instState (s : State) (i : Nat) : Nat := s.fget F.VIR_INST_STATE.state i

/-- An instance whose shape satisfies a condition. -/
def State.findShape (s : State) (f : Shape → Bool) : Option Nat :=
  (s.vir.shapes.find? (fun e => match e.2 with | some h => f h | none => false)).map (·.1)

/-- R182: the owner code that holds a layer; none for an unused layer. -/
def State.layerHolder (s : State) (n : Nat) : Option Nat :=
  if s.recipe.layerUsed n then
    if s.recipe.layerOwner n = 254 then some ((s.findShape (fun h => h.layers.contains n)).getD 0)
    else some (s.recipe.layerOwner n)
  else none

/-- R305: the assured partition whose PART entry sets a DMA channel. -/
def Recipe.dmaPartition (r : Recipe) (c : Nat) : Option Nat :=
  if c < 64 then (List.range 8).find? (fun p => r.partDeclared p && bit (r.partDmaMask p) c == 1) else none

/-- R305: the owner code of a DMA channel. -/
def State.dmaHolder (s : State) (c : Nat) : Nat :=
  match s.recipe.dmaPartition c with
  | some p => 64 + p
  | none =>
    if c < 64 then 0
    else (s.findShape (fun h => decide (h.dmaFirst ≤ c) && decide (c < h.dmaFirst + h.dmaCount))).getD 0

/-- The owner code of a DMX port (R341). -/
def State.dmxHolder (s : State) (p : Nat) : Nat := u8 (s.recipe.dmx p) 1

/-- R104: manager, partitions and island. -/
def privileged (owner : Nat) : Bool := owner == 0 || (decide (64 ≤ owner) && decide (owner < 72)) || owner == islandOwner

/-- R104: the owner holds the target of an action and may use the action. -/
def State.holdsTarget (s : State) (owner action target : Nat) : Bool :=
  match action with
  | 1 => s.layerHolder target == some owner
  | 2 => decide (target < 256) && s.dmaHolder target == owner
  | 3 => decide (target < 16)
  | 4 => privileged owner && (List.range 16).all (fun p => bit target p == 0 || s.dmxHolder p == owner)
  | 5 => privileged owner && decide (target < 16)
  | 6 => privileged owner && decide (target < 16)
  | 7 => privileged owner && decide (target < 16)
  | 8 => privileged owner && decide (target < 8) && s.recipe.gpioOwner target == owner
  | 9 => privileged owner && decide (target < 256) && s.fget F.FAB_SLOT_CFG.owner target == owner
  | 10 => decide (target < 4)
  | _ => false

/-! ### Slot ranges (R402) -/

/-- The cue quotas of the partitions below p, together. -/
def Recipe.quotaBelow (r : Recipe) (p : Nat) : Nat :=
  (((List.range p).filter r.partDeclared).map r.partCueQuota).sum

/-- The slots of partition p: first slot and number. -/
def Recipe.partSlots (r : Recipe) (p : Nat) : Nat × Nat :=
  (r.quotaBelow p, if r.partDeclared p then r.partCueQuota p else 0)

/-- The general range. -/
def Recipe.generalSlots (r : Recipe) : Nat × Nat := (r.quotaBelow 8, r.generalCueQuota)

/-- The unreserved slots, below the island's reserve at 4,032. -/
def Recipe.freeSlots (r : Recipe) : Nat × Nat :=
  (r.quotaBelow 8 + r.generalCueQuota, 4032 - (r.quotaBelow 8 + r.generalCueQuota))

/-- The ranges that an owner may use, in the order in which it takes slots; none before admission. -/
def State.slotRanges (s : State) (owner : Nat) : List (Nat × Nat) :=
  if s.admitted then
    if owner = 0 then [s.recipe.freeSlots]
    else if owner = islandOwner then [(4032, 64), s.recipe.freeSlots]
    else if owner < 64 then [s.recipe.generalSlots]
    else if owner < 72 then [s.recipe.partSlots (owner - 64)]
    else []
  else []

/-- A slot lies in a range that the owner may use. -/
def State.maySlot (s : State) (owner slot : Nat) : Bool :=
  (s.slotRanges owner).any (fun r => decide (r.1 ≤ slot) && decide (slot < r.1 + r.2))

/-- The slots available to an owner (R106): an instance has its quota. -/
def State.slotLimit (s : State) (owner : Nat) : Nat :=
  if 1 ≤ owner ∧ owner < 64 then ((s.shape owner).map (·.cueQuota)).getD 0
  else ((s.slotRanges owner).map (·.2)).sum

/-- The register window of an owner code in the cue block. -/
def cueWindowOf (owner : Nat) : Nat :=
  if owner = 0 then 0 else if owner < 64 then 9 + owner else if owner < 72 then owner - 63 else 73

/-- The owner code of a window (R103). -/
def windowOwner : CueWindow → Nat
  | .manager => 0
  | .partition p => 64 + p.val
  | .guest i => i.val
  | .island => islandOwner

end Sys2Proof.Machine
end

