-- ==== Sys2Proof/Machine/MemMap.lean ====
section
/-! DEFINITION. The address map of DRAM (R20, R247 to R249), the check areas of inline ECC (R258), and uncorrectable errors (R260,
R261). -/

namespace Sys2Proof.Machine

/-- Where DRAM starts (R20). -/
def dramBase : Nat := 0x800000000

/-- Bytes in a MiB. -/
def mib : Nat := 1048576

/-- System SRAM (R20). -/
def isSram (addr : Nat) : Bool := decide (0x1000000 ≤ addr) && decide (addr < 0x2000000)

/-- DRAM within the installed capacity (R20, R21, R247). -/
def State.isDram (s : State) (addr : Nat) : Bool :=
  decide (dramBase ≤ addr) && decide (addr < dramBase + s.fget F.MEM_CAPACITY.usable_mib * mib)

/-- System SRAM or DRAM. -/
def State.isMemory (s : State) (addr : Nat) : Bool := isSram addr || s.isDram addr

/-- The 64 KiB that hold the ISL registers. -/
def islFenceBase : Nat := 0x1040

/-- The region table counts in 64 KiB; of the ISL registers only mailbox channel 1 is an inner region (R271). -/
def islFenced (addr : Nat) : Bool := addr / 65536 != islFenceBase || addr / 4096 == 0x10402

/-- An address lies in an inner region (R271). -/
def State.innerRegion (s : State) (addr : Nat) : Bool :=
  islFenced addr && (List.range 32).any (fun n =>
    decide ((s.get .CPX_FENCE_REGION_BASE n).toNat * 65536 ≤ addr) &&
      decide (addr < ((s.get .CPX_FENCE_REGION_BASE n).toNat + (s.get .CPX_FENCE_REGION_SIZE n).toNat) * 65536))

/-! ### Who may use which memory (R15, R20, R21) -/

/-- The partition in whose system SRAM an address lies, as the recipe carves it. -/
def State.sramPartition (s : State) (addr : Nat) : Option Nat :=
  (List.range 8).find? (fun p => s.recipe.partDeclared p &&
    decide (0x1000000 + s.recipe.partSramBase p * 65536 ≤ addr) &&
    decide (addr < 0x1000000 + (s.recipe.partSramBase p + s.recipe.partSramSize p) * 65536))

/-- The owner in MEM of the carve-out that holds a DRAM address: a partition, or 255 for the general pool. -/
def State.carveHolder (s : State) (addr : Nat) : Option Nat :=
  ((List.range s.recipe.carveCount).find? (fun c =>
    decide (dramBase + s.recipe.carveBase c * mib ≤ addr) &&
    decide (addr < dramBase + (s.recipe.carveBase c + s.recipe.carveSize c) * mib))).map s.recipe.carveOwner

/-- R15, R20, R21: an owner's accesses are admitted to a place in memory. System SRAM is for the partition that it is carved for.
A partition uses its own carve-out, every other owner what no partition's carve-out holds. Accesses of the inner world reach every
carve-out (R271). How far a carve-out shuts out other owners is log entry 80. -/
def State.admitsTo (s : State) (inner : Bool) (owner addr : Nat) : Bool :=
  let part := decide (64 ≤ owner) && decide (owner < 72)
  if isSram addr then
    match s.sramPartition addr with
    | some p => inner || (part && owner == 64 + p)
    | none => false
  else if s.isDram addr then
    match s.carveHolder addr with
    | some h => inner || (if h = 255 then !part else part && owner == 64 + h)
    | none => inner || !part
  else false

/-! ### The mapping sets (R248, R249) -/

/-- The bits of A that channel bit i is combined with. -/
def chanTerms (set i : Nat) : List Nat :=
  if set = 1 then [20 + i, 25 + i]
  else if set = 2 then (if i < 3 then [13 + i] else if i = 3 then [20] else [21])
  else []

/-- The bits of A that bank bit j is combined with. -/
def bankTerms (set j : Nat) : List Nat :=
  if set = 1 then [30 + j] else if set = 2 then [22 + j, 26 + j] else []

/-- Exclusive or of a home bit and of the bits named for it. -/
def mixBit (a home : Nat) (terms : List Nat) : Nat := (bit a home + (terms.map (bit a)).sum) % 2

/-- A place in DRAM: channel, bank and row. -/
structure DramPlace where
  chan : Nat
  bank : Nat
  row : Nat
  deriving DecidableEq, Repr

/-- R248: the place of offset a of the DRAM window, before any fold. -/
def mapPlace (set a : Nat) : DramPlace :=
  { chan := ((List.range 5).map (fun i => mixBit a (8 + i) (chanTerms set i) * 2 ^ i)).sum
    bank := ((List.range 4).map (fun j => mixBit a (16 + j) (bankTerms set j) * 2 ^ j)).sum
    row := a / mib }

/-- The channels that passed boot training: those that carry traffic and those that went down since. -/
def State.chanEnabled (s : State) : W32 := s.get .MEM_CHAN_ACTIVE ||| s.get .MEM_CHAN_DOWN

/-- R247: the chunks of the fold region that the map places on enabled channels, as one place for the n-th. -/
def State.foldPlace (s : State) (chunk : Nat) : DramPlace :=
  let on := (List.range 32).filter (fun c => s.chanEnabled.getLsbD c)
  let n := Config.foldChunk s.chanEnabled chunk
  { chan := on.getD (n % max 1 on.length) 0, bank := n / 32 % 16,
    row := s.fget F.MEM_CAPACITY.usable_mib + n / 512 % max 1 (s.fget F.MEM_CAPACITY.fitted_gib * 1024) }

/-- The place of a physical address in DRAM, the fold of R247 included. -/
def State.placeOf (s : State) (addr : Nat) : DramPlace :=
  let p := mapPlace (s.fget F.MEM_STATUS.map_set) (addr - dramBase)
  if s.chanEnabled.getLsbD p.chan then p else s.foldPlace ((addr - dramBase) / 256)

/-- R262: the map places an address on a channel that went down. -/
def State.onDownChannel (s : State) (addr : Nat) : Bool :=
  s.isDram addr && s.get .MEM_CHAN_DOWN != 0 && s.hasBit .MEM_CHAN_DOWN (s.placeOf addr).chan

/-! ### Inline ECC (R258) -/

/-- The carve-outs with inline ECC: base and size in bytes. -/
def State.eccCarves (s : State) : List (Nat × Nat) :=
  ((List.range s.recipe.carveCount).filter s.recipe.carveEcc).map (fun c =>
    (dramBase + s.recipe.carveBase c * mib, s.recipe.carveSize c * mib))

/-- An access of n bytes touches the check bytes of a carve-out, its top eighth. -/
def State.inCheckArea (s : State) (addr n : Nat) : Bool :=
  s.eccCarves.any (fun c => decide (c.1 + c.2 * 7 / 8 < addr + n) && decide (addr < c.1 + c.2))

/-- An address lies in a carve-out with inline ECC. -/
def State.inlineEcc (s : State) (addr : Nat) : Bool :=
  s.eccCarves.any (fun c => decide (c.1 ≤ addr) && decide (addr < c.1 + c.2))

/-! ### Uncorrectable errors (R260, R261) -/

/-- Type CHANNEL_DOWN. -/
def ueChannelDown : Nat := 4

/-- R260, R261: an uncorrectable error is counted, raised and captured. -/
def State.memUe (s : State) (port owner addr type : Nat) : State :=
  let s := s.put64 .MEM_ERR_ADDR_LO .MEM_ERR_ADDR_HI (BitVec.ofNat 64 (addr % 2 ^ 48 / 64 * 64))
  let s := (s.fset F.MEM_ERR_INFO.port port).fset F.MEM_ERR_INFO.owner owner
  let s := (s.fset F.MEM_ERR_INFO.type_ type).fset F.MEM_ERR_INFO.valid 1
  (s.bump F.MEM_UE_COUNT.count).raise 240

end Sys2Proof.Machine
end

