-- ==== Sys2Proof/Machine/Msix.lean ====
section
/-! DEFINITION. MSI-X messages of the physical function and of instances (R294, R377). -/

namespace Sys2Proof.Machine

/-- R294: a vector of instance i sends one message when it lies within the grant, is not masked, and MSI-X Enable is set.
An internal instance has no MSI-X (R288). -/
def State.msixGuest (s : State) (i v : Nat) : State :=
  if i < 64 ∧ v < s.fget F.INST_STATUS.vectors i ∧ !s.hasBit .INST_MSIX_CTRL 0 i v ∧ s.vir.msixOn.contains i ∧
      !s.vir.msixMask.contains i then
    s.emit (.msix i v ((s.get64 .INST_MSIX_ADDR_LO .INST_MSIX_ADDR_HI i v).toNat) (s.get .INST_MSIX_DATA i v))
  else s

/-- R294: a write of the MSI-X Message Control word of a function by its host: bit 15 is MSI-X Enable, bit 14 Function Mask. -/
def State.msixControl (s : State) (f : Nat) (v : Nat) : State :=
  let put (c : Nat) (l : List Nat) : List Nat := if bit v c = 1 then NSet.insert l f else NSet.erase l f
  { s with vir := { s.vir with msixOn := put 15 s.vir.msixOn, msixMask := put 14 s.vir.msixMask } }

/-- The function's MSI-X state is cleared, as a reset of the function does. -/
def State.msixClear (s : State) (f : Nat) : State := s.msixControl f 0

/-- R377: a vector of the physical function. -/
def State.msixPf (s : State) (v : Nat) : State :=
  if v < 64 ∧ !s.hasBit .PF_MSIX_CTRL 0 v ∧ s.vir.msixOn.contains 0 ∧ !s.vir.msixMask.contains 0 then
    s.emit (.msix 0 v ((s.get64 .PF_MSIX_ADDR_LO .PF_MSIX_ADDR_HI v).toNat) (s.get .PF_MSIX_DATA v))
  else s

end Sys2Proof.Machine
end

