-- ==== Sys2Proof/Machine/Bus.lean ====
section
/-! DEFINITION. Who reaches a register window (R20, R22), the memory fence (R271), the translation of an instance's addresses
(R295 to R297), and reads and writes of memory by GFX, CMP and DMA. -/

namespace Sys2Proof.Machine

/-! ### Register windows (R20 to R22) -/

/-- An access to a window that only the manager reaches: an error response for another agent, and while the block is in reset
or gated. -/
def State.byManager (s : State) (a : Agent) (clocked : Bool) (f : State → State) : State :=
  if a = .manager ∧ clocked then f s else s.emit (.busError a)

/-- An access to a window that the manager and inner-world code reach, to a field that the manager may write (R10). -/
def State.byManagerInner (s : State) (a : Agent) (clocked : Bool) (f : State → State) : State :=
  if (a = .manager ∨ a = .inner) ∧ clocked then (if a = .manager then f s else s) else s.emit (.busError a)

/-- An access to a field that the manager and inner-world code may write. -/
def State.byEither (s : State) (a : Agent) (clocked : Bool) (f : State → State) : State :=
  if (a = .manager ∨ a = .inner) ∧ clocked then f s else s.emit (.busError a)

/-! ### The fence (R271) -/

/-- The engines that use memory on behalf of an owner: CMP for an output, DMA for a channel; `io` is what issues on DRAM port 15
(R253). -/
inductive Engine where
  | gfx
  | cmp (out : Nat)
  | dma (chan : Nat)
  | io
  deriving DecidableEq, Repr

/-- The code of an engine in TFAULT_INFO (R293). -/
def Engine.code : Engine → Nat
  | .gfx => 0
  | .cmp _ => 1
  | .dma _ => 2
  | .io => 3

/-- The requester code in CPX_FENCE_VIOL_INFO; none is given for the blocks of port 15. -/
def Engine.requester (free : Nat) : Engine → Nat
  | .gfx => 17
  | .cmp _ => 19
  | .dma _ => 16
  | .io => free

/-- A refusal overwrites the single capture and raises EV_SYS_FENCE_VIOL (R376). -/
def State.fenceCapture (s : State) (requester owner addr : Nat) (write fetch : Bool) : State :=
  let s := s.put64 .CPX_FENCE_VIOL_ADDR_LO .CPX_FENCE_VIOL_ADDR_HI (BitVec.ofNat 64 (addr % 2 ^ 48))
  let s := (s.fset F.CPX_FENCE_VIOL_INFO.requester requester).fset F.CPX_FENCE_VIOL_INFO.owner owner
  let s := (s.fflag F.CPX_FENCE_VIOL_INFO.write write).fflag F.CPX_FENCE_VIOL_INFO.fetch fetch
  (s.fset F.CPX_FENCE_VIOL_INFO.valid 1).raise 7

/-- Where an access lands: memory, a host bus address of a port, an error response, or a translation fault. -/
inductive Landing where
  | ram (addr : Nat)
  | host (port addr : Nat)
  | error
  | fault
  deriving DecidableEq, Repr

/-- The requester port of an engine (R253, R305). Which raster cluster made an access is open (log entry 41). -/
def Engine.port (free : Nat) : Engine → Nat
  | .gfx => 4 + free % 6
  | .cmp o => o / 2
  | .dma c => if c < 128 then 12 else 13
  | .io => 15

/-- An access to a physical address by an engine for an owner, with the world it carries: the fence (R271), the map (R20, R21) with
the carve-outs (R15), the check area of inline ECC (R258), and channels that are down (R262). -/
def State.landAs (s : State) (inner : Bool) (e : Engine) (owner addr : Nat) (write : Bool) : Landing × State :=
  if s.innerRegion addr && !inner then (.error, s.drawn.fenceCapture (e.requester (Config.freeNat s.draws)) owner addr write false)
  else if !s.admitsTo inner owner addr || s.inCheckArea addr 1 then (.error, s)
  else if s.onDownChannel addr then
    (.error, s.drawn.memUe (e.port (Config.freeNat s.draws)) owner addr 4)
  else (.ram addr, s)

/-- An access that carries the world of its owner. -/
def State.landPhysical (s : State) (e : Engine) (owner addr : Nat) (write : Bool) : Landing × State :=
  s.landAs (s.ownerInner owner) e owner addr write

/-! ### Translation (R295, R296) -/

/-- An entry's bit. -/
def entryBit (e : BitVec 64) (b : Nat) : Bool := e.getLsbD b

/-- An entry's frame, as the byte address it names. -/
def entryFrame (e : BitVec 64) : Nat := e.toNat / 4096 % 2 ^ 40 * 4096

/-- R296: `valid` is 0 or a reserved bit is not. -/
def entryInvalid (e : BitVec 64) : Bool := !entryBit e 0 || e.toNat / 32 % 128 != 0 || e.toNat / 2 ^ 52 != 0

/-- The physical address at which the grant of an instance starts. -/
def State.grantBase (s : State) (i : Nat) : Nat := ((s.shape i).map (fun h => dramBase + h.dramBase * 2 ^ 20)).getD dramBase

/-- The bytes of the grant. -/
def State.grantSize (s : State) (i : Nat) : Nat := ((s.shape i).map (fun h => h.dramSize * 2 ^ 20)).getD 0

/-- The 64-bit word at a physical address. -/
def State.word64 (s : State) (addr : Nat) : BitVec 64 := BitVec.ofNat 64 (leNat (s.readBytes addr 8) 0 8)

/-- The outcome of a walk: a leaf with the number of 4 KiB pages it maps, or the reason of a fault. -/
inductive Walk where
  | leaf (entry : BitVec 64) (pages : Nat)
  | bad (reason : Nat)
  deriving DecidableEq, Repr

/-- R295, R296: the walk from a table, named by its grant offset, at level 4 − n. -/
def State.walkFrom (s : State) (i va : Nat) : Nat → Nat → Walk
  | 0, _ => .bad 1
  | n + 1, table =>
    if s.grantSize i ≤ table then .bad 3
    else
      let e := s.word64 (s.grantBase i + table + 8 * (va / 2 ^ (12 + 9 * n) % 512))
      if entryInvalid e then .bad 1
      else if entryBit e 4 then
        if n = 0 then .leaf e 1
        else if n = 1 then (if e.toNat / 4096 % 512 = 0 then .leaf e 512 else .bad 1)
        else .bad 1
      else s.walkFrom i va n (entryFrame e)

/-- The walk of an instance's table. While `enable` is 0 no entry is valid (log entry 36). -/
def State.walk (s : State) (i va : Nat) : Walk :=
  if s.flag F.TT_ROOT_LO.enable i then
    s.walkFrom i (va % 2 ^ 48) 4 (s.fget F.TT_ROOT_HI.root i * 2 ^ 32 + s.fget F.TT_ROOT_LO.root i * 4096)
  else .bad 1

/-- A leaf used for an access: where it lands, or the reason of a fault. -/
def State.useLeaf (s : State) (i va : Nat) (write : Bool) (entry : BitVec 64) (pages : Nat) : Landing × Nat :=
  let target := entryFrame entry + va % (pages * 4096)
  if !(if write then entryBit entry 2 else entryBit entry 1) then (.fault, 2)
  else if entryBit entry 3 then
    if s.vir.linkDown.contains (s.fget F.VIR_INST_STATE.port i) then (.fault, 4)
    else (.host (s.fget F.VIR_INST_STATE.port i) target, 0)
  else if s.grantSize i ≤ target then (.fault, 3)
  else (.ram (s.grantBase i + target), 0)

/-- R296: VIR captures a fault, raises EV_VIR_TFAULT and raises TFAULT_VEC. -/
def State.tfault (s : State) (i : Nat) (e : Engine) (va : Nat) (write : Bool) (reason : Nat) : State :=
  let s := s.put64 .TFAULT_ADDR_LO .TFAULT_ADDR_HI (BitVec.ofNat 64 (va % 2 ^ 48)) i
  let s := ((s.fset F.TFAULT_INFO.engine e.code i).fflag F.TFAULT_INFO.write write i).fset F.TFAULT_INFO.reason reason i
  let s := (s.fset F.TFAULT_INFO.valid 1 i).fset F.INST_STATUS.tfault 1 i
  (s.raise 271).msixGuest i (s.fget F.TFAULT_VEC.vector i)

/-- The translation that an engine holds for a page. -/
def State.tlbFind (s : State) (owner : Nat) (e : Engine) (va : Nat) : Option TlbEntry :=
  s.vir.tlb.find? (fun t => t.owner == owner && t.engine == e.code && decide (t.page ≤ va / 4096) &&
    decide (va / 4096 < t.page + t.size))

/-- The engine keeps a translation, in place of those it held for the page. -/
def State.tlbFill (s : State) (owner : Nat) (e : Engine) (va : Nat) (entry : BitVec 64) (pages : Nat) : State :=
  let rest := s.vir.tlb.filter (fun t => !(t.owner == owner && t.engine == e.code &&
    decide (t.page ≤ va / 4096) && decide (va / 4096 < t.page + t.size)))
  { s with vir := { s.vir with tlb := ⟨owner, e.code, va / 4096 / pages * pages, entry, pages⟩ :: rest } }

/-- Use a leaf, and capture the fault when it forbids the access. -/
def State.landLeaf (s : State) (i : Nat) (e : Engine) (va : Nat) (write : Bool) (entry : BitVec 64) (pages : Nat) :
    Landing × State :=
  match s.useLeaf i va write entry pages with
  | (.fault, r) => (.fault, s.tfault i e va write r)
  | (.ram a, _) => s.landPhysical e i a write
  | (l, _) => (l, s)

/-- A walk, its leaf kept by the engine. -/
def State.landWalk (s : State) (i : Nat) (e : Engine) (va : Nat) (write : Bool) : Landing × State :=
  match s.walk i va with
  | .leaf entry pages => (s.tlbFill i e va entry pages).landLeaf i e va write entry pages
  | .bad r => (.fault, s.tfault i e va write r)

/-- R295, R297, R306: an access of an engine for an owner. Only an instance's addresses are translated; the manager's and a
partition's are physical (log entry 37). An engine that holds an entry uses it or walks again: which is open (R297). -/
def State.land (s : State) (e : Engine) (owner va : Nat) (write : Bool) : Landing × State :=
  if 1 ≤ owner ∧ owner < 64 then
    match s.tlbFind owner e va with
    | some t =>
      if Config.freeNat s.draws % 2 = 0 then s.drawn.landLeaf owner e va write t.leaf t.size
      else s.drawn.landWalk owner e va write
    | none => s.landWalk owner e va write
  else s.landPhysical e owner va write

/-! ### Reads and writes of an engine -/

/-- What a command does: the stores it makes, and the state. -/
abbrev PacketEffect := List Store × State

/-- No store. -/
def noStore (s : State) : PacketEffect := ([], s)

/-- Effects one after the other. -/
def chain (fs : List (State → PacketEffect)) (s : State) : PacketEffect :=
  fs.foldl (fun r f => ((r.1 ++ (f r.2).1), (f r.2).2)) ([], s)

/-- Free bytes: what host memory holds, and what an error response returns. -/
def freeBytes (d n : Nat) : List Byte := (List.range n).map (fun j => Config.freeByte (d + j))

/-- The pieces of a range that do not cross a 256-byte boundary, so that each lies in one page and on one channel (R248). -/
def pieces : Nat → Nat → Nat → List (Nat × Nat)
  | 0, _, _ => []
  | f + 1, va, n =>
    if n = 0 then []
    else if n ≤ 256 - va % 256 then [(va, n)]
    else (va, 256 - va % 256) :: pieces f (va + (256 - va % 256)) (n - (256 - va % 256))

/-- The pieces of n bytes from an address. -/
def piecesOf (va n : Nat) : List (Nat × Nat) := pieces (n / 256 + 2) va n

/-- What a read of an engine finds: the address of the first translation fault, and whether an access got an error
response. -/
structure Fetched where
  bytes : List Byte
  fault : Option Nat
  failed : Bool
  s : State

/-- Read one piece. -/
def fetchPiece (e : Engine) (owner : Nat) (r : Fetched) (p : Nat × Nat) : Fetched :=
  match r.s.land e owner p.1 false with
  | (.ram a, s) => ⟨r.bytes ++ s.readBytes a p.2, r.fault, r.failed, s⟩
  | (.fault, s) => ⟨r.bytes ++ List.replicate p.2 0, r.fault.or (some p.1), r.failed, s⟩
  | (.error, s) => ⟨r.bytes ++ freeBytes s.draws p.2, r.fault, true, { s with draws := s.draws + p.2 }⟩
  | (.host _ _, s) => ⟨r.bytes ++ freeBytes s.draws p.2, r.fault, r.failed, { s with draws := s.draws + p.2 }⟩

/-- Read n bytes. A faulting piece reads 0 (R171); host memory and an error response give free bytes. -/
def State.engineRead (s : State) (e : Engine) (owner va n : Nat) : Fetched :=
  (piecesOf va n).foldl (fetchPiece e owner) ⟨[], none, false, s⟩

/-- What a write of an engine leaves: the stores it makes in memory, the first fault, and whether an access got an error
response. -/
structure Written where
  stores : List Store
  fault : Option Nat
  failed : Bool
  s : State

/-- Write one piece; a faulting piece or one that gets an error response is discarded (R171, R271). -/
def writePiece (e : Engine) (owner va : Nat) (b : List Byte) (w : Written) (p : Nat × Nat) : Written :=
  match w.s.land e owner p.1 true with
  | (.ram a, s) => ⟨w.stores ++ [(a, slice b (p.1 - va) p.2)], w.fault, w.failed, s⟩
  | (.host port a, s) => ⟨w.stores, w.fault, w.failed, s.emit (.hostWrite port a (slice b (p.1 - va) p.2))⟩
  | (.fault, s) => ⟨w.stores, w.fault.or (some p.1), w.failed, s⟩
  | (.error, s) => ⟨w.stores, w.fault, true, s⟩

/-- Write bytes. -/
def State.engineWrite (s : State) (e : Engine) (owner va : Nat) (b : List Byte) : Written :=
  (piecesOf va b.length).foldl (writePiece e owner va b) ⟨[], none, false, s⟩

end Sys2Proof.Machine
end

