-- ==== Sys2Proof/Machine/AudMix.lean ====
section
/-! DEFINITION. The sound of the audio graph (R364 to R372): samples as fractions of full scale, gains, crossfades, the path of a
bus, and the words of a port or packet. What the rules do not compute (an equaliser in use, a limiter at work, pink noise, the
rounding of sums) is free (log entry 65). -/

namespace Sys2Proof.Machine

/-! ### Numbers -/

/-- A 32-bit floating-point number: its numerator has 24 significant bits and its denominator is a power of two. -/
def isSingle (x : Rat) : Bool :=
  let n := x.num.natAbs
  x.den == 2 ^ x.den.log2 && (decide (n < 2 ^ 24) || n % 2 ^ (n.log2 - 23) == 0)

/-- A result in 32-bit floating point: itself where it is such a number, else as rounded. -/
def single (x : Rat) : Rat := if isSingle x then x else Config.roundSingle x

/-- The factor of a gain in 0.01 dB: 1 for 0, 0 for mute and below (R369). -/
def gainFactor (g : Int) : Rat :=
  if g = 0 then 1 else if g ≤ -14400 then 0 else ((Config.gainNum g + 1 : Nat) : Rat) / ((Config.gainDen g + 1 : Nat) : Rat)

/-- A sample through a gain. -/
def amplify (g : BitVec 16) (x : Rat) : Rat := single (gainFactor g.toInt * x)

/-- The sign of a sample: 1, 0 or -1. -/
def signOf (x : Rat) : Int := x.num.sign

/-- The magnitude of a sample. -/
def magnitude (x : Rat) : Rat := if x < 0 then -x else x

/-- R369: a gain may step at this sample. -/
def crossing (prev now : Rat) : Bool := now == 0 || signOf prev != signOf now

/-- The whole number for a sample in a word of so many bits; between two it is free. -/
def wordValue (bits : Nat) (x : Rat) : Int :=
  let v := x * ((2 ^ (bits - 1) : Nat) : Rat)
  if v.den = 1 then v.num else v.floor + (if Config.takesUpper v then 1 else 0)

/-- A value beyond full scale saturates. -/
def saturates (bits : Nat) (x : Rat) : Bool :=
  decide (wordValue bits x < -(2 ^ (bits - 1) : Nat)) || decide (((2 ^ (bits - 1) - 1 : Nat) : Int) < wordValue bits x)

/-- The word of a sample. -/
def audioWord (bits : Nat) (x : Rat) : Int :=
  max (-(2 ^ (bits - 1) : Nat) : Int) (min ((2 ^ (bits - 1) - 1 : Nat) : Int) (wordValue bits x))

/-- The sample that a word stands for. -/
def wordSample (bits : Nat) (w : Int) : Rat := (w : Rat) / ((2 ^ (bits - 1) : Nat) : Rat)

/-- The signed number of an unsigned one of so many bits. -/
def signedOf (bits v : Nat) : Int := if v < 2 ^ (bits - 1) then v else (v : Int) - (2 ^ bits : Nat)

/-! ### Crossfades (R369) -/

/-- The part of a time of so many ns, ending at an ST, that has passed at t. -/
def passed (t stop : ST) (ns : Nat) : Rat :=
  if notLater stop t then 1 else 1 - ((stop - t).toNat : Rat) / (ns : Rat)

/-- A linear crossfade. -/
def blend (w old new : Rat) : Rat := single (old * (1 - w) + new * w)

/-- The crossfade that runs at a point. -/
def State.fadeAt (s : State) (pt : FadePoint) (t : ST) : Option Fade :=
  s.aud.fades.find? (fun f => f.point == pt && !notLater f.endSt t)

/-- What a point takes from its choices: the one chosen, or the crossfade of 5 ms between two. -/
def State.through (s : State) (pt : FadePoint) (t : ST) (choice : Nat → Rat) (chosen : Nat) : Rat :=
  match s.fadeAt pt t with
  | none => choice chosen
  | some f => blend (passed t f.endSt 5000000) (choice f.old) (choice f.new)

/-! ### Gains (R369) -/

/-- The gain of a point in force, in 0.01 dB as stored. -/
def State.gainInForce (s : State) (pt : GainPoint) : BitVec 16 := (lookup s.aud.gains pt).getD 0

/-- A gain takes effect. -/
def State.setGain (s : State) (pt : GainPoint) (g : BitVec 16) : State :=
  { s with aud := { s.aud with gains := (pt, g) :: s.aud.gains.filter (fun e => e.1 != pt) } }

/-- The gain that waits at a point. -/
def State.gainWaiting (s : State) (pt : GainPoint) : Option GainPend := s.aud.pendGains.find? (fun p => p.point == pt)

/-- BUS_GAIN shows a gain that waits. -/
def State.showPending (s : State) (pt : GainPoint) (b : Bool) : State :=
  match pt with
  | .bus n => s.fflag F.BUS_GAIN.gain_pending b n
  | _ => s

/-- The waiting gain of a point takes effect. -/
def State.gainApply (s : State) (pt : GainPoint) : State :=
  match s.gainWaiting pt with
  | none => s
  | some p =>
    (({ s with aud := { s.aud with pendGains := s.aud.pendGains.filter (fun q => q.point != pt) } }).setGain pt
      p.gain).showPending pt false

/-- The selection at a gain point crossfades, so a gain that waits there waits on (R369). -/
def State.gainHeld (s : State) (t : ST) : GainPoint → Bool
  | .busIn b k => (s.fadeAt (.mux (.busIn b k)) t).isSome
  | .out o => (s.fadeAt (.mux (.out o)) t).isSome
  | .bus _ => false

/-- R369: the gains that wait at some points step at a sample of another sign or 0, or at their 20 ms point. -/
def State.stepGains (s : State) (t : ST) (at_ : GainPoint → Bool) (prev now : GainPoint → Rat) : State :=
  forEach (s.aud.pendGains.filter (fun p =>
    at_ p.point && !s.gainHeld t p.point && (crossing (prev p.point) (now p.point) || notLater p.deadline t)))
    (fun p s => s.gainApply p.point) s

/-! ### A bus (R364, R369) -/

/-- The selection of a multiplexer now. -/
def State.muxSel (s : State) : MuxPoint → Nat
  | .busIn b k => s.fget F.BUS_IN.source b k
  | .out o => s.fget F.OUT_SEL.bus o

/-- The sample of a source; silence where no source has the number. -/
def State.sourceSample (s : State) (n : Nat) : Rat := Tbl.get 0 s.aud.heard n

/-- The sample that a slot takes. -/
def State.slotSample (s : State) (t : ST) (b : Fin 32) (k : Fin 16) : Rat :=
  s.through (.mux (.busIn b k)) t s.sourceSample (s.muxSel (.busIn b k))

/-- The sum of the slots of a bus, in the order of the slots. -/
def State.busSum (s : State) (t : ST) (b : Fin 32) : Rat :=
  (List.finRange 16).foldl (fun sum k => single (sum + amplify (s.gainInForce (.busIn b k)) (s.slotSample t b k))) 0

/-- A band of the set in force is on. -/
def State.eqActive (s : State) (b : Nat) : Bool :=
  let set := Tbl.get [] s.aud.eq b
  (List.range 6).any (fun k => F.BUS_EQ_A.type_.of (set.getD (2 * k) 0) != 0)

/-- The samples by which the limiter looks ahead: 1 ms while it is enabled. -/
def State.lookAhead (s : State) (b : Nat) : Nat := if s.flag F.BUS_LIM.enable b then s.recipe.audFs / 1000 else 0

/-- The most samples that a bus delays, with the limiter's look-ahead. -/
def lineLength : Nat := 9697

/-- The sample that a bus gives through gain and equaliser. -/
def State.busGained (s : State) (b : Fin 32) (sum : Rat) : Rat :=
  let v := amplify (s.gainInForce (.bus b)) sum
  if s.eqActive b then Config.freeSample s.draws b else v

/-- The sample behind the delay of a bus, by so many samples further back. -/
def State.busTap (s : State) (t : ST) (b : Nat) (further : Nat) : Rat :=
  s.through (.delay b) t (fun d => (Tbl.get [] s.aud.lines b).getD (d + further) 0) (s.fget F.BUS_DELAY.samples b)

/-- The samples for which the limiter works from now on: from a sample beyond its threshold for its look-ahead and its release. -/
def State.limiterLeft (s : State) (t : ST) (b : Nat) : Nat :=
  if !s.flag F.BUS_LIM.enable b then 0
  else if gainFactor (-(100 * s.fget F.BUS_LIM.threshold b : Nat)) < magnitude (s.busTap t b 0) then
    s.lookAhead b + s.fget F.BUS_LIM2.release b * (s.recipe.audFs / 1000) + 1
  else Tbl.get 0 s.aud.limiting b - 1

/-- The output of a bus: its delay and its limiter. -/
def State.busValue (s : State) (t : ST) (b : Nat) : Rat :=
  if 0 < Tbl.get 0 s.aud.limiting b then Config.freeSample s.draws (32 + b) else s.busTap t b (s.lookAhead b)

/-- BUS_STATUS shows a limiter at work. -/
def State.showLimiter (s : State) (b : Nat) : State :=
  let on := decide (0 < Tbl.get 0 s.aud.limiting b)
  if s.flag F.BUS_STATUS_A.limiting b = on then s else s.fflag F.BUS_STATUS_A.limiting on b

/-- One instant of a bus. -/
def State.busInstant (s : State) (t : ST) (b : Fin 32) : State :=
  let sum := s.busSum t b
  let before := Tbl.get 0 s.aud.sums b
  let s := s.stepGains t (fun p => p == .bus b) (fun _ => before) (fun _ => sum)
  let line := (s.busGained b sum :: Tbl.get [] s.aud.lines b).take lineLength
  let s := { s with aud := { s.aud with sums := Tbl.set 0 s.aud.sums b sum, lines := Tbl.set [] s.aud.lines b line } }
  let s := { s with aud := { s.aud with limiting := Tbl.set 0 s.aud.limiting b (s.limiterLeft t b) } }.showLimiter b
  { s with aud := { s.aud with busOut := Tbl.set 0 s.aud.busOut b (s.busValue t b) } }

/-! ### Outputs (R364, R365, R367) -/

/-- The channels of a port's format. -/
def portChannels (entry : List Byte) : Nat := if u8 entry 1 = 0 then 2 else if u8 entry 1 = 1 then 8 else 16

/-- The port takes its clock from the pins. -/
def State.slavePort (s : State) (p : Nat) : Bool := u8 (s.recipe.tdm p) 3 == 1

/-- The port's clock runs. -/
def State.portClocked (s : State) (p : Nat) : Bool := s.audPort p && !(s.slavePort p && s.aud.stopped.contains p)

/-- Transmit stream k (register copy 4 + k) is on. -/
def State.txOn (s : State) (k : Nat) : Bool := s.flag F.AES_CFG.enable (4 + k) && bit s.recipe.aesTx k == 1

/-- The channels of a stream (copies 0 to 3 receive, 4 to 7 transmit), of the 32 that there are. -/
def State.streamChannels (s : State) (c : Nat) : List Nat :=
  ((List.range (s.fget F.AES_CFG.channels c + 1)).map (fun j => s.fget F.AES_CFG.first c + j)).filter (· < 32)

/-- The output channels that something carries. -/
def State.outChannels (s : State) : List Nat :=
  (List.range 8).flatMap (fun p => if s.portClocked p then (List.range (portChannels (s.recipe.tdm p))).map (16 * p + ·) else []) ++
    (List.range 32).filterMap (fun c =>
      if (List.range 4).any (fun k => s.txOn k && (s.streamChannels (4 + k)).contains c) then some (128 + c) else none)

/-- The output of a bus, or silence. -/
def State.busSample (s : State) (b : Nat) : Rat := Tbl.get 0 s.aud.busOut b

/-- The sample of an output channel before its gain. -/
def State.outSample (s : State) (t : ST) (o : Nat) : Rat :=
  s.through (.mux (.out (Fin.ofNat 160 o))) t s.busSample (s.muxSel (.out (Fin.ofNat 160 o)))

/-- The output channels at an instant. -/
def State.outsInstant (s : State) (t : ST) : List OutSample :=
  s.outChannels.map (fun o =>
    ⟨o, s.muxSel (.out (Fin.ofNat 160 o)), amplify (s.gainInForce (.out (Fin.ofNat 160 o))) (s.outSample t o)⟩)

/-- The sample of a channel in a list. -/
def sampleIn (l : List OutSample) (o : Nat) : OutSample := (l.find? (fun x => x.chan == o)).getD ⟨o, 63, 0⟩

/-- A saturated value sets `clip` on the bus that fed it. -/
def State.clipBus (s : State) (bits : Nat) (x : OutSample) : State :=
  if saturates bits x.value ∧ x.bus < 32 then (s.fset F.BUS_STATUS_A.clip 1 x.bus).raise 374 else s

end Sys2Proof.Machine
end

