-- ==== Sys2Proof/Machine/AudOps.lean ====
section
/-! DEFINITION. Audio (R363 to R373): players, tones, streams, gain and selection writes, and what each port sends. -/

namespace Sys2Proof.Machine

/-! ### Players (R370) -/

/-- The states of a player (PLAYER_STATUS.state): 0 IDLE. -/
def playIdle : Nat := 0
/-- PRIMED. -/
def playPrimed : Nat := 1
/-- PLAYING. -/
def playPlaying : Nat := 2
/-- FADING. -/
def playFading : Nat := 3

/-- A player. -/
def State.player (s : State) (n : Nat) : Player := Tbl.get Player.initial s.aud.players n

/-- Store a player. -/
def State.setPlayer (s : State) (n : Nat) (x : Player) : State :=
  { s with aud := { s.aud with players := Tbl.set Player.initial s.aud.players n x } }

/-- The state of a player. -/
def State.playState (s : State) (n : Nat) : Nat := s.fget F.PLAYER_STATUS.state n

/-- A clip plays. -/
def State.playing (s : State) (n : Nat) : Bool := s.playState n == playPlaying || s.playState n == playFading

/-- The player leaves its clip: PRIMED when it holds one primed. -/
def State.playRest (s : State) (n : Nat) : State :=
  let x := s.player n
  (s.setPlayer n { x with run := ClipRun.initial, fade := none, cross := none }).fset F.PLAYER_STATUS.state
    (if x.primed.isSome then playPrimed else playIdle) n

/-- The length of a clip in samples. -/
def clipLength (e : List Byte) : Nat := u32 e 8

/-- The clip starts anew at its end. -/
def clipLoops (e : List Byte) : Bool := u8 e 13 == 1

/-- The bytes of one sample of a clip. -/
def clipWidth (e : List Byte) : Nat := if u8 e 12 = 0 then 2 else 4

/-- The sample at the start of some bytes: 16 bits, or the low 24 of 32. -/
def clipSample (e : List Byte) (b : List Byte) : Rat :=
  if u8 e 12 = 0 then wordSample 16 (signedOf 16 (u16 b 0)) else wordSample 24 (signedOf 24 (u32 b 0 % 2 ^ 24))

/-- Samples of a clip from number i on, as they stand in DRAM. -/
def State.clipFetch (s : State) (e : List Byte) (i n : Nat) : List Rat × State :=
  let w := clipWidth e
  let r := s.engineRead .io 0 (leNat e 0 8 % 2 ^ 48 + w * i) (w * n)
  ((List.range n).map (fun j => clipSample e (slice r.bytes (w * j) w)), r.s)

/-- The samples that a player fetches ahead: 4 ms. -/
def State.fetchAhead (s : State) : Nat := s.recipe.audFs / 250

/-- The table entry of a clip, and the first 4 ms of the clip. -/
def State.clipOpen (s : State) (clip : Nat) (primed : Bool) : ClipRun × State :=
  let r := s.engineRead .io 0 ((s.get64 .CLIP_TABLE_LO .CLIP_TABLE_HI).toNat % 2 ^ 48 + 16 * clip) 16
  let f := r.s.clipFetch r.bytes 0 (min r.s.fetchAhead (clipLength r.bytes))
  (⟨r.bytes, f.1, 0, primed⟩, f.2)

/-- A clip index that the table has. -/
def State.clipExists (s : State) (clip : Nat) : Bool := decide (clip < s.fget F.CLIP_COUNT.entries)

/-- An action waits for the next instant, behind those already waiting (R370: launch order). -/
def State.playAct (s : State) (n : Nat) (a : PlayerAct) : State :=
  s.setPlayer n { s.player n with acts := (s.player n).acts ++ [a] }

/-- A clip that is not held is fetched at its launch. -/
def State.startFetched (s : State) (n clip : Nat) : State :=
  let r := s.clipOpen clip false
  r.2.playAct n (.start r.1)

/-- AUDIO_START: whether the player takes it, and the state. A primed clip is used as fetched, another is fetched now. -/
def State.audioStart (s : State) (n clip : Nat) : Bool × State :=
  if s.aud.running && s.awake && s.clipExists clip then
    match (s.player n).primed with
    | some (c, r) =>
      if c = clip then (true, (s.setPlayer n { s.player n with primed := none }).playAct n (.start r))
      else (true, s.startFetched n clip)
    | none => (true, s.startFetched n clip)
  else (false, s)

/-- AUDIO_STOP: a linear fade over ms from now. -/
def State.audioStop (s : State) (n ms : Nat) : Bool × State :=
  if s.aud.running && s.awake then
    (true, s.playAct n (.stop s.gridTime (s.gridTime + BitVec.ofNat 64 (ms * 1000000))))
  else (false, s)

/-- The level of a fade at an ST, from 1. -/
def Player.level (x : Player) (t : ST) : Rat :=
  match x.fade with
  | none => 1
  | some f => f.level * (1 - passed t f.stop (f.stop - f.start).toNat)

/-- A clip begins at the instant t; one that plays is replaced with a crossfade of 1 ms. -/
def State.playBegin (s : State) (n : Nat) (t : ST) (r : ClipRun) : State :=
  let x := s.player n
  let cross := if s.playing n then some (t + 1000000, x.run.ahead.map (fun v => single (x.level t * v))) else none
  (s.setPlayer n { x with run := r, fade := none, cross := cross, underrunRaised := false }).fset
      F.PLAYER_STATUS.state playPlaying n

/-- A waiting action is taken at the instant t. -/
def State.playTake (s : State) (n : Nat) (t : ST) : PlayerAct → State
  | .start r => s.playBegin n t r
  | .stop start stop =>
    if !s.playing n then s
    else if notLater stop t then s.playRest n
    else (s.setPlayer n { s.player n with fade := some ⟨start, stop, (s.player n).level t⟩ }).fset F.PLAYER_STATUS.state playFading n

/-- The sample of a player is not there at its instant; the first of a primed clip always is. -/
def Player.misses (x : Player) (unfetched : Bool) : Bool := unfetched && !(x.run.fromPrime && x.run.pos == 0)

/-- A sample that is not fetched by its instant plays as 0 and is counted. -/
def State.playUnderrun (s : State) (n : Nat) : State :=
  let x := s.player n
  let s := (s.bump F.UNDERRUN_COUNT.count n).fset F.PLAYER_STATUS.underrun 1 n
  onlyIf (!x.underrunRaised) (fun s => (s.setPlayer n { x with underrunRaised := true }).raise 371) s

/-- The sample of a player now: the clip, through a fade, or the crossfade from the clip before it. -/
def Player.sample (x : Player) (t : ST) (missed : Bool) : Rat :=
  let v := if missed then 0 else single (x.level t * x.run.ahead.headD 0)
  match x.cross with
  | none => v
  | some (stop, old) => blend (passed t stop 1000000) (old.headD 0) v

/-- The number of the sample to fetch next: 4 ms ahead, round again with `loop`. -/
def ClipRun.fetchNext (r : ClipRun) : Option Nat :=
  let i := r.pos + r.ahead.length
  if i < clipLength r.entry then some i else if clipLoops r.entry then some (i % max 1 (clipLength r.entry)) else none

/-- A player goes on fetching. -/
def State.playFetch (s : State) (n : Nat) : State :=
  match (s.player n).run.fetchNext with
  | none => s
  | some i =>
    let f := s.clipFetch (s.player n).run.entry i 1
    let x := f.2.player n
    f.2.setPlayer n { x with run := { x.run with ahead := x.run.ahead ++ f.1 } }

/-- The clip goes on to its next sample: round again with `loop`, else it ends. -/
def State.playNext (s : State) (n : Nat) : State :=
  let x := s.player n
  let len := clipLength x.run.entry
  let cross := x.cross.map (fun c => (c.1, c.2.tail))
  let go (pos : Nat) : State := s.setPlayer n { x with cross := cross, run := { x.run with pos := pos, ahead := x.run.ahead.tail } }
  if x.run.pos + 1 < len then go (x.run.pos + 1)
  else if clipLoops x.run.entry then go 0
  else (s.playRest n).raise 370

/-- A sample of a source. -/
def State.hear (s : State) (source : Nat) (v : Rat) : State :=
  { s with aud := { s.aud with heard := Tbl.set 0 s.aud.heard source v } }

/-- One instant of a player that plays. -/
def State.playSample (s : State) (n : Nat) (t : ST) (unfetched : Bool) : State :=
  let x := s.player n
  let missed := x.misses unfetched
  let s := (onlyIf missed (fun s => s.playUnderrun n) s).hear (160 + n) (x.sample t missed)
  (s.playFetch n).playNext n

/-- The fade of a player has ended, or its clip has no sample. -/
def Player.over (x : Player) (t : ST) : Bool :=
  (match x.fade with
    | some f => notLater f.stop t
    | none => false) || clipLength x.run.entry == 0

/-- One instant of a player: waiting actions in order, then its sample; a player at rest gives silence. -/
def State.playInstant (s : State) (n : Nat) (t : ST) (unfetched : Bool) : State :=
  let acts := (s.player n).acts
  let s := forEach acts (fun a s => s.playTake n t a) (s.setPlayer n { s.player n with acts := [] })
  let x := s.player n
  let s := s.setPlayer n { x with cross := x.cross.filter (fun c => !notLater c.1 t) }
  if !s.playing n then s.hear (160 + n) 0
  else if x.over t then
    let t := (s.playRest n).hear (160 + n) 0
    if clipLength x.run.entry = 0 then t.raise 370 else t
  else s.playSample n t unfetched

/-! ### Tones (R371) -/

/-- A sine at a phase in 1/fs of a cycle. -/
def sineAt (fs phase : Nat) : Rat := if phase = 0 then 0 else Config.sineWave ((phase : Rat) / (fs : Rat))

/-- The sample of a tone generator before its level: off, a sine, or noise, which is free. -/
def State.toneWave (s : State) (fs t : Nat) : Rat :=
  let kind := s.fget F.TONE_CFG.kind t
  if kind = 0 then 0 else if kind = 1 then sineAt fs (Tbl.get 0 s.aud.tonePhase t) else Config.freeSample s.draws (64 + t)

/-- One instant of a tone generator; a sine goes on by its frequency. -/
def State.toneInstant (s : State) (fs t : Nat) : State :=
  let s := s.hear (176 + t) (amplify (BitVec.ofNat 16 (s.fget F.TONE_LEVEL.level t)) (s.toneWave fs t))
  if s.fget F.TONE_CFG.kind t = 1 then
    let phase := Tbl.set 0 s.aud.tonePhase t ((Tbl.get 0 s.aud.tonePhase t + s.fget F.TONE_CFG.hz t) % fs)
    { s with aud := { s.aud with tonePhase := phase } }
  else s

/-! ### Gains, crossfades and the equaliser (R369) -/

/-- The register field that shows the gain written last. -/
def State.gainField (s : State) (pt : GainPoint) (g : BitVec 16) : State :=
  match pt with
  | .busIn b k => s.fset F.BUS_IN.gain g.toNat b k
  | .bus b => s.fset F.BUS_GAIN.gain g.toNat b
  | .out o => s.fset F.OUT_SEL.gain g.toNat o

/-- A gain write: it waits at most 20 ms from the first write. -/
def State.gainWrite (s : State) (pt : GainPoint) (g : BitVec 16) : State :=
  let deadline := ((s.gainWaiting pt).map (·.deadline)).getD (s.gridTime + 20000000)
  let rest := s.aud.pendGains.filter (fun q => q.point != pt)
  (({ s with aud := { s.aud with pendGains := rest ++ [GainPend.mk pt g deadline] } }).gainField pt g).showPending pt true

/-- A crossfade of 5 ms begins, in place of one at the same point. -/
def State.crossfade (s : State) (pt : FadePoint) (old new : Nat) : State :=
  let rest := s.aud.fades.filter (fun f => f.point != pt)
  { s with aud := { s.aud with fades := rest ++ [Fade.mk pt old new (s.gridTime + 5000000)] } }

/-- Silence, which every multiplexer may take. -/
def muxSilence : MuxPoint → Nat
  | .busIn _ _ => 255
  | .out _ => 63

/-- R368: the recipe allows the selection. -/
def State.muxAllows (s : State) (m : MuxPoint) (sel : Nat) : Bool :=
  sel == muxSilence m ||
    (match m with
     | .busIn b k => decide (sel < 192) && s.recipe.slotAllows b k sel
     | .out o => decide (sel < 32) && s.recipe.outAllows o sel)

/-- The register field of a selection. -/
def State.muxField (s : State) (m : MuxPoint) (sel : Nat) : State :=
  match m with
  | .busIn b k => s.fset F.BUS_IN.source sel b k
  | .out o => s.fset F.OUT_SEL.bus sel o

/-- R368: a refused selection. -/
def State.muxRefuse (s : State) (m : MuxPoint) : State :=
  match m with
  | .busIn b k => (s.fset F.BUS_IN.refused 1 b k).raise 375
  | .out o => (s.fset F.OUT_SEL.refused 1 o).raise 375

/-- R368, R369: a selection write. -/
def State.muxWrite (s : State) (m : MuxPoint) (sel : Nat) : State :=
  if s.muxAllows m sel then
    if s.muxSel m = sel then s else (s.crossfade (.mux m) (s.muxSel m) sel).muxField m sel
  else s.muxRefuse m

/-- A delay write (R369). -/
def State.delayWrite (s : State) (b samples : Nat) : State :=
  if s.fget F.BUS_DELAY.samples b = samples then s
  else (s.crossfade (.delay b) (s.fget F.BUS_DELAY.samples b) samples).fset F.BUS_DELAY.samples samples b

/-- The shadow EQ set of a bus: six bands of two words. -/
def State.eqShadow (s : State) (b : Nat) : List W32 :=
  (List.range 6).flatMap (fun k => [s.get .BUS_EQ_A b k, s.get .BUS_EQ_B b k])

/-- R369: at a 1 ms boundary of the grid, the commits made before it take effect whole. -/
def State.eqBoundary (s : State) (t : ST) : State :=
  let ready := s.aud.eqDue.filter (fun e => earlier e.2 t)
  let s := { s with aud := { s.aud with eqDue := s.aud.eqDue.filter (fun e => !earlier e.2 t) } }
  forEach ready (fun e s => { s with aud := { s.aud with eq := Tbl.set [] s.aud.eq e.1 (s.eqShadow e.1) } }) s

/-! ### Streams (R367) -/

/-- Receive stream k is on. -/
def State.rxOn (s : State) (k : Nat) : Bool := s.flag F.AES_CFG.enable k && bit s.recipe.aesRx k == 1

/-- The number of the sample with an RTP timestamp, the one nearest to an instant. -/
def sampleOf (near : Nat) (stamp offset : W32) : Nat :=
  let d := (stamp - offset - BitVec.ofNat 32 near).toInt
  ((near : Int) + d).toNat

/-- The sample of stream k that plays at instant n: the instant is the first at or after its own plus `link_offset`. -/
def State.dueSample (s : State) (fs k n : Nat) : Option Nat :=
  let back := ((s.get .AES_LINK_OFFSET k).toNat * fs + 999999999) / 1000000000
  if back ≤ n then some (n - back) else none

/-- The packets held for a stream. -/
def State.held (s : State) (k : Nat) : List AesPacket := Tbl.get [] s.aud.buffers k

/-- The packet has a sample. -/
def AesPacket.has (p : AesPacket) (m : Nat) : Bool := decide (p.first ≤ m) && decide (m < p.first + 48)

/-- Channel j of a sample of a packet with so many channels. -/
def AesPacket.sample (p : AesPacket) (channels m j : Nat) : Rat :=
  wordSample 24 (signedOf 24 (beNat (slice p.payload (((m - p.first) * channels + j) * 3) 3)))

/-- A missing sample plays as 0 and is counted; the event at most once per ms. -/
def State.aesLoss (s : State) (k : Nat) : State :=
  let s := s.bump F.LOSS_COUNT.count k
  let due := match lookup s.aud.lossAt k with
    | none => true
    | some t => decide (t + 1000000 ≤ s.tim.ticks)
  onlyIf due (fun s => ({ s with aud := { s.aud with lossAt := Tbl.set 0 s.aud.lossAt k s.tim.ticks } }).raise 373) s

/-- The sample of a stream reaches its channels. -/
def State.rxHear (s : State) (k m : Nat) (p : Option AesPacket) : State :=
  let count := s.fget F.AES_CFG.channels k + 1
  forEach (List.range count) (fun j s =>
    let c := s.fget F.AES_CFG.first k + j
    if c < 32 then s.hear (128 + c) ((p.map (fun p => p.sample count m j)).getD 0) else s) s

/-- One instant of receive stream k: a missing sample is counted, packets played out are dropped. -/
def State.rxInstant (s : State) (fs n k : Nat) : State :=
  match s.dueSample fs k n with
  | none => s.rxHear k 0 none
  | some m =>
    let p := (s.held k).find? (fun p => p.has m)
    let s := (onlyIf p.isNone (fun s => s.aesLoss k) s).rxHear k m p
    { s with aud := { s.aud with buffers := Tbl.set [] s.aud.buffers k ((s.held k).filter (fun p => decide (m + 1 < p.first + 48))) } }

/-- The 48 samples of a packet, 24-bit big-endian, channel by channel within each sample. -/
def aesPayload (l : List (List Rat)) : List Byte :=
  l.flatMap (fun x => x.flatMap (fun v => beBytes 3 (BitVec.ofInt 24 (audioWord 24 v)).toNat))

/-- A packet of the 48 samples that end before instant n. -/
def State.aesSend (s : State) (n k : Nat) (l : List (List Rat)) : State :=
  s.emit (.aes67 k (s.fget F.AES_CFG.eth (4 + k)) (s.get .AES_ADDR (4 + k)) (s.fget F.AES_UDP.port (4 + k)) 34
    ((BitVec.ofNat 32 (n - 48) + s.get .AES_TS_OFFSET (4 + k)).toNat) (aesPayload l))

/-- One instant of transmit stream k: its channels join the packet, which leaves once it has 48 samples. -/
def State.txInstant (s : State) (n k : Nat) (now : List OutSample) : State :=
  let chans := (s.streamChannels (4 + k)).map (fun c => sampleIn now (128 + c))
  let l := Tbl.get [] s.aud.txHeld k
  let s := if l.length = 48 then s.aesSend n k l else s
  let keep := (if l.length = 48 then [] else l) ++ [chans.map (·.value)]
  forEach chans (fun x s => s.clipBus 24 x) { s with aud := { s.aud with txHeld := Tbl.set [] s.aud.txHeld k keep } }

/-! ### Ports (R364 to R366, R372) -/

/-- The bits of a port's word. -/
def State.portWord (s : State) (p : Nat) : Nat := u8 (s.recipe.tdm p) 2

/-- The samples of a port's frame: those computed two instants before. -/
def State.frameSamples (s : State) (p : Nat) : List OutSample :=
  (List.range (portChannels (s.recipe.tdm p))).map (fun c => sampleIn (s.aud.pipe.getD 1 []) (16 * p + c))

/-- The largest of some magnitudes. -/
def peakOf (l : List Rat) : Rat := l.foldl (fun m v => if m < magnitude v then magnitude v else m) 0

/-- The peak of a port in the block so far. -/
def State.portPeak (s : State) (p : Nat) : Rat := Tbl.get 0 s.aud.peaks p

/-- The frame that a port sends at instant n. -/
def State.portFrame (s : State) (n p : Nat) : State :=
  let l := s.frameSamples p
  let words := l.map (fun x => audioWord (s.portWord p) x.value)
  let peak := peakOf (s.portPeak p :: words.map (wordSample (s.portWord p)))
  let s := forEach l (fun x s => s.clipBus (s.portWord p) x) s
  ({ s with aud := { s.aud with peaks := Tbl.set 0 s.aud.peaks p peak } }).emit (.audioFrame p n words)

/-- R366: a slave port whose sync drifts a whole sample drops one frame or sends one twice. -/
def State.portSend (s : State) (obs : AudioObs) (n p : Nat) : State :=
  match obs.drifted.find? (fun d => d.1.val == p && s.slavePort p) with
  | none => s.portFrame n p
  | some d =>
    let s := (s.bump F.SLIP_COUNT.count p).raise 372
    if d.2 then s else (s.portFrame n p).portFrame n p

/-- AUD_STATUS.clk_present of the ports. -/
def State.showClocks (s : State) : State :=
  s.fset F.AUD_STATUS.clk_present (((List.range 8).filter (fun p => s.portClocked p)).map (fun p => 2 ^ p)).sum

/-- R373: AUD starts: each port at the first instant of the grid. -/
def State.audBegin (s : State) : State :=
  if s.admitted && s.recipe.has 11 then
    (({ s with aud := { s.aud with running := true, instant := instantIndex s.recipe.audFs s.gridTime.toNat } }).fflag
      F.AUD_STATUS.rate_96k s.recipe.aud96).showClocks
  else s

/-- AMPn_EN at the pin. -/
def State.ampSet (s : State) (p : Nat) (level : Bool) : State :=
  ((s.fflag F.SIL_STATUS.amp_en level p).bitTo .AUD_STATUS (8 + p) level).emit (.ampEn p level)

/-- R373: every port stops, every AMPn_EN goes low, players and streams stop. -/
def State.audEnd (s : State) : State :=
  let s := forEach ((List.range 8).filter (fun p => s.audPort p)) (fun p s => s.ampSet p false) s
  let s := { s with
    aud := { s.aud with
      running := false, players := [], buffers := [], quiet := [], heard := [], sums := [], busOut := [], lines := []
      limiting := [], pipe := [], txHeld := [], peaks := [], judged := [] } }
  let s := forEach (List.range 16) (fun n s => s.fset F.PLAYER_STATUS.state playIdle n) s
  s.fset F.AUD_STATUS.clk_present 0

end Sys2Proof.Machine
end

