-- ==== Sys2Proof/Machine/AxisOps.lean ====
section
/-! DEFINITION. The fit of an axis and its evaluation at any show time (R93, R94, R96), in exact integers: positions are
signed 32.32 numbers held as multiples of 2^-32, times are in nanoseconds from the newest accepted sample. -/

namespace Sys2Proof.Machine

/-! ### The axis entry (R99) -/

/-- SSI port of an axis entry. -/
def axSsi (b : List Byte) : Nat := u8 b 1
/-- Samples of the fit window. -/
def axWindow (b : List Byte) : Nat := u8 b 3
/-- Raw counts per wrap; 0 for none. -/
def axModulus (b : List Byte) : Nat := if u8 b 31 == 1 then 2 ^ 32 else u32 b 4
/-- Signed 32.32 units per count. -/
def axScale (b : List Byte) : Int := signed 64 (u64 b 8)
/-- Signed 32.32 offset. -/
def axOffset (b : List Byte) : Int := signed 64 (u64 b 16)
/-- Sample period in ns. -/
def axPeriod (b : List Byte) : Nat := u32 b 24
/-- Coast time in ns. -/
def axCoast (b : List Byte) : Nat := u16 b 28 * 1000
/-- Plausible samples until TRACKING. -/
def axResume (b : List Byte) : Nat := u8 b 30
/-- Encoder latency in ns. -/
def axLatency (b : List Byte) : Nat := u32 b 32
/-- Plausibility window in 2^-32 units. -/
def axPlaus (b : List Byte) : Int := (u32 b 36 : Int) * 65536
/-- Largest speed in 2^-32 units per second. -/
def axSpeed (b : List Byte) : Int := (u32 b 40 : Int) * 65536

/-- The states of an axis (R95). -/
def axDisabled : Nat := 0
/-- ACQUIRING. -/
def axAcquiring : Nat := 1
/-- TRACKING. -/
def axTracking : Nat := 2
/-- COASTING. -/
def axCoasting : Nat := 3
/-- LOST. -/
def axLost : Nat := 4

/-- The state of an axis. -/
def State.axState (s : State) (a : Nat) : Nat := s.fget F.AXIS_STATUS.state a

/-- The hidden part of an axis. -/
def State.axis (s : State) (a : Nat) : AxisState := Tbl.get AxisState.initial s.axes a

/-- Store the hidden part of an axis. -/
def State.setAxis (s : State) (a : Nat) (x : AxisState) : State := { s with axes := Tbl.set AxisState.initial s.axes a x }

/-! ### The fit (R94) -/

/-- A polynomial (n0 + n1 x + n2 x²) / d in x ns from the newest sample, and the range of x. -/
structure Poly where
  n0 : Int
  n1 : Int
  n2 : Int
  d : Int
  oldest : Int
  deriving DecidableEq, Repr

/-- The samples as (x, position), newest first, with x in ns from the newest. -/
def relative (w : List (ST × Int)) : List (Int × Int) :=
  match w with
  | [] => []
  | (t0, _) :: _ => w.map (fun e => (stDiff e.1 t0, e.2))

/-- Σ f over the samples. -/
def sumOver (l : List (Int × Int)) (f : Int → Int → Int) : Int := (l.map (fun e => f e.1 e.2)).sum

/-- Determinant of a 3 × 3 matrix given by rows. -/
def det3 (a b c d e f g h i : Int) : Int := a * (e * i - f * h) - b * (d * i - f * g) + c * (d * h - e * g)

/-- The least-squares quadratic with 3 or more samples, the line with 2, the constant with 1. -/
def fitOf (w : List (ST × Int)) : Poly :=
  let l := relative w
  let old := (l.map (·.1)).foldl min 0
  match l with
  | [] => ⟨0, 0, 0, 1, 0⟩
  | [(_, p)] => ⟨p, 0, 0, 1, old⟩
  | [(_, p), (x1, q)] => ⟨p * (-x1), p - q, 0, -x1, old⟩
  | _ =>
    let s0 := sumOver l (fun _ _ => 1)
    let s1 := sumOver l (fun x _ => x)
    let s2 := sumOver l (fun x _ => x * x)
    let s3 := sumOver l (fun x _ => x * x * x)
    let s4 := sumOver l (fun x _ => x * x * x * x)
    let t0 := sumOver l (fun _ p => p)
    let t1 := sumOver l (fun x p => x * p)
    let t2 := sumOver l (fun x p => x * x * p)
    ⟨det3 t0 s1 s2 t1 s2 s3 t2 s3 s4, det3 s0 t0 s2 s1 t1 s3 s2 t2 s4, det3 s0 s1 t0 s1 s2 t1 s2 s3 t2,
     det3 s0 s1 s2 s1 s2 s3 s2 s3 s4, old⟩

/-- R94: x is clamped to the oldest sample and to 50 ms. -/
def Poly.clamp (p : Poly) (x : Int) : Int := max p.oldest (min x 50000000)

/-- The position at x, rounded to nearest with halves away from zero, saturating. -/
def Poly.pos (p : Poly) (x : Int) : Int :=
  let x := p.clamp x
  saturate 64 (roundDiv (p.n0 + p.n1 * x + p.n2 * x * x) p.d)

/-- The velocity at x, in 2^-32 units per second. -/
def Poly.vel (p : Poly) (x : Int) : Int :=
  let x := p.clamp x
  saturate 64 (roundDiv ((p.n1 + 2 * p.n2 * x) * 1000000000) p.d)

/-- ST in ns from the newest accepted sample. -/
def AxisState.since (x : AxisState) (t : ST) : Int :=
  match x.window with
  | [] => 0
  | (t0, _) :: _ => stDiff t t0

/-- R94 to R96: position and velocity of axis a at an ST. Outside TRACKING and COASTING, the frozen position, or `offset`
before the first entry to TRACKING, and velocity 0. -/
def State.axisAt (s : State) (a : Nat) (t : ST) : Int × Int :=
  let x := s.axis a
  if s.axState a == axTracking || s.axState a == axCoasting then
    let p := fitOf x.window
    (p.pos (x.since t), p.vel (x.since t))
  else if s.axState a == axDisabled then (0, 0)
  else (x.frozen.getD (saturate 64 (axOffset (s.recipe.axis a))), 0)

/-! ### Samples (R93, R97) -/

/-- R93: the candidate unwrapped value of a raw reading. -/
def unwrap (m : Nat) (u : Option Int) (r : Nat) : Int :=
  match u with
  | none => r
  | some u =>
    if m = 0 then r
    else
      let h : Int := m / 2
      u + (((r : Int) - u % m + h) % m - h)

/-- R93: the position of an unwrapped value. -/
def positionOf (b : List Byte) (c : Int) : Int := saturate 64 (axOffset b + axScale b * c)

/-- R97: the speed from the newest accepted sample does not exceed `max_speed`. -/
def speedOk (b : List Byte) (w : List (ST × Int)) (t : ST) (p : Int) : Bool :=
  match w with
  | [] => true
  | (t0, p0) :: _ => decide (((p - p0).natAbs : Int) * 1000000000 ≤ axSpeed b * ((stDiff t t0).natAbs : Int))

/-- R97: the sample lies within `plaus_window` of the prediction once two samples have been accepted: the fit while
TRACKING or COASTING, the line through the last two in ACQUIRING. -/
def predictionOk (b : List Byte) (fit : Bool) (w : List (ST × Int)) (t : ST) (p : Int) : Bool :=
  if w.length < 2 then true
  else
    let q := fitOf (if fit then w else w.take 2)
    let x := match w with | [] => 0 | (t0, _) :: _ => stDiff t t0
    let x := if fit then q.clamp x else x
    let predicted := roundDiv (q.n0 + q.n1 * x + q.n2 * x * x) q.d
    decide (((p - predicted).natAbs : Int) ≤ axPlaus b)

/-- R97: the sample is plausible. -/
def plausible (b : List Byte) (fit : Bool) (w : List (ST × Int)) (t : ST) (p : Int) : Bool :=
  speedOk b w t p && predictionOk b fit w t p

end Sys2Proof.Machine
end

