-- ==== Sys2Proof/Machine/CueOps.lean ====
section
/-! DEFINITION. The cue table (R102 to R108, R402): entries, checks of an operation, arming, and the counts of each window. -/

namespace Sys2Proof.Machine

/-! ### The entry (R102) -/

/-- keyspec[2:0]. -/
def CueEntry.axis (e : CueEntry) : Nat := e.keyspec.toNat % 8
/-- keyspec[3]. -/
def CueEntry.axisKeyed (e : CueEntry) : Bool := e.keyspec.getLsbD 3
/-- keyspec[5:4]. -/
def CueEntry.direction (e : CueEntry) : Nat := e.keyspec.toNat / 16 % 4
/-- flags[0]. -/
def CueEntry.critical (e : CueEntry) : Bool := e.flags.getLsbD 0
/-- flags[1]. -/
def CueEntry.repeats (e : CueEntry) : Bool := e.flags.getLsbD 1
/-- flags[2]. -/
def CueEntry.voidAfter (e : CueEntry) : Bool := e.flags.getLsbD 2
/-- The key of an axis-keyed cue as a signed 32.32 position. -/
def CueEntry.position (e : CueEntry) : Int := e.key.toInt

/-- Word j of eight. -/
def wordAt (w : List W32) (j : Nat) : W32 := w.getD j 0

/-- An entry from its eight words. -/
def CueEntry.ofWords (w : List W32) : CueEntry :=
  { key := wordAt w 1 ++ wordAt w 0
    argument := wordAt w 3 ++ wordAt w 2
    period := wordAt w 4
    slack := (wordAt w 5).truncate 16
    action := (wordAt w 5 >>> 16).truncate 8
    keyspec := (wordAt w 5 >>> 24).truncate 8
    flags := (wordAt w 6).truncate 8
    owner := (wordAt w 6 >>> 8).truncate 8
    target := (wordAt w 6 >>> 16).truncate 16
    seq := wordAt w 7 }

/-- The eight words of an entry. -/
def CueEntry.words (e : CueEntry) : List W32 :=
  [e.key.truncate 32, (e.key >>> 32).truncate 32, e.argument.truncate 32, (e.argument >>> 32).truncate 32, e.period,
   e.keyspec ++ e.action ++ e.slack, e.target ++ e.owner ++ e.flags, e.seq]

/-- The argument bits that an action uses (R104); other bits are reserved (log entry 30). -/
def argumentBits (action : Nat) : Nat :=
  match action with
  | 1 => 16 | 5 => 16 | 6 => 16 | 7 => 16 | 8 => 64 | 9 => 64 | 10 => 32 | _ => 0

/-- R107, order 2. -/
def State.cueBadArg (s : State) (e : CueEntry) : Bool :=
  e.keyspec.toNat / 64 != 0 || e.flags.toNat / 8 != 0 || e.action == 0 || decide (10 < e.action.toNat)
  || e.argument.toNat / 2 ^ argumentBits e.action.toNat != 0
  || (if e.axisKeyed then e.repeats || e.direction == 0 || s.axState e.axis == axDisabled
      else if e.repeats then decide (e.period.toNat < 200000) else e.period != 0)

/-! ### Slots -/

/-- The cue in a slot. -/
def State.cueAt (s : State) (n : Nat) : Option CueSlot := lookup s.cue.slots n

/-- Place a cue in a slot. -/
def State.putCue (s : State) (n : Nat) (c : CueSlot) : State :=
  { s with cue := { s.cue with slots := place id (dropKey s.cue.slots n) n c } }

/-- Free a slot. -/
def State.freeCue (s : State) (n : Nat) : State :=
  { s with cue := { s.cue with slots := dropKey s.cue.slots n } }

/-- The slots that an owner's cues hold. -/
def State.cuesOf (s : State) (owner : Nat) : Nat :=
  (s.cue.slots.filter (fun c => c.2.entry.owner.toNat == owner)).length

/-- The first free slot of a range. -/
def State.firstFree (s : State) (lo n : Nat) : Option Nat :=
  ((List.range n).map (lo + ·)).find? (fun k => (s.cueAt k).isNone)

/-- R106: the slot that an arm takes; an instance stays within its quota. -/
def State.takeSlot (s : State) (owner : Nat) : Option Nat :=
  if 1 ≤ owner ∧ owner < 64 ∧ s.slotLimit owner ≤ s.cuesOf owner then none
  else (s.slotRanges owner).findSome? (fun r => s.firstFree r.1 r.2)

/-- CUE_COUNT of one owner. -/
def State.countOwner (s : State) (owner : Nat) : State :=
  (s.fset F.CUE_COUNT.in_use (s.cuesOf owner) (cueWindowOf owner)).fset F.CUE_COUNT.limit (s.slotLimit owner)
    (cueWindowOf owner)

/-- CUE_GLOBAL, and CUE_COUNT of one owner. -/
def State.countCues (s : State) (owner : Nat) : State :=
  ((s.fset F.CUE_GLOBAL.in_use s.cue.slots.length).fset F.CUE_GLOBAL.staged
    (s.cue.slots.filter (fun c => c.2.staged)).length).countOwner owner

/-! ### Placing a cue (R108) -/

/-- R108: the key lies within 100,000 ns of now. -/
def stagesNow (now key : ST) : Bool := notLater (key - 100000#64) now

/-- A cue as the engine holds it once placed: a time-keyed one whose key is near is staged at once. -/
def State.placed (s : State) (e : CueEntry) : CueSlot :=
  { entry := e, staged := !e.axisKeyed && stagesNow s.tim.st e.key, key := e.key, due := e.key, deferred := false, late := false,
    voided := false }

/-! ### Checks and arming (R107) -/

/-- R107, orders 5 and 6: a time-keyed arm or modify needs a valid ST and 2,000 ns of lead. -/
def State.cueTimeError (s : State) (e : CueEntry) : Nat :=
  if e.axisKeyed then 0
  else if !s.stValid then 7
  else if earlier e.key (s.tim.st + 2000#64) then 2 else 0

/-- R107 for an arm, up to order 6: the caller's owner code and its entry. -/
def State.armError (s : State) (caller : Nat) (e : CueEntry) : Nat :=
  if s.cueBadArg e then 5
  else if (e.critical && caller != islandOwner) || !s.holdsTarget caller e.action.toNat e.target.toNat then 4
  else s.cueTimeError e

/-- An arm: its error code, the slot taken, and the state after it. A failed arm changes nothing (R107). -/
def State.arm (s : State) (caller : Nat) (e : CueEntry) : Nat × Nat × State :=
  if s.armError caller e ≠ 0 then (s.armError caller e, 0, s)
  else
    match s.takeSlot caller with
    | none => (1, 0, s)
    | some n => (0, n, (s.putCue n (s.placed { e with owner := BitVec.ofNat 8 caller })).countCues caller)

end Sys2Proof.Machine
end

