-- ==== Sys2Proof/Machine/CrcOps.lean ====
section
/-! DEFINITION. The CRC channels (R319, R320): the register of a channel under its parameters, and its feeds. -/

namespace Sys2Proof.Machine

/-- W of channel n. -/
def State.crcWidth (s : State) (n : Nat) : Nat := s.fget F.CRC_CFG.w n + 1

/-- A parameter held in a pair of registers, masked to W bits. -/
def State.crcParam (s : State) (r : Reg) (n : Nat) : Nat :=
  ((s.get r n 1).toNat * 2 ^ 32 + (s.get r n 0).toNat) % 2 ^ s.crcWidth n

/-- One bit enters the register: polynomial without its x^W term, in normal form. -/
def crcBit (w poly reg b : Nat) : Nat :=
  if (bit reg (w - 1) + b) % 2 = 1 then (2 * reg % 2 ^ w) ^^^ poly else 2 * reg % 2 ^ w

/-- The bits of a byte in the order in which they are processed. -/
def crcOrder (refin : Bool) (x : Byte) : List Nat :=
  let l := (List.range 8).map (bit x.toNat)
  if refin then l else l.reverse

/-- One byte enters the register. -/
def crcFeedByte (w poly : Nat) (refin : Bool) (reg : Nat) (x : Byte) : Nat := (crcOrder refin x).foldl (crcBit w poly) reg

/-- The low w bits of a number in the opposite order. -/
def reflect (w n : Nat) : Nat := ((List.range w).map (fun i => bit n i * 2 ^ (w - 1 - i))).sum

/-- The register of a channel. -/
def State.crcReg (s : State) (n : Nat) : Nat := (Tbl.get 0 s.crc.value n).toNat % 2 ^ s.crcWidth n

/-- Store the register of a channel. -/
def State.setCrcReg (s : State) (n v : Nat) : State :=
  { s with crc := { s.crc with value := Tbl.set 0 s.crc.value n (BitVec.ofNat 64 v) } }

/-- R319: the result, the register after reflection and XOR. -/
def State.crcResult (s : State) (n : Nat) : Nat :=
  (if s.flag F.CRC_CFG.refout n then reflect (s.crcWidth n) (s.crcReg n) else s.crcReg n) ^^^ s.crcParam .CRC_XOR n

/-- Bytes enter a channel in order. -/
def State.crcFeed (s : State) (n : Nat) (b : List Byte) : State :=
  s.setCrcReg n (b.foldl (crcFeedByte (s.crcWidth n) (s.crcParam .CRC_POLY n) (s.flag F.CRC_CFG.refin n)) (s.crcReg n))

/-- The initial value is loaded. -/
def State.crcLoad (s : State) (n : Nat) : State := s.setCrcReg n (s.crcParam .CRC_INIT n)

/-- R320: a register feed or a parameter write, which a busy channel loses. -/
def State.crcWrite (s : State) (n : Nat) (f : State → State) : State :=
  if s.flag F.CRC_STATUS.busy n then s.fset F.CRC_STATUS.feed_lost 1 n else f s

/-- The DMA channel whose descriptor feeds a CRC channel. -/
def State.crcFeeder (s : State) (n : Nat) : Option Nat := Tbl.get none s.crc.feeder n

/-- A descriptor takes or gives up a CRC channel. -/
def State.setFeeder (s : State) (n : Nat) (f : Option Nat) : State :=
  { s with crc := { s.crc with feeder := Tbl.set none s.crc.feeder n f } }.fflag F.CRC_STATUS.busy f.isSome n

end Sys2Proof.Machine
end

