-- ==== Sys2Proof/Machine/DmaOps.lean ====
section
/-! DEFINITION. DMA channels and engines (R305 to R317): triggers, missed triggers, the choice of an engine, the descriptor that a
run reads, pause and stop. -/

namespace Sys2Proof.Machine

/-- The states of a channel (CH_STATUS.state). -/
def chIdle : Nat := 0
/-- READY. -/
def chReady : Nat := 1
/-- RUNNING. -/
def chRunning : Nat := 2
/-- PAUSING. -/
def chPausing : Nat := 3
/-- PAUSED. -/
def chPaused : Nat := 4

/-- The state of a channel. -/
def State.chState (s : State) (c : Nat) : Nat := s.fget F.CH_STATUS.state c

/-- The hidden part of a channel. -/
def State.chan (s : State) (c : Nat) : ChanState := Tbl.get ChanState.initial s.dma.chans c

/-- Store the hidden part of a channel. -/
def State.setChan (s : State) (c : Nat) (x : ChanState) : State :=
  { s with dma := { s.dma with chans := Tbl.set ChanState.initial s.dma.chans c x } }

/-- R312: the channel is in ring form, which is fixed for an instance's channel. -/
def State.chRing (s : State) (c : Nat) : Bool :=
  s.flag F.CH_CFG.form c || (decide (1 ≤ s.dmaHolder c) && decide (s.dmaHolder c < 64))

/-- The address in CH_BASE, without the size bits. -/
def State.chBase (s : State) (c : Nat) : Nat :=
  (s.get64 .CH_BASE_LO .CH_BASE_HI c).toNat % 2 ^ 48 / 64 * 64

/-- log2 of the number of ring entries. -/
def State.chRingLog (s : State) (c : Nat) : Nat := (s.get .CH_BASE_LO c).toNat % 16 + 2

/-- The index of the ring head. -/
def State.chHead (s : State) (c : Nat) : Nat := s.fget F.CH_STATUS.head c % 2 ^ s.chRingLog c

/-- The descriptor at which a run starts (R312). -/
def State.chStartAddr (s : State) (c : Nat) : Nat := if s.chRing c then s.chBase c + 64 * s.chHead c else s.chBase c

/-- CH_CUR. -/
def State.chCur (s : State) (c : Nat) : Nat := (s.get64 .CH_CUR_LO .CH_CUR_HI c).toNat % 2 ^ 48

/-- R307: the READY channel that an engine chooses: highest priority, then lowest number. -/
def State.dmaChoice (s : State) (e : Nat) : Option Nat :=
  let ready := ((List.range 16).map (16 * e + ·)).filter (fun c => s.chState c == chReady)
  (List.range 4).reverse.findSome? (fun p => ready.find? (fun c => s.fget F.CH_CFG.priority c == p))

/-! ### The descriptor (R313) -/

/-- Bit b of ctrl. -/
def descBit (d : List Byte) (b : Nat) : Bool := bit (u32 d 0) b == 1
/-- mode: 0 COPY, 1 GATHER, 2 FILL. -/
def descMode (d : List Byte) : Nat := bits (u32 d 0) 2 1
/-- crc_ch. -/
def descCrcCh (d : List Byte) : Nat := bits (u32 d 0) 7 5
/-- elem_size. -/
def descElem (d : List Byte) : Nat := bits (u32 d 0) 21 16 + 1
/-- length. -/
def descLength (d : List Byte) : Nat := u32 d 4
/-- src. -/
def descSrc (d : List Byte) : Nat := u64 d 8 % 2 ^ 48
/-- dst. -/
def descDst (d : List Byte) : Nat := u64 d 16 % 2 ^ 48
/-- rows. -/
def descRows (d : List Byte) : Nat := u32 d 24
/-- aux. -/
def descAux (d : List Byte) : Nat := u64 d 40
/-- next. -/
def descNext (d : List Byte) : Nat := u64 d 48 % 2 ^ 48

/-- R314: no reserved bit, a mode, and every field in its range. The owned bit must be 1. -/
def descOk (ring : Bool) (d : List Byte) : Bool :=
  let mode := descMode d
  descBit d 0 && mode != 3 && bits (u32 d 0) 15 10 == 0 && bits (u32 d 0) 31 22 == 0 && u32 d 36 == 0
    && decide (1 ≤ descLength d) && decide (descLength d ≤ if mode = 1 then 65536 else 16777216)
    && decide (1 ≤ descRows d) && decide (descRows d ≤ if mode = 1 then 1 else 65536)
    && decide (u64 d 8 < 2 ^ 48) && decide (u64 d 16 < 2 ^ 48)
    && (mode != 2 || u64 d 8 == 0)
    && (if mode = 0 then descAux d == 0 else if mode = 1 then descAux d % 4 == 0 && decide (descAux d < 2 ^ 48) else true)
    && (if ring then u64 d 48 == 0 else descBit d 9 || (u64 d 48 % 64 == 0 && decide (u64 d 48 < 2 ^ 48)))

/-- The descriptor of a channel names a CRC channel. -/
def descFeeds (ring : Bool) (x : ChanState) : Bool := x.readable && descOk ring x.desc && descBit x.desc 4

/-! ### Engines -/

/-- An engine is free again. -/
def State.engineFree (s : State) (c : Nat) : State := s.fset F.ENG_STATUS.busy 0 (c / 16)

/-- R320: the descriptor of a channel takes its CRC channel, or waits for it. -/
def State.claimCrc (s : State) (c : Nat) : State :=
  let x := s.chan c
  if descFeeds (s.chRing c) x then
    match s.crcFeeder (descCrcCh x.desc) with
    | none =>
      let s := (s.setChan c { x with crcWait := false }).setFeeder (descCrcCh x.desc) (some c)
      onlyIf (descBit x.desc 8) (fun s => s.crcLoad (descCrcCh x.desc)) s
    | some _ => s.setChan c { x with crcWait := true }
  else s

/-- The channels that wait for CRC channel n, lowest first. -/
def State.crcWaiters (s : State) (n : Nat) : List Nat :=
  (List.range 256).filter (fun c => (s.chan c).crcWait && descCrcCh (s.chan c).desc == n && s.chState c == chRunning)

/-- R320: the CRC channel that a channel's descriptor fed is free, for a descriptor that waits. -/
def State.releaseCrc (s : State) (c : Nat) : State :=
  (List.range 8).foldl (fun s n =>
    if s.crcFeeder n = some c then
      let s := s.setFeeder n none
      match s.crcWaiters n with
      | [] => s
      | w :: _ => s.claimCrc w
    else s) s

/-- R312: the engine reads the descriptor at CH_CUR. In a ring, one that it does not own ends the run: the answer is whether
the run goes on. -/
def State.dmaBegin (s : State) (c : Nat) : Bool × State :=
  let r := s.engineRead (.dma c) (s.dmaHolder c) (s.chCur c) 64
  let readable := r.fault.isNone && !r.failed
  let s := r.s
  if s.chRing c && readable && !descBit r.bytes 0 then (false, s)
  else
    let s := s.setChan c { s.chan c with unfinished := true, crcWait := false, desc := r.bytes, readable := readable }
    (true, (s.put .CH_DONE_BYTES 0 c).claimCrc c)

/-- A run is over: the channel is IDLE, or READY again (R312). -/
def State.dmaEnd (s : State) (c st : Nat) : State := (s.fset F.CH_STATUS.state st c).setChan c ChanState.initial

/-- R307: a channel becomes RUNNING. A new run starts at its first descriptor; an unfinished one continues at its byte, and one
that an entry to a low-power state held back between two descriptors (R311) at the next of them. -/
def State.dmaRun (s : State) (c : Nat) : State :=
  let s := (s.fset F.CH_STATUS.state chRunning c).fset F.ENG_STATUS.channel (c % 16) (c / 16)
  let s := s.fset F.ENG_STATUS.busy 1 (c / 16)
  if (s.chan c).unfinished ∧ (s.chan c).desc ≠ [] then (if (s.chan c).crcWait then s.claimCrc c else s)
  else
    let s :=
      if (s.chan c).taken = 0 then
        (s.put64 .CH_CUR_LO .CH_CUR_HI (BitVec.ofNat 64 (s.chStartAddr c)) c).setChan c ChanState.initial
      else s
    match s.dmaBegin c with
    | (true, s) => s
    | (false, s) => (s.dmaEnd c chIdle).engineFree c

/-- R307: a free engine chooses until one of its channels runs. -/
def State.dmaPickN (s : State) (e : Nat) : Nat → State
  | 0 => s
  | f + 1 =>
    if s.flag F.ENG_STATUS.busy e then s
    else
      match s.dmaChoice e with
      | some c => (s.dmaRun c).dmaPickN e f
      | none => s

/-- R311: no engine starts a descriptor from the acceptance of an entry below Day to the return to Day. -/
def State.dmaHeld (s : State) : Bool := !s.day || s.flag F.PMU_STATE_STATUS.entering

/-- R307, R311: a free engine chooses, in Day. Each of its 16 channels can end at once. -/
def State.dmaPick (s : State) (e : Nat) : State := if s.dmaHeld then s else s.dmaPickN e 17

/-- Every free engine chooses, as at the return to Day or at the end of an entry that was refused (R311). -/
def State.dmaPickAll (s : State) : State := forEach (List.range 16) (fun e s => s.dmaPick e) s

/-! ### Triggers (R308, R309) -/

/-- R310: a timer fires from an ST on. -/
def State.timerHold (s : State) (e t : Nat) (from_ : ST) : State :=
  { s with dma := { s.dma with timerFrom := Tbl.set none s.dma.timerFrom (4 * e + t) (some from_) } }

/-- R308, R309: a trigger is accepted by a channel in IDLE, in Day (R311). -/
def State.dmaAccepts (s : State) (c : Nat) : Bool := s.day && s.chState c == chIdle

/-- R309: a missed trigger. -/
def State.dmaMissed (s : State) (c : Nat) : State :=
  ((s.fset F.CH_STATUS.missed 1 c).bump F.CH_MISSED_COUNT.count c).raise 290

/-- R308, R309: a trigger reaches a channel, which becomes READY or misses it. -/
def State.dmaMark (s : State) (c : Nat) : State :=
  if s.dmaAccepts c then (s.fset F.CH_STATUS.state chReady c).setChan c ChanState.initial else s.dmaMissed c

/-- A trigger reaches one channel, and its engine chooses. -/
def State.dmaTrigger (s : State) (c : Nat) : State := (s.dmaMark c).dmaPick (c / 16)

/-- A trigger reaches several channels at once: all of them first, then the engines choose. -/
def State.dmaTriggerAll (s : State) (l : List Nat) : State :=
  forEach (List.range 16) (fun e s => if l.any (fun c => c / 16 == e) then s.dmaPick e else s)
    (forEach l (fun c s => s.dmaMark c) s)

/-- The channels that a trigger of a kind and source reaches (R308), in ascending order. -/
def State.dmaListeners (s : State) (kind source : Nat) : List Nat :=
  (s.copies .CH_TRIG).filterMap (fun e =>
    if F.CH_TRIG.kind.of e.2 = kind ∧ F.CH_TRIG.source.of e.2 = source then some e.1 else none)

/-- A trigger source fires. -/
def State.dmaFire (s : State) (kind source : Nat) : State := s.dmaTriggerAll (s.dmaListeners kind source)

/-! ### Pause, resume, stop (R316, R317) -/

/-- R316: `pause`. -/
def State.dmaPause (s : State) (c : Nat) : State :=
  if s.chState c = chRunning then s.fset F.CH_STATUS.state chPausing c
  else if s.chState c = chReady ∨ s.chState c = chIdle then
    (s.fset F.CH_STATUS.state chPaused c).setChan c { s.chan c with unfinished := (s.chan c).unfinished || s.chState c == chReady }
  else s

/-- R316: `resume`. -/
def State.dmaResume (s : State) (c : Nat) : State :=
  if s.chState c = chPaused then
    (s.fset F.CH_STATUS.state (if (s.chan c).unfinished then chReady else chIdle) c).dmaPick (c / 16)
  else s

/-- R317: a channel stops for its instance: nothing is written back, the engine and the CRC channel are free, and a timer
trigger is NONE. -/
def State.dmaStop (s : State) (c : Nat) : State :=
  let held := s.chState c == chRunning || s.chState c == chPausing
  let s := (s.releaseCrc c).dmaEnd c chIdle
  let s := onlyIf held (fun s => s.engineFree c) s
  (onlyIf (s.fget F.CH_TRIG.kind c == 1) (fun s => s.fset F.CH_TRIG.kind 0 c) s).dmaPick (c / 16)

end Sys2Proof.Machine
end

