-- ==== Sys2Proof/Machine/HapOps.lean ====
section
/-! DEFINITION. Haptic fires (R334, R336, R337, R380). -/

namespace Sys2Proof.Machine

/-- The states of a haptic channel (HAP_CH_STATUS.state): OFF is 0. -/
def hapIdle : Nat := 1
/-- OVERDRIVE. -/
def hapOverdrive : Nat := 2
/-- DRIVE. -/
def hapDrive : Nat := 3
/-- BRAKE. -/
def hapBrake : Nat := 4
/-- FAULT. -/
def hapFault : Nat := 5

/-- The state of a channel. -/
def State.hapState (s : State) (n : Nat) : Nat := s.fget F.HAP_CH_STATUS.state n

/-- The channel plays. -/
def State.hapPlaying (s : State) (n : Nat) : Bool := decide (2 ≤ s.hapState n) && decide (s.hapState n ≤ 4)

/-- The hidden part of a channel. -/
def State.hapCh (s : State) (n : Nat) : HapCh := Tbl.get HapCh.initial s.hap n

/-- Store the hidden part of a channel. -/
def State.setHap (s : State) (n : Nat) (x : HapCh) : State := { s with hap := Tbl.set HapCh.initial s.hap n x }

/-! Waveform and channel fields (R339). -/
/-- freq_hz. -/
def waveFreq (b : List Byte) : Nat := u16 b 0
/-- cycles. -/
def waveCycles (b : List Byte) : Nat := u8 b 2
/-- od_cycles. -/
def waveOd (b : List Byte) : Nat := u8 b 3
/-- od_gain. -/
def waveOdGain (b : List Byte) : Nat := u8 b 4
/-- brake_cycles. -/
def waveBrake (b : List Byte) : Nat := u8 b 5
/-- brake_gain. -/
def waveBrakeGain (b : List Byte) : Nat := u8 b 6
/-- vpp_max in 0.1 V. -/
def hapVmax (b : List Byte) : Nat := u16 b 0
/-- i_max_ma. -/
def hapImax (b : List Byte) : Nat := u16 b 2
/-- i_min_ma. -/
def hapImin (b : List Byte) : Nat := u16 b 4

/-- R334: the peak-to-peak target in a phase of the waveform, in 0.1 V. -/
def hapTarget (ch wave : List Byte) (amplitude phase : Nat) : Nat :=
  let v := hapVmax ch * amplitude / 255
  if phase = hapOverdrive then min (waveOdGain wave * hapVmax ch * amplitude / (64 * 255)) (hapVmax ch)
  else if phase = hapBrake then waveBrakeGain wave * hapVmax ch * amplitude / (64 * 255)
  else if phase = hapDrive then v
  else 0

/-- What stands at the pins of a channel in a state: the target of the sine, its phase, and HAPn_EN. The level of HAPn_EN at rest is
open (log entry 63). -/
def State.hapPins (s : State) (n st : Nat) : State :=
  s.emit (.haptic n (hapTarget (s.recipe.hapCh n) (s.recipe.wave (s.fget F.HAP_CH_STATUS.waveform n))
    (s.hapCh n).amplitude st) (s.hapCh n).phase (st == hapBrake)
    ((decide (2 ≤ st) && decide (st ≤ 4)) || (st == hapIdle && Config.hapIdleEnable)))

/-- Enter a state: status, the device-wide bits, and the pins. -/
def State.hapEnter (s : State) (n st : Nat) : State :=
  let s := s.fset F.HAP_CH_STATUS.state st n
  let s := (s.bitTo .HAP_STATUS n (decide (2 ≤ st) && decide (st ≤ 4))).bitTo .HAP_STATUS (16 + n) (st == hapFault)
  s.hapPins n st

/-- R337: the channel and the waveform exist, the channel is not in FAULT, and the device is in Day or Dusk. -/
def State.hapAccepts (s : State) (n w : Nat) : Bool :=
  s.awake && bit s.recipe.hapMask n == 1 && s.hapState n != hapFault && decide (w < s.recipe.waveCount)

/-- R336: the rank of a source among fires of one sample. -/
def FireSource.rank : FireSource → Nat
  | .binding c r => 64 * c + r
  | .cue _ _ => 1000
  | .link j => 2000 + j
  | .register => 3000

/-- R336: the drive sample that follows, 5 µs apart on the local time (log entry 31). -/
def State.hapSample (s : State) : Nat := s.gridTime.toNat / 5000

/-- R336: a fire dropped. -/
def State.hapDropped (s : State) (n : Nat) : State := (s.bump F.HAP_CH_DROP_COUNT.count n).raise 339

/-- R113, R336: what is recorded of a cue whose fire was dropped or refused. -/
def State.cueFailed (s : State) (slot action owner : Nat) : State :=
  (s.put .CUE_LAST_FAIL (BitVec.ofNat 32 (slot % 4096 + action % 256 * 65536 + owner % 256 * 16777216))).raise 43

/-- R334, R336: a fire plays from the next sample; a playing channel keeps the phase of its sine. -/
def State.hapPlay (s : State) (n w a : Nat) (src : FireSource) : State :=
  let x := s.hapCh n
  let wave := s.recipe.wave w
  let y : HapCh :=
    { amplitude := a, phase := if s.hapPlaying n then x.phase else 0, prog := 0, cycles := 0, limited := false, limitRun := 0,
      ocRaised := false, peak := 0, firstDone := false, firedAt := some s.hapSample, source := src }
  let s := s.setHap n y
  (s.fset F.HAP_CH_STATUS.waveform w n).hapEnter n (if 0 < waveOd wave then hapOverdrive else hapDrive)

/-- An accepted fire of this sample that played first. -/
def State.hapRival (s : State) (n : Nat) : Option FireSource :=
  if (s.hapCh n).firedAt = some s.hapSample then some (s.hapCh n).source else none

/-- A fire that is not refused (R336): it plays unless a fire of the same sample ranks before it; one that it displaces is
dropped. -/
def State.hapFire (s : State) (n w a : Nat) (src : FireSource) : State :=
  match s.hapRival n with
  | none => (s.hapPlay n w a src).bump F.HAP_CH_FIRE_COUNT.count n
  | some old =>
    if src.rank < old.rank then
      let s := (s.hapPlay n w a src).hapDropped n
      match old with
      | .cue slot owner => s.cueFailed slot 7 owner
      | _ => s
    else s.hapDropped n

/-- The fire of a cue would play (R113, R336). -/
def State.hapWins (s : State) (n : Nat) (src : FireSource) : Bool :=
  match s.hapRival n with
  | none => true
  | some old => decide (src.rank < old.rank)

end Sys2Proof.Machine
end

