-- ==== Sys2Proof/Machine/Pmc.lean ====
section
/-! DEFINITION. Performance counters (R381 to R383): which counters count a code, and what a count does. -/

namespace Sys2Proof.Machine

/-- The counters that count a code for a unit, by their selection alone. -/
def State.pmcMatching (s : State) (code unit : Nat) : List Nat :=
  if s.flag F.PMC_GLOBAL.freeze then []
  else (s.copies .PMC_SEL).filterMap (fun e =>
    if F.PMC_SEL.enable.of e.2 = 1 ∧ F.PMC_SEL.code.of e.2 = code ∧
        (F.PMC_SEL.unit_all.of e.2 = 1 ∨ F.PMC_SEL.unit.of e.2 = unit) then some e.1 else none)

/-- The 48-bit count of counter n. -/
def State.pmcValue (s : State) (n : Nat) : Nat :=
  s.fget F.PMC_VAL_HI.count n * 2 ^ 32 + (s.get .PMC_VAL_LO n).toNat

/-- R382, R383: add to counter n; a carry out of bit 31 is kept for the mirror, a wrap sets `ovf` and raises
EV_SYS_PMC_OVF. -/
def State.pmcAdd (s : State) (n amount : Nat) : State :=
  let v := s.pmcValue n
  let s' := (s.put .PMC_VAL_LO (BitVec.ofNat 32 (v + amount)) n).fset F.PMC_VAL_HI.count ((v + amount) / 2 ^ 32) n
  let s' := if v / 2 ^ 32 < (v + amount) / 2 ^ 32 then s'.setBit .PMC_MIRROR_OVF n else s'
  if 2 ^ 48 ≤ v + amount then (s'.fset F.PMC_VAL_HI.ovf 1 n).raise 2 else s'

/-- R381: a code without further filters is counted. -/
def State.pmcCount (s : State) (code unit amount : Nat) : State :=
  forEach (s.pmcMatching code unit) (fun n s => s.pmcAdd n amount) s

/-- R381: the owner filter of counter n admits an owner. -/
def State.pmcOwnerOk (s : State) (n owner : Nat) : Bool :=
  F.PMC_SEL.owner_en.of (s.get .PMC_SEL n) == 0 || s.fget F.PMC_OWNER.owner n == owner

/-- R381: a code with the owner filter is counted. -/
def State.pmcCountOwner (s : State) (code unit owner amount : Nat) : State :=
  forEach ((s.pmcMatching code unit).filter (fun n => s.pmcOwnerOk n owner)) (fun n s => s.pmcAdd n amount) s

/-- R381: a code of the raster clusters. Which of the twelve clusters did the work is open. -/
def State.pmcCluster (s : State) (code owner amount : Nat) : State :=
  s.drawn.pmcCountOwner code (Config.freeNat s.draws % 12) owner amount

/-- R381: the counters of a unit's codes whose amounts no rule gives (cycles, instructions, misses, stalls, pixels). -/
def openCodes : List Nat := [1, 2, 3, 4, 5, 9, 10, 12]

/-- R381: such a counter takes a free amount. -/
def State.pmcFree (s : State) (n : Nat) : State := s.drawn.pmcAdd n (Config.freeNat s.draws % 2 ^ 16)

/-- R381: the units of these codes: cores, DRAM ports, clusters. -/
def unitsOf (code : Nat) : Nat := if code ≤ 5 then 8 else if code = 9 then 24 else 12

/-- R278, R381: a selection of these codes counts for a unit there is, and a core code only while some world's non-invasive
enable is set. -/
def State.pmcOpen (s : State) (sel : W32) : Bool :=
  let code := F.PMC_SEL.code.of sel
  openCodes.contains code && (F.PMC_SEL.unit_all.of sel == 1 || decide (F.PMC_SEL.unit.of sel < unitsOf code)) &&
    (decide (5 < code) || s.flag F.CPX_DBG_EN.outer_noninv || s.flag F.CPX_DBG_EN.inner_noninv)

/-- What a tick of the clock adds to the counters of these codes. -/
def State.pmcTick (s : State) : State :=
  if s.flag F.PMC_GLOBAL.freeze then s
  else
    forEach ((s.copies .PMC_SEL).filter (fun e => F.PMC_SEL.enable.of e.2 == 1 && s.pmcOpen e.2))
      (fun e s => s.pmcFree e.1) s

end Sys2Proof.Machine
end

