-- ==== Sys2Proof/Machine/Wake.lean ====
section
/-! DEFINITION. Wake sources of the power ladder (R66 to R69, R377): which act in which state, and what a wake does. -/

namespace Sys2Proof.Machine

/-- The wake source table: source b acts in power state p (1 Dusk to 4 Eclipse). -/
def wakeActs (b p : Nat) : Bool :=
  if b ≤ 4 then decide (1 ≤ p)
  else if b = 5 then decide (2 ≤ p)
  else if b = 7 then p == 3
  else if b = 10 then p == 1
  else p == 1 || p == 2

/-- A source is enabled: bit 5 always, the others by PMU_WAKE_EN. -/
def State.wakeEnabled (s : State) (b : Nat) : Bool := b == 5 || s.hasBit .PMU_WAKE_EN b

/-- R67, R69: an entry is refused or aborted with a reason, and EV_PMU_ENTRY_REFUSED is raised; the DMA engines go on (R311). -/
def State.refuseEntry (s : State) (reason : Nat) : State :=
  ((((s.fset F.PMU_STATE_STATUS.entering 0).fset F.PMU_STATE_STATUS.refused reason).fset
    F.PMU_STATE_STATUS.refused_clr 1).dmaPickAll).raise 376

/-- A wake source acts: before the commit point it aborts the entry (R69), below Day it starts the exit to Day (R67). -/
def State.wake (s : State) (b : Nat) : State :=
  if s.wakeEnabled b then
    if s.pwr.state = 0 then
      if s.flag F.PMU_STATE_STATUS.entering && wakeActs b s.pwr.target then s.refuseEntry 2 else s
    else if wakeActs b s.pwr.state then
      { s with pwr := { s.pwr with exiting := true, causes := s.pwr.causes ||| 2 ^ b } }
    else s
  else s

end Sys2Proof.Machine
end

