-- ==== Sys2Proof/Machine/Deliver.lean ====
section
/-! DEFINITION. Delivery of events (R377 to R381) and the two shapes in which every meaning ends: its own effect, then the
delivery of the events it raised. -/

namespace Sys2Proof.Machine

/-! ### The consumers of one event -/

/-- R377: routed to the island, always or by the island firmware (log entry 186). -/
def islandRouted (n : Nat) : Bool := n == 85 || n == 333 || Config.islandRoute n

/-- The event, where it is routed there, sets its pending bit in the island. -/
def State.toIsland (s : State) (n : Nat) (routed : Bool) : State :=
  { s with
    isl := { s.isl with
      pend := if routed then NSet.insert s.isl.pend n else s.isl.pend
      seen := if routed then NSet.erase s.isl.seen n else s.isl.seen } }

/-- R377: the interrupt of Tartal on the management cores is asserted. -/
def State.managementIrq (s : State) : Bool := (List.range 12).any (fun k => s.get .EVT_MGMT_PEND 0 k != 0)

/-- R377, AIA: a hart that no partition names receives nothing. -/
def State.toAia (s : State) (n : Nat) : State :=
  match s.recipe.corePartition (s.fget F.EVT_ROUTE.hart n) with
  | none => s
  | some p =>
    if s.fget F.EVT_ROUTE.aia_id n = 0 then s
    else s.emit (.aia (s.fget F.EVT_ROUTE.hart n) (s.flag F.EVT_ROUTE.m_file n) (s.fget F.EVT_ROUTE.aia_id n)
      (s.flag F.EVT_ROUTE.m_file n || s.recipe.partWorld p == 1))

/-- R379: cue link j arms its template, keyed at this raising plus the offset. -/
def State.cueLink (s : State) (j : Nat) : State :=
  let e := CueEntry.ofWords ((List.range 8).map (fun k => s.get .EVT_CUE_ENTRY j k))
  let r := s.arm 0 { e with key := s.tim.st + (s.get .EVT_CUE_OFFSET j).zeroExtend 64 }
  if r.1 = 0 then r.2.2.fset F.EVT_CUE_STATUS.err 0 j
  else ((s.fset F.EVT_CUE_STATUS.err r.1 j).bump F.EVT_CUE_STATUS.fail_count j).raise 6

/-- R380: haptic link j fires. -/
def State.hapLink (s : State) (j : Nat) : State :=
  let n := s.fget F.EVT_HAP_LINK_A.channel j
  let w := s.fget F.EVT_HAP_LINK_B.waveform j
  if s.hapAccepts n w then s.hapFire n w (s.fget F.EVT_HAP_LINK_B.amplitude j) (.link j) else s

/-- The cue links on an event, in order. -/
def State.cueLinksOn (s : State) (n : Nat) : List Nat :=
  (s.copies .EVT_CUE_SRC).filterMap (fun e =>
    if F.EVT_CUE_SRC.enable.of e.2 = 1 ∧ F.EVT_CUE_SRC.event.of e.2 = n then some e.1 else none)

/-- The haptic links on an event, in order. -/
def State.hapLinksOn (s : State) (n : Nat) : List Nat :=
  (s.copies .EVT_HAP_LINK_A).filterMap (fun e =>
    if F.EVT_HAP_LINK_A.enable.of e.2 = 1 ∧ F.EVT_HAP_LINK_A.event.of e.2 = n then some e.1 else none)

/-- R377: the five consumers of the route, and the sticky bit. -/
def State.routeEvent (s : State) (n : Nat) : State :=
  let s := s.setBit .EVT_STICKY (n % 32) 0 (n / 32)
  let s := s.toIsland n (islandRouted n)
  let s := onlyIf (s.flag F.EVT_ROUTE.mgmt n) (fun s => s.setBit .EVT_MGMT_PEND (n % 32) 0 (n / 32)) s
  let s := onlyIf (s.flag F.EVT_ROUTE.aia n) (fun s => s.toAia n) s
  let s := onlyIf (s.flag F.EVT_ROUTE.msix n) (fun s => s.msixPf (s.fget F.EVT_ROUTE.msix_vec n)) s
  onlyIf (s.flag F.EVT_ROUTE.pmu n && s.pwr.state == 1) (fun s => s.wake 10) s

/-- R308, R379, R380, R381: the listeners of an event whatever its route. -/
def State.eventListeners (s : State) (n : Nat) : State :=
  let s := s.dmaFire 3 n
  let s := forEach (s.cueLinksOn n) (fun j s => s.cueLink j) s
  let s := forEach (s.hapLinksOn n) (fun j s => s.hapLink j) s
  s.pmcCount 16 n 1

/-- R378: one event. In Day and Dusk it reaches every consumer; below Dusk only the island, if routed there; while the main
domain is in reset it is lost. -/
def State.deliverOne (s : State) (n : Nat) : State :=
  if s.awake then (s.routeEvent n).eventListeners n
  else s.toIsland n (s.dom.mainUp && islandRouted n)

/-- Deliver the events raised, oldest first, those raised on the way included. -/
def State.deliverN (s : State) : Nat → State
  | 0 => s
  | f + 1 =>
    match s.raised with
    | [] => s
    | n :: t => ({ s with raised := t }.deliverOne n).deliverN f

/-- Deliver what the command raised. Events that keep raising events (a cue link on EV_SYS_CUE_LINK_FAIL) go on at the next
command after 64 further deliveries (log entry 32). -/
def State.deliver (s : State) : State := s.deliverN (s.raised.length + 64)

/-! ### How a meaning ends -/

/-- What no command changes: the queue of waiting commands and OTP (R38, R59). -/
def keep (s t : State) : State := { t with pending := s.pending, fuses := s.fuses }

/-- The state in which a command ends that stores nothing in memory: its own effect, the events it raised delivered. -/
def settled (s t : State) : State := { keep s t.deliver with ram := s.ram }

/-- The state in which a command ends that stores in memory. Delivery finds the stores made. -/
def settledMem (s : State) (w : List Store) (t : State) : State :=
  { keep s ({ t with ram := Memory.storeAll s.ram w } : State).deliver with ram := Memory.storeAll s.ram w }

/-- The end of a meaning that stores nothing in memory. -/
def done (f : State → State) (s : State) : Host.Outcome State Fault Refusal := .next (settled s (f s))

/-- The end of a meaning that stores in memory: the stores, as they follow from the state before, and the rest of its
effect. -/
def doneMem (w : State → List Store) (f : State → State) (s : State) : Host.Outcome State Fault Refusal :=
  .next (settledMem s (w s) (f s))

/-- The end of a meaning whose stores and other effects come from one function. -/
def packetEnd (f : State → PacketEffect) (s : State) : Host.Outcome State Fault Refusal :=
  doneMem (fun s => (f s).1) (fun s => (f s).2) s

/-- The end of a meaning that may lose memory, as power and reset do. -/
def doneLoss (f : State → State) (s : State) : Host.Outcome State Fault Refusal :=
  .next { keep s (f s).deliver with ram := if (f s).ram.isEmpty then [] else s.ram }

/-- The registers that the delivery of an event may write. -/
def Reg.delivered : Reg → Bool
  | .EVT_STICKY | .EVT_MGMT_PEND | .PMU_STATE_STATUS | .CH_STATUS | .CH_CUR_LO | .CH_CUR_HI | .CH_DONE_BYTES | .ENG_STATUS
  | .CH_MISSED_COUNT | .CRC_STATUS | .TFAULT_ADDR_LO | .TFAULT_ADDR_HI | .TFAULT_INFO | .INST_STATUS
  | .CPX_FENCE_VIOL_ADDR_LO | .CPX_FENCE_VIOL_ADDR_HI | .CPX_FENCE_VIOL_INFO | .MEM_ERR_ADDR_LO | .MEM_ERR_ADDR_HI
  | .MEM_ERR_INFO | .MEM_UE_COUNT | .CUE_COUNT | .CUE_GLOBAL | .EVT_CUE_STATUS | .HAP_CH_STATUS | .HAP_STATUS
  | .HAP_CH_FIRE_COUNT | .HAP_CH_DROP_COUNT | .CUE_LAST_FAIL | .PMC_VAL_LO | .PMC_VAL_HI | .PMC_MIRROR_OVF => true
  | _ => false

end Sys2Proof.Machine
end

