-- ==== Sys2Proof/Machine/AudCmd.lean ====
section
/-! DEFINITION. The commands of audio (17_audio.md). -/

namespace Sys2Proof.Machine

/-! ### The sample instant (R363 to R371) -/

/-- The channel of a TDM input: silence where its port carries none (R365). -/
def State.inputSample (s : State) (obs : AudioObs) (c : Nat) : Rat :=
  if s.portClocked (c / 16) ∧ c % 16 < portChannels (s.recipe.tdm (c / 16)) then
    match obs.inputs.find? (fun e => e.1.val == c) with
    | some e => wordSample (s.portWord (c / 16)) e.2
    | none => 0
  else 0

/-- The sources at instant n, ST t: inputs, receive streams, players and tones. -/
def State.sourcesInstant (s : State) (fs n : Nat) (t : ST) (obs : AudioObs) : State :=
  let s := { s with aud := { s.aud with heard := [] } }.drawn
  let s := forEach (List.range 128) (fun c u => u.hear c (s.inputSample obs c)) s
  let s := forEach ((List.range 4).filter (fun k => s.rxOn k)) (fun k s => s.rxInstant fs n k) s
  let s := forEach (List.finRange 16) (fun k s => s.playInstant k t (obs.unfetched.contains k)) s
  forEach (List.range 8) (fun k s => s.toneInstant fs k) s

/-- The graph at instant n, ST t: sources, slots, buses and output channels. -/
def State.graphInstant (s : State) (fs n : Nat) (t : ST) (obs : AudioObs) : State :=
  let before := s
  let s := s.sourcesInstant fs n t obs
  let s := { s with aud := { s.aud with instant := n, fades := s.aud.fades.filter (fun f => !notLater f.endSt t) } }
  let s := onlyIf (n % (fs / 1000) == 0) (fun s => s.eqBoundary t) s
  let s := s.stepGains t (fun p => match p with
      | .busIn _ _ => true
      | _ => false)
    (fun p => match p with
      | .busIn b k => before.sourceSample (s.muxSel (.busIn b k))
      | _ => 0)
    (fun p => match p with
      | .busIn b k => s.slotSample t b k
      | _ => 0)
  let s := forEach (List.finRange 32) (fun b s => s.busInstant t b) s
  s.stepGains t (fun p => match p with
      | .out _ => true
      | _ => false)
    (fun p => match p with
      | .out o => before.busSample (s.muxSel (.out o))
      | _ => 0)
    (fun p => match p with
      | .out o => s.outSample t o
      | _ => 0)

/-- The ports and streams at instant n; the samples computed now wait for their frame (R364). -/
def State.portsInstant (s : State) (n : Nat) (t : ST) (obs : AudioObs) : State :=
  let now := s.outsInstant t
  let s := forEach ((List.range 8).filter (fun p => s.portClocked p)) (fun p s => s.portSend obs n p) s
  let s := forEach ((List.range 4).filter (fun k => s.txOn k)) (fun k s => s.txInstant n k now) s
  { s with aud := { s.aud with pipe := (now :: s.aud.pipe).take 2 } }

/-- SAMPLE_INSTANT (R363): an instant of the grid. -/
def State.sampleInstant (s : State) (obs : AudioObs) : State :=
  if s.awake && s.aud.running then
    match instantAt s.recipe.audFs s.gridTime.toNat with
    | none => s
    | some n => (s.graphInstant s.recipe.audFs n s.gridTime obs).portsInstant n s.gridTime obs
  else s

/-- SAMPLE_INSTANT (R363). -/
def execSampleInstant (obs : AudioObs) (s : State) : Host.Outcome State Fault Refusal :=
  done (fun s => s.sampleInstant obs) s

/-- A packet to an address, a UDP port and an Ethernet port is for stream k, with the bytes of its channels. -/
def State.rxTakes (s : State) (k eth : Nat) (addr : W32) (udp : Nat) (payload : List Byte) : Bool :=
  s.rxOn k && s.fget F.AES_CFG.eth k == eth && s.get .AES_ADDR k == addr && s.fget F.AES_UDP.port k == udp
    && payload.length == 144 * (s.fget F.AES_CFG.channels k + 1)

/-- A packet of stream k; one that arrives after its first sample's play point is discarded. -/
def State.rxPacket (s : State) (k : Nat) (stamp : W32) (payload : List Byte) : State :=
  let fs := s.recipe.audFs
  let m := sampleOf (instantIndex fs s.gridTime.toNat) stamp (s.get .AES_TS_OFFSET k)
  if s.gridTime.toNat ≤ instantNs fs m + (s.get .AES_LINK_OFFSET k).toNat then
    { s with aud := { s.aud with buffers := Tbl.set [] s.aud.buffers k (s.held k ++ [⟨m, payload⟩]) } }
  else s

/-- AES67_PACKET (R367): the streams that its destination names take it. -/
def State.aesPacket (s : State) (eth : Nat) (addr : W32) (udp : Nat) (stamp : W32) (payload : List Byte) : State :=
  if s.awake && s.aud.running then
    forEach ((List.range 4).filter (fun k => s.rxTakes k eth addr udp payload)) (fun k s => s.rxPacket k stamp payload) s
  else s

/-- AES67_PACKET (R367). -/
def execAes67Packet (eth : Fin 2) (addr : W32) (udp : BitVec 16) (timestamp : W32) (payload : List Byte) (s : State) :
    Host.Outcome State Fault Refusal :=
  done (fun s => s.aesPacket eth addr udp.toNat timestamp payload) s

/-! ### Gains, selections and the equaliser (R368, R369) -/

/-- GAIN_WRITE (R369). -/
def execGainWrite (a : Agent) (pt : GainPoint) (gain : BitVec 16) (s : State) : Host.Outcome State Fault Refusal :=
  done (fun s => s.byManager a s.awake (fun s => s.gainWrite pt gain)) s

/-- GAIN_STEP_DEADLINE (R369): 20 ms after the first write the gain steps. -/
def State.gainDeadline (s : State) (pt : GainPoint) : State :=
  match s.gainWaiting pt with
  | none => s
  | some p => if notLater p.deadline s.gridTime ∧ s.gainHeld s.gridTime pt = false then s.gainApply pt else s

/-- GAIN_STEP_DEADLINE (R369). -/
def execGainStepDeadline (pt : GainPoint) (s : State) : Host.Outcome State Fault Refusal :=
  done (fun s => s.whenAwake (fun s => s.gainDeadline pt)) s

/-- SELECTION_WRITE (R368, R369). -/
def execSelectionWrite (a : Agent) (m : MuxPoint) (sel : Byte) (s : State) : Host.Outcome State Fault Refusal :=
  done (fun s => s.byManager a s.awake (fun s => s.muxWrite m sel.toNat)) s

/-- EQ_COMMIT (R369). -/
def State.eqCommit (s : State) (b : Nat) : State :=
  { s with aud := { s.aud with eqDue := s.aud.eqDue ++ [(b, s.gridTime)] } }

/-- EQ_COMMIT (R369). -/
def execEqCommit (a : Agent) (b : Fin 32) (s : State) : Host.Outcome State Fault Refusal :=
  done (fun s => s.byManager a s.awake (fun s => s.eqCommit b)) s

/-! ### Players (R370) -/

/-- PLAYER_START (R370): `clip` of the write names the clip. -/
def execPlayerStart (a : Agent) (n : Fin 16) (clip : BitVec 16) (s : State) : Host.Outcome State Fault Refusal :=
  done (fun s => s.byManager a s.awake (fun s => ((s.fset F.PLAYER_CTRL.clip clip.toNat n).audioStart n clip.toNat).2)) s

/-- PLAYER_STOP (R370): it fades over PLAYER_FADE. -/
def execPlayerStop (a : Agent) (n : Fin 16) (s : State) : Host.Outcome State Fault Refusal :=
  done (fun s => s.byManager a s.awake (fun s => (s.audioStop n (s.fget F.PLAYER_FADE.ms n)).2)) s

/-- R370: the player holds the clip with its first 4 ms. -/
def State.playPrime (s : State) (n clip : Nat) : State :=
  if s.aud.running && s.clipExists clip then
    let r := s.clipOpen clip true
    let s := r.2.setPlayer n { r.2.player n with primed := some (clip, r.1) }
    if s.playing n then s else s.fset F.PLAYER_STATUS.state playPrimed n
  else s

/-- PLAYER_PRIME (R370). -/
def execPlayerPrime (a : Agent) (n : Fin 16) (clip : BitVec 16) (s : State) : Host.Outcome State Fault Refusal :=
  done (fun s => s.byManager a s.awake (fun s => (s.fset F.PLAYER_CTRL.clip clip.toNat n).playPrime n clip.toNat)) s

/-! ### Silence (R372) -/

/-- A level in dBFS above the silence threshold of a port, as an amplitude. -/
def State.silenceLevel (s : State) (p db : Nat) : Rat := gainFactor ((100 * db : Nat) - (100 * s.fget F.SIL_CFG.threshold p : Nat))

/-- Every channel of the block stays below the threshold. -/
def State.quietBlock (s : State) (p : Nat) : Bool := decide (s.portPeak p < s.silenceLevel p 0)

/-- A channel reaches the threshold plus 3 dB. -/
def State.loudBlock (s : State) (p : Nat) : Bool := decide (s.silenceLevel p 3 ≤ s.portPeak p)

/-- Quiet for `hold`: AMPn_EN goes low. -/
def State.goSilent (s : State) (p : Nat) : State :=
  if s.flag F.SIL_STATUS.silent p then s else ((s.fset F.SIL_STATUS.silent 1 p).ampSet p false).raise 368

/-- A loud block: AMPn_EN goes high. -/
def State.goActive (s : State) (p : Nat) : State :=
  if s.flag F.SIL_STATUS.amp_en p then s else ((s.fset F.SIL_STATUS.silent 0 p).ampSet p true).raise 369

/-- The quiet blocks in a row of a port. -/
def State.setQuiet (s : State) (p n : Nat) : State := { s with aud := { s.aud with quiet := Tbl.set 0 s.aud.quiet p n } }

/-- The number of the block of 10 ms that runs. -/
def State.blockNow (s : State) : Nat := instantIndex s.recipe.audFs s.gridTime.toNat / (s.recipe.audFs / 100)

/-- The block of a port is judged, and the next begins. -/
def State.judgeBlock (s : State) (p : Nat) : State :=
  let quiet := if s.quietBlock p then Tbl.get 0 s.aud.quiet p + 1 else 0
  let s := s.setQuiet p quiet
  let s :=
    if 0 < quiet then (if 10 * s.fget F.SIL_CFG.hold p ≤ quiet then s.goSilent p else s)
    else if s.loudBlock p then s.goActive p else s
  { s with aud := { s.aud with peaks := Tbl.set 0 s.aud.peaks p 0, judged := Tbl.set 0 s.aud.judged p s.blockNow } }

/-- SILENCE_BLOCK (R372): a block of 10 ms of a port whose clock runs has ended. -/
def State.silenceBlock (s : State) (p : Nat) : State :=
  if s.awake && s.portClocked p && s.blockNow != Tbl.get 0 s.aud.judged p then s.judgeBlock p else s

/-- SILENCE_BLOCK (R372). -/
def execSilenceBlock (n : Fin 8) (s : State) : Host.Outcome State Fault Refusal :=
  done (fun s => s.silenceBlock n) s

/-! ### External bit clocks (R77) -/

/-- TDM_BIT_CLOCK_STOP (R77): status of the port's domain holds. -/
def State.bitClockStop (s : State) (n : Nat) : State :=
  let s := { s with aud := { s.aud with stopped := NSet.insert s.aud.stopped n } }
  if s.awake then s.showClocks else s

/-- TDM_BIT_CLOCK_STOP (R77). -/
def execTdmBitClockStop (n : Fin 8) (s : State) : Host.Outcome State Fault Refusal := done (fun s => s.bitClockStop n) s

/-- TDM_BIT_CLOCK_RUNS (R77): the values written last act, as they stand in the registers. -/
def State.bitClockRuns (s : State) (n : Nat) : State :=
  let s := { s with aud := { s.aud with stopped := NSet.erase s.aud.stopped n } }
  if s.awake then s.showClocks else s

/-- TDM_BIT_CLOCK_RUNS (R77). -/
def execTdmBitClockRuns (n : Fin 8) (s : State) : Host.Outcome State Fault Refusal := done (fun s => s.bitClockRuns n) s

end Sys2Proof.Machine
end

