-- ==== Sys2Proof/Machine/Latch.lean ====
section
/-! DEFINITION. Values latched for one agent by a read (R76, R100, R332). -/

namespace Sys2Proof.Machine

/-- Latch a value for an agent, in place of an earlier one of the same register copy. -/
def State.latch (s : State) (a : Agent) (r : Reg) (i : Nat) (v : W32) : State :=
  { s with shadows := ⟨a, r, i, v⟩ :: s.shadows.filter (fun x => !(x.agent == a && x.reg == r && x.i == i)) }

/-- The value latched for an agent. -/
def State.latched (s : State) (a : Agent) (r : Reg) (i : Nat) : Option W32 :=
  (s.shadows.find? (fun x => x.agent == a && x.reg == r && x.i == i)).map (·.value)

/-- The low and the high word of a 64-bit value. -/
def lowWord (v : BitVec 64) : W32 := v.truncate 32
/-- The high word. -/
def highWord (v : BitVec 64) : W32 := (v >>> 32).truncate 32

/-- Latch a 64-bit value in two registers. -/
def State.latch64 (s : State) (a : Agent) (lo hi : Reg) (i : Nat) (v : BitVec 64) : State :=
  (s.latch a lo i (lowWord v)).latch a hi i (highWord v)

/-- The value that a read returns to an agent. -/
def State.answer (s : State) (a : Agent) (v : W32) : State := s.emit (.readValue a v)

end Sys2Proof.Machine
end

