-- ==== Sys2Proof/Machine/AxisCmd.lean ====
section
/-! DEFINITION. The commands of the axes (R92 to R97, R100, R115, R356). -/

namespace Sys2Proof.Machine

/-! ### Entering states (R95, R96, R115) -/

/-- The key of a cue lies between two positions in its direction (R114, R115). -/
def crosses (e : CueEntry) (p q : Int) : Bool :=
  (decide (p < e.position) && decide (e.position ≤ q) && bit e.direction 0 == 1)
    || (decide (q ≤ e.position) && decide (e.position < p) && bit e.direction 1 == 1)

/-- R115: staged cues of an axis that enters LOST return to the table unlaunched. -/
def State.unstageAxis (s : State) (ax : Nat) : State :=
  let back (c : CueSlot) : CueSlot :=
    if c.entry.axisKeyed && c.entry.axis == ax && c.staged then { c with staged := false, late := false } else c
  let slots := s.cue.slots.map (fun (e : Nat × CueSlot) => (e.1, back e.2))
  ({ s with cue := { s.cue with slots := slots, axisPrev := Tbl.set none s.cue.axisPrev ax none } }).fset
    F.CUE_GLOBAL.staged (slots.filter (fun (c : Nat × CueSlot) => c.2.staged)).length

/-- R96: the axis enters LOST: position frozen at the deadline, window cleared. -/
def State.axisLose (s : State) (ax : Nat) : State :=
  let x := s.axis ax
  let p := (s.axisAt ax x.deadline).1
  let s := s.setAxis ax { x with window := [], count := 0, frozen := some p }
  ((s.fset F.AXIS_STATUS.state axLost ax).unstageAxis ax).raise (24 + ax)

/-- R96: the coast deadline: the stamp of the newest accepted sample plus `coast_us`. -/
def State.axisDeadline (s : State) (ax : Nat) : ST :=
  (((s.axis ax).window.head?.map (·.1)).getD 0) + BitVec.ofNat 64 (axCoast (s.recipe.axis ax))

/-- R96: COASTING with its deadline; past the deadline at once LOST. -/
def State.axisCoast (s : State) (ax : Nat) : State :=
  let d := s.axisDeadline ax
  let s := (s.setAxis ax { s.axis ax with deadline := d }).fset F.AXIS_STATUS.state axCoasting ax
  if notLater d s.gridTime then s.axisLose ax else s

/-- R68, R95: an axis that was not sampled below Dusk is LOST: it freezes at p(deadline) where it was TRACKING or COASTING, and
keeps the position frozen before otherwise (log entry 85). -/
def State.axisDrop (s : State) (ax : Nat) : State :=
  let s := s.setAxis ax { s.axis ax with reading := none, lastInstant := s.gridTime - 1 }
  if s.axState ax = axTracking then (s.setAxis ax { s.axis ax with deadline := s.axisDeadline ax }).axisLose ax
  else if s.axState ax = axCoasting then s.axisLose ax
  else if s.axState ax = axAcquiring then
    (((s.setAxis ax { s.axis ax with window := [], count := 0 }).fset F.AXIS_STATUS.state axLost ax).unstageAxis ax).raise
      (24 + ax)
  else s

/-- R106, R111: a cue is voided: its slot is freed, EV_CUE_VOIDED is raised and CUE_VOID_COUNT counts. -/
def State.voidCue (s : State) (n : Nat) (c : CueSlot) : State :=
  (((s.freeCue n).countCues c.entry.owner.toNat).bump F.CUE_VOID_COUNT.count).raise 42

/-- R115: a cue whose key was crossed during the loss is voided with `void_after`, and is due at once otherwise. -/
def State.crossedCue (s : State) (n : Nat) (c : CueSlot) : State :=
  if c.entry.voidAfter then s.voidCue n c
  else (s.putCue n { c with staged := true, key := s.gridTime, due := s.gridTime, late := true }).countCues
    c.entry.owner.toNat

/-- R115: on entry to TRACKING after a loss the frozen position is compared with the position now. -/
def State.afterLoss (s : State) (ax : Nat) (frozen : Int) : State :=
  let now := (s.axisAt ax s.gridTime).1
  let hit := s.cue.slots.filter (fun e =>
    e.2.entry.axisKeyed && e.2.entry.axis == ax && !e.2.staged && crosses e.2.entry frozen now)
  forEach hit (fun e s => s.crossedCue e.1 e.2) s

/-- R95, R97: entry to TRACKING. -/
def State.axisTrack (s : State) (ax : Nat) : State :=
  let x := s.axis ax
  let s := (s.setAxis ax { x with frozen := none }).fset F.AXIS_STATUS.state axTracking ax
  let s := (s.fset F.AXIS_STATUS.reject_count 0 ax).raise (32 + ax)
  match x.frozen with
  | some f => s.afterLoss ax f
  | none => s

/-! ### Samples (R93, R95, R97) -/

/-- R95, R97: a missing sample. -/
def State.axisMissing (s : State) (ax : Nat) : State :=
  if s.axState ax = axTracking then s.axisCoast ax
  else if s.axState ax = axAcquiring then s.setAxis ax { s.axis ax with window := [], count := 0 }
  else s

/-- A sample accepted: the newest of the fit window; u follows (R93). -/
def AxisState.accept (x : AxisState) (b : List Byte) (keepOld : Bool) (t : ST) (c : Int) : AxisState :=
  { x with
    window := ((t, positionOf b c) :: (if keepOld then x.window else [])).take (axWindow b)
    unwrapped := some c
    count := (if keepOld then x.count else 0) + 1 }

/-- R97: a reading of the axis. -/
def State.axisReading (s : State) (ax : Nat) (t : ST) (raw : Nat) : State :=
  let b := s.recipe.axis ax
  let x := s.axis ax
  let c := unwrap (axModulus b) x.unwrapped raw
  let x := { x with unwrapped := some (x.unwrapped.getD raw) }
  let st := s.axState ax
  if st = axLost then
    (s.setAxis ax (x.accept b false t c)).fset F.AXIS_STATUS.state axAcquiring ax
  else if st = axAcquiring then
    let s := s.setAxis ax (x.accept b (plausible b false x.window t (positionOf b c)) t c)
    if axResume b ≤ (s.axis ax).count then s.axisTrack ax else s
  else if plausible b true x.window t (positionOf b c) then
    let s := s.setAxis ax (x.accept b true t c)
    if st = axCoasting then s.axisTrack ax else s
  else (s.bumpSat F.AXIS_STATUS.reject_count ax).axisMissing ax

/-! ### The SSI port (R356) -/

/-- The raw number of a reading: the low raw_bits as they arrive, decoded from Gray code if the port is so coded. -/
def grayDecode : Nat → Nat → Nat
  | 0, _ => 0
  | n + 1, v => (if bit (grayDecode n (v / 2)) 0 = 1 then 1 - v % 2 else v % 2) + 2 * grayDecode n (v / 2)

/-- Number of ones in the low n bits. -/
def onesIn : Nat → Nat → Nat
  | 0, _ => 0
  | n + 1, v => v % 2 + onesIn n (v / 2)

/-- R356: parity over the raw and extra bits fails. -/
def parityFails (kind : Nat) (rawBits extra : Nat) (f : SsiFrame) : Bool :=
  let ones := onesIn rawBits f.bits.toNat + onesIn extra f.extra.toNat + f.parity.toNat
  if kind = 1 then ones % 2 == 1 else if kind = 2 then ones % 2 == 0 else false

/-- R356: the outcome of a read in SSI_STATUS: framing and parity errors, monoflop errors, else the raw value. -/
def State.ssiResult (s : State) (p rawBits : Nat) (f : SsiFrame) : Bool × State :=
  let e := s.recipe.ssi p
  let parity := parityFails (u8 e 4) rawBits (u8 e 2) f
  let bad := f.lowAtStart || parity || !f.monoflopOk
  let raw := f.bits.toNat % 2 ^ rawBits
  let raw := if u8 e 3 = 1 then grayDecode rawBits raw else raw
  let s := onlyIf f.lowAtStart (fun s => s.bumpSat F.SSI_STATUS.framing p) s
  let s := onlyIf parity (fun s => s.bumpSat F.SSI_STATUS.parity p) s
  let s := onlyIf (!f.monoflopOk) (fun s => s.bumpSat F.SSI_STATUS.monoflop p) s
  let s := s.fflag F.SSI_STATUS.last_ok (!bad) p
  if bad then (false, s.raise 358) else (true, s.put .SSI_RAW (BitVec.ofNat 32 raw) p)

/-! ### The commands -/

/-- R92: a multiple of the sample period lies after the last instant and has come; the wrap to 0 is a multiple. -/
def State.sampleDue (s : State) (ax : Nat) : Bool :=
  let p := max 1 (axPeriod (s.recipe.axis ax))
  let from_ := (s.axis ax).lastInstant
  let n := (s.gridTime - from_).toNat
  decide (n < 2 ^ 63) && (decide (p ≤ from_.toNat % p + n) || decide (s.gridTime.toNat < from_.toNat))

/-- The multiple of the sample period that was reached last. -/
def State.axisInstantSt (s : State) (ax : Nat) : ST :=
  s.gridTime - BitVec.ofNat 64 (s.gridTime.toNat % max 1 (axPeriod (s.recipe.axis ax)))

/-- AXIS_SAMPLE_INSTANT (R92), at a multiple of the sample period: a read that has not ended is a missing sample; then the next read
starts. -/
def State.axisInstant (s : State) (ax : Nat) : State :=
  if s.awake && s.axState ax != axDisabled && s.sampleDue ax then
    let b := s.recipe.axis ax
    let s := if (s.axis ax).reading.isSome then s.axisMissing ax else s
    let s := s.setAxis ax { s.axis ax with
      reading := some (s.axisInstantSt ax - BitVec.ofNat 64 (axLatency b)), lastInstant := s.gridTime }
    s.emit (.ssiClock (axSsi b) (u8 b 2 + u8 (s.recipe.ssi (axSsi b)) 2 + 1))
  else s

/-- AXIS_SAMPLE_INSTANT (R92). -/
def execAxisSampleInstant (ax : Fin 8) (s : State) : Host.Outcome State Fault Refusal :=
  done (fun s => s.axisInstant ax) s

/-- SSI_READ_END (R356, R92 to R97): a read that ends at or after the coast deadline finds the axis LOST (R96). -/
def State.ssiReadEnd (s : State) (ax : Nat) (f : SsiFrame) : State :=
  match (s.axis ax).reading with
  | none => s
  | some t =>
    if s.awake && s.axState ax != axDisabled then
      let b := s.recipe.axis ax
      let s := s.setAxis ax { s.axis ax with reading := none }
      let s := if s.axState ax = axCoasting ∧ notLater (s.axis ax).deadline s.gridTime then s.axisLose ax else s
      let r := s.ssiResult (axSsi b) (u8 b 2) f
      if r.1 then
        (r.2.put .AXIS_SAMPLE_RAW (r.2.get .SSI_RAW (axSsi b)) ax).axisReading ax t (r.2.get .SSI_RAW (axSsi b)).toNat
      else r.2.axisMissing ax
    else s

/-- SSI_READ_END (R356). -/
def execSsiReadEnd (ax : Fin 8) (f : SsiFrame) (s : State) : Host.Outcome State Fault Refusal :=
  done (fun s => s.ssiReadEnd ax f) s

/-- COAST_DEADLINE (R96): ST has reached the deadline. -/
def State.coastDeadline (s : State) (ax : Nat) : State :=
  if s.awake && s.axState ax == axCoasting && notLater (s.axis ax).deadline s.gridTime then s.axisLose ax else s

/-- COAST_DEADLINE (R96). -/
def execCoastDeadline (ax : Fin 8) (s : State) : Host.Outcome State Fault Refusal :=
  done (fun s => s.coastDeadline ax) s

/-- AXIS_POS_READ (R100): the axis is evaluated at the ST of the read; the high word, the velocity and the evaluation ST are
latched for the agent. -/
def State.axisPosRead (s : State) (a : Agent) (ax : Nat) : State :=
  if s.dom.mainUp && decide (s.pwr.state ≤ 2) then
    let v := s.axisAt ax s.gridTime
    let p := BitVec.ofInt 64 v.1
    let s := s.latch a .AXIS_POS_HI ax (highWord p)
    let s := (s.latch64 a .AXIS_VEL_LO .AXIS_VEL_HI ax (BitVec.ofInt 64 v.2)).latch64 a .AXIS_EVAL_ST_LO .AXIS_EVAL_ST_HI ax
      s.gridTime
    s.answer a (lowWord p)
  else s.emit (.busError a)

/-- AXIS_POS_READ (R100). -/
def execAxisPosRead (a : Agent) (ax : Fin 8) (s : State) : Host.Outcome State Fault Refusal :=
  done (fun s => s.axisPosRead a ax) s

end Sys2Proof.Machine
end

