-- ==== Sys2Proof/Machine/OutLock.lean ====
section
/-! DEFINITION. Lock states of the outputs and their change at a load of show time (R82, R212), and the byte counts of a
bandwidth window (R385). -/

namespace Sys2Proof.Machine

/-- The lock states (R212): OFF is 0. -/
def lockFreeRun : Nat := 1
/-- ALIGNING. -/
def lockAligning : Nat := 2
/-- LOCKED. -/
def lockLocked : Nat := 3
/-- HOLD. -/
def lockHold : Nat := 4
/-- MISMATCH. -/
def lockMismatch : Nat := 5

/-- The hidden part of an output tail. -/
def State.out (s : State) (o : Nat) : OutState := Tbl.get OutState.initial s.outs o

/-- Store the hidden part of an output tail. -/
def State.setOut (s : State) (o : Nat) (x : OutState) : State := { s with outs := Tbl.set OutState.initial s.outs o x }

/-- The lock state of an output. -/
def State.lockOf (s : State) (o : Nat) : Nat := s.fget F.OUT_STATUS.lock o

/-- R212: enter a lock state; a departure from LOCKED raises EV_OUT_LOCK_LOST, and the count towards R211 step 3 starts
again. -/
def State.setLock (s : State) (o st : Nat) : State :=
  let lost := s.lockOf o == lockLocked && st != lockLocked
  let s := (s.fset F.OUT_STATUS.lock st o).setOut o { s.out o with good := 0 }
  if lost then s.raise (232 + o) else s

/-- h_total and v_total of a timing (R209). -/
def Timing.hTotal (t : Timing) : Nat := t.hActive + t.hFront + t.hSync + t.hBack
/-- v_total. -/
def Timing.vTotal (t : Timing) : Nat := t.vActive + t.vFront + t.vSync + t.vBack
/-- The frame period P in 2^-32 ns, truncated (R209: kept with a 32-bit fraction; log entry 128). -/
def Timing.period32 (t : Timing) : Nat := t.hTotal * t.vTotal * 1000000 * 2 ^ 32 / t.pclk

/-- One genlock input. -/
def State.genIn (s : State) (i : Nat) : GenlockIn := Tbl.get GenlockIn.initial s.genlock i

/-- Store one genlock input. -/
def State.setGenIn (s : State) (i : Nat) (x : GenlockIn) : State :=
  { s with genlock := Tbl.set GenlockIn.initial s.genlock i x }

/-- R212, MISMATCH: reference period / m differs from the frame period by more than 0.1 %. -/
def State.genMismatch (s : State) (o period : Nat) : Bool :=
  let t := (s.out o).timing
  let m := max 1 (s.tailRecipe.outDivide o)
  let a : Int := period * 2 ^ 32
  let b : Int := t.period32 * m
  decide (b.natAbs < (a - b).natAbs * 1000)

/-- R212: what a V pulse of its reference does to an output with lock source GENLOCK. -/
def State.outGenlockV (s : State) (o : Nat) (x : GenlockIn) : State :=
  match x.period with
  | none => s
  | some p =>
    if s.lockOf o = lockHold then if 3 ≤ x.run then s.setLock o lockAligning else s
    else if s.lockOf o = lockMismatch then if s.genMismatch o p then s else s.setLock o lockAligning
    else if s.genMismatch o p then s.setLock o lockMismatch
    else s

/-- The enabled outputs that follow a genlock input, once ST is valid (R210). -/
def State.genOutputs (s : State) (input : Nat) : List Nat :=
  if s.stValid then
    (List.range 8).filter (fun o => s.lockOf o != 0 && s.lockOf o != lockFreeRun && s.tailRecipe.outLockSource o == 2
      && s.tailRecipe.outGenlock o == input)
  else []

/-- R212: the state in which an output starts to follow its lock source: ALIGNING, or HOLD while the genlock reference is lost. -/
def State.alignLock (s : State) (o : Nat) : Nat :=
  if s.tailRecipe.outLockSource o = 2 ∧ (s.genIn (s.tailRecipe.outGenlock o)).lost then lockHold else lockAligning

/-- R82, R212: at a load of ST every enabled output with a lock source aligns again. -/
def State.outsAlign (s : State) : State :=
  forEach (List.range 8) (fun o s =>
    if s.lockOf o = 0 ∨ s.tailRecipe.outLockSource o = 0 then s else s.setLock o (s.alignLock o)) s

/-- R385: the open window closes: the bytes moved are latched, BW_SEQ counts, and `short` says whether a step cut it. A
changed `window_us` takes effect now. -/
def State.bwClose (s : State) (short : Bool) : State :=
  let s := forEach (List.range 24) (fun n s =>
    s.put64 .BW_PORT_LO .BW_PORT_HI (BitVec.ofNat 64 (Tbl.get 0 s.evt.bytes n)) n) s
  let s := (s.bump F.BW_SEQ.seq).fflag F.BW_SEQ.short short
  let s := { s with evt := { s.evt with bytes := [], window := s.evt.window + 1, windowUs := s.fget F.BW_WINDOW.window_us } }
  onlyIf (s.flag F.BW_CTRL.win_event) (fun s => s.raise 5) s

end Sys2Proof.Machine
end

