-- ==== Sys2Proof/Machine/CmpOps.lean ====
section
/-! DEFINITION. Layers (R180 to R202): submission, release, commit, and what a frame start does with the layers of an
output. -/

namespace Sys2Proof.Machine

/-! ### The state of a layer -/

/-- The hidden part of a layer. -/
def State.layer (s : State) (n : Nat) : LayerState := Tbl.get LayerState.initial s.cmp.layers n

/-- R200: the layer is a cursor layer. -/
def isCursor (n : Nat) : Bool := decide (n < 8)

/-- The layer is a video layer. -/
def isVideo (n : Nat) : Bool := decide (32 ≤ n)

/-- The layer is axis-locked (R182). -/
def State.axisLocked (s : State) (n : Nat) : Bool := s.recipe.layerUsed n && s.recipe.layerAxis n != 255

/-- The frames that a layer holds (R189): the current one, and cursor frames not released yet, count. -/
def LayerState.held (x : LayerState) : Nat := x.queue.length + x.current.toList.length + x.old.length

/-- Store the hidden part of a layer; SUB_STATUS, REL_INFO, REL_ST and LAYER_STATUS show what they stand for. -/
def State.setLayer (s : State) (n : Nat) (x : LayerState) : State :=
  let s := { s with cmp := { s.cmp with layers := Tbl.set LayerState.initial s.cmp.layers n x } }
  let s := (s.fset F.SUB_STATUS.queued x.held n).fset F.SUB_STATUS.rel_pending x.rel.length n
  let s :=
    match x.rel with
    | [] => (s.put .REL_INFO 0 n).put64 .REL_ST_LO .REL_ST_HI 0 n
    | r :: _ =>
      (((s.fset F.REL_INFO.tag r.tag.toNat n).fset F.REL_INFO.status r.status n).fset F.REL_INFO.valid 1 n).put64
        .REL_ST_LO .REL_ST_HI r.st n
  (s.fset F.LAYER_STATUS.cur_tag ((x.current.map (·.tag.toNat)).getD 0) n).fflag F.LAYER_STATUS.has_frame x.current.isSome n

/-- The layer is shed (R202, R263). -/
def State.layerShed (s : State) (n : Nat) : Bool := s.flag F.LAYER_STATUS.shed n

/-! ### A register set (R187) -/

/-- Word j of a register set, in the order of the offsets 0x04 to 0x58. -/
def LayerSet.word (x : LayerSet) (j : Nat) : W32 := x.getD j 0
/-- A low half word. -/
def LayerSet.lo (x : LayerSet) (j : Nat) : Nat := (LayerSet.word x j).toNat % 65536
/-- A high half word. -/
def LayerSet.hi (x : LayerSet) (j : Nat) : Nat := (LayerSet.word x j).toNat / 65536
/-- LAYER_CTRL bit b. -/
def LayerSet.ctrl (x : LayerSet) (b : Nat) : Bool := (LayerSet.word x 0).getLsbD b
/-- plane_alpha. -/
def LayerSet.alpha (x : LayerSet) : Nat := bits (LayerSet.word x 0).toNat 15 8
/-- rel_vector. -/
def LayerSet.relVector (x : LayerSet) : Nat := bits (LayerSet.word x 0).toNat 23 16
/-- The format code. -/
def LayerSet.format (x : LayerSet) : Nat := (LayerSet.word x 1).toNat % 256
/-- src_w and src_h. -/
def LayerSet.srcW (x : LayerSet) : Nat := LayerSet.lo x 2
/-- src_h. -/
def LayerSet.srcH (x : LayerSet) : Nat := LayerSet.hi x 2
/-- crop_x. -/
def LayerSet.cropX (x : LayerSet) : Nat := LayerSet.lo x 3
/-- crop_y. -/
def LayerSet.cropY (x : LayerSet) : Nat := LayerSet.hi x 3
/-- dst_x, signed. -/
def LayerSet.dstX (x : LayerSet) : Int := signed 16 (LayerSet.lo x 4)
/-- dst_y, signed. -/
def LayerSet.dstY (x : LayerSet) : Int := signed 16 (LayerSet.hi x 4)
/-- dst_w. -/
def LayerSet.dstW (x : LayerSet) : Nat := LayerSet.lo x 5
/-- dst_h. -/
def LayerSet.dstH (x : LayerSet) : Nat := LayerSet.hi x 5
/-- Pitch k. -/
def LayerSet.pitch (x : LayerSet) (k : Nat) : Nat := (LayerSet.word x (6 + k)).toNat % 2 ^ 20
/-- The offset of plane 1 or 2. -/
def LayerSet.planeOff (x : LayerSet) (k : Nat) : Nat := (LayerSet.word x (7 + k)).toNat
/-- Opaque rectangle k: x, y, w, h. -/
def LayerSet.opq (x : LayerSet) (k : Nat) : Nat × Nat × Nat × Nat :=
  (LayerSet.lo x (11 + 2 * k), LayerSet.hi x (11 + 2 * k), LayerSet.lo x (12 + 2 * k), LayerSet.hi x (12 + 2 * k))
/-- Warp coefficient k, signed 16.16 (kx, ky, kθ). -/
def LayerSet.warpK (x : LayerSet) (k : Nat) : Int := (LayerSet.word x (19 + k)).toInt

/-- The shadow set of a layer, from its registers. -/
def State.shadowSet (s : State) (n : Nat) : LayerSet :=
  [s.get .LAYER_CTRL n, s.get .LAYER_FMT n, s.get .LAYER_SRC_SIZE n, s.get .LAYER_CROP n, s.get .LAYER_DST_POS n,
   s.get .LAYER_DST_SIZE n, s.get .LAYER_PITCH n 0, s.get .LAYER_PITCH n 1, s.get .LAYER_PLANE_OFF n 0,
   s.get .LAYER_PLANE_OFF n 1, s.get .LAYER_META_OFF n, s.get .LAYER_OPQ_POS n 0, s.get .LAYER_OPQ_SIZE n 0,
   s.get .LAYER_OPQ_POS n 1, s.get .LAYER_OPQ_SIZE n 1, s.get .LAYER_OPQ_POS n 2, s.get .LAYER_OPQ_SIZE n 2,
   s.get .LAYER_OPQ_POS n 3, s.get .LAYER_OPQ_SIZE n 3, s.get .WARP_K n 0, s.get .WARP_K n 1, s.get .WARP_K n 2]

/-! ### Formats (R183, R184) -/

/-- The bit of a format in a `formats` mask. -/
def formatBit (code : Nat) : Option Nat :=
  if code = 5 then some 0 else if code = 7 then some 1 else if code = 8 then some 2 else if code = 11 then some 3
  else if 192 ≤ code ∧ code ≤ 198 then some (code - 188) else none

/-- A YUV format. -/
def isYuv (code : Nat) : Bool := decide (192 ≤ code)
/-- 4:2:0. -/
def is420 (code : Nat) : Bool := code == 192 || code == 193 || code == 194 || code == 197
/-- 4:2:2. -/
def is422 (code : Nat) : Bool := code == 195 || code == 196
/-- The format has no alpha (R195). -/
def noAlpha (code : Nat) : Bool := code == 8 || isYuv code
/-- Planes beyond the first. -/
def morePlanes (code : Nat) : Nat := if code = 197 ∨ code = 198 then 2 else if isYuv code then 1 else 0

/-- Bytes of a row of plane 0 for a width. -/
def rowBytes0 (code w : Nat) : Nat :=
  if code = 5 ∨ code = 7 then 4 * w else if code = 8 ∨ code = 194 ∨ code = 196 then 2 * w else if code = 11 then 8 * w else w

/-- Bytes of a row of planes 1 and 2 for a width. -/
def rowBytes1 (code w : Nat) : Nat :=
  if code = 194 ∨ code = 196 then 4 * ceilDiv w 2
  else if code = 197 then ceilDiv w 2
  else if code = 198 then w
  else 2 * ceilDiv w 2

/-- Rows of planes 1 and 2 for a height. -/
def rows1 (code h : Nat) : Nat := if is420 code then ceilDiv h 2 else h

/-! ### The commit check (R188) -/

/-- R185: the scaling rule. -/
def LayerSet.scaleOk (x : LayerSet) (n : Nat) : Bool :=
  if isVideo n then
    decide (0 < LayerSet.srcW x) && decide (0 < LayerSet.srcH x) &&
      decide (LayerSet.srcW x ≤ 4 * LayerSet.dstW x) && decide (LayerSet.dstW x ≤ 8 * LayerSet.srcW x) &&
      decide (LayerSet.srcH x ≤ 4 * LayerSet.dstH x) && decide (LayerSet.dstH x ≤ 8 * LayerSet.srcH x)
  else LayerSet.dstW x == LayerSet.srcW x && LayerSet.dstH x == LayerSet.srcH x

/-- R184: the alignment and crop rules. -/
def LayerSet.alignOk (x : LayerSet) : Bool :=
  let c := LayerSet.format x
  LayerSet.pitch x 0 % 256 == 0 && decide (rowBytes0 c (LayerSet.srcW x) ≤ LayerSet.pitch x 0) &&
  (morePlanes c == 0 ||
    (LayerSet.pitch x 1 % 256 == 0 && decide (rowBytes1 c (LayerSet.srcW x) ≤ LayerSet.pitch x 1))) &&
  (List.range (morePlanes c)).all (fun k => LayerSet.planeOff x (1 + k) % 256 == 0) &&
  ((!is420 c && !is422 c) || LayerSet.cropX x % 2 == 0) && (!is420 c || LayerSet.cropY x % 2 == 0)

/-- R188: an opaque rectangle stays within the destination size. -/
def LayerSet.opqOk (x : LayerSet) : Bool :=
  (List.range 4).all (fun k =>
    let r := LayerSet.opq x k
    r.2.2.1 == 0 || (decide (r.1 + r.2.2.1 ≤ LayerSet.dstW x) && decide (r.2.1 + r.2.2.2 ≤ LayerSet.dstH x)))

/-- R188: the set may be committed. -/
def State.commitOk (s : State) (n : Nat) (x : LayerSet) : Bool :=
  decide (LayerSet.srcW x ≤ s.recipe.layerMaxW n) && decide (LayerSet.srcH x ≤ s.recipe.layerMaxH n) &&
  (match formatBit (LayerSet.format x) with
    | some b => bit (s.recipe.layerFormats n) b == 1
    | none => false) &&
  (LayerSet.word x 1).toNat / 256 % 4 != 3 &&
  LayerSet.scaleOk x n && LayerSet.alignOk x &&
  !(isYuv (LayerSet.format x) && ((LayerSet.word x 1).getLsbD 11 || (LayerSet.word x 1).getLsbD 12)) &&
  LayerSet.opqOk x &&
  (s.axisLocked n || (List.range 3).all (fun k => LayerSet.warpK x k == 0))

/-- R187: a commit copies the shadow set into the pending set, or sets `commit_err`. -/
def State.commitLayer (s : State) (n : Nat) : State :=
  if s.commitOk n (s.shadowSet n) then
    ((s.setLayer n { s.layer n with pending := some (s.shadowSet n) }).fset F.LAYER_COMMIT.pending 1 n).fset
      F.LAYER_COMMIT.commit_err 0 n
  else s.fset F.LAYER_COMMIT.commit_err 1 n

/-! ### Release (R193) -/

/-- DISPLAYED. -/
def relDisplayed : Nat := 1
/-- SKIPPED. -/
def relSkipped : Nat := 2
/-- LATE. -/
def relLate : Nat := 3
/-- CANCELLED. -/
def relCancelled : Nat := 4

/-- R193: the record of a release. -/
def State.relRecord (s : State) (n : Nat) (tag : BitVec 16) (status : Nat) (t : ST) : State :=
  let x := s.layer n
  if x.rel.length < 16 then s.setLayer n { x with rel := x.rel ++ [⟨tag, status, t⟩] }
  else s.fset F.SUB_STATUS.rel_lost 1 n

/-- R193: the signal of a release, to the layer's holder. -/
def State.relSignal (s : State) (n : Nat) : State :=
  match s.layerHolder n with
  | none => s
  | some 0 => s.raise 190
  | some h =>
    if h < 64 then s.msixGuest h (LayerSet.relVector (s.layer n).live)
    else if h < 72 then s.raise (182 + (h - 64)) else s

/-- A frame leaves the queue: record, signal, counts and EV_CMP_LATE. -/
def State.release (s : State) (n : Nat) (f : QFrame) (status : Nat) (t : ST) : State :=
  let s := (s.relRecord n f.tag status t).relSignal n
  if status = relLate then (s.bump F.CNT_LATE.count n).raise 178
  else if status = relSkipped then s.bump F.CNT_SKIPPED.count n
  else s

/-- Release every frame of a list. -/
def State.releaseAll (s : State) (n : Nat) (l : List QFrame) (status : Nat) (t : ST) : State :=
  forEach l (fun f s => s.release n f status t) s

/-- R193, `flush`: every queued frame but the current one. -/
def State.flushLayer (s : State) (n : Nat) : State :=
  let x := s.layer n
  (s.setLayer n { x with queue := [] }).releaseAll n x.queue relCancelled s.tim.st

/-- The layer without its current frame, and without what cursor memory holds. -/
def LayerState.bare (x : LayerState) : LayerState :=
  { x with current := none, old := [], copying := false, image := none, lag := 0, ready := none }

/-- R202, shedding: every frame goes, with records. -/
def State.dropFrames (s : State) (n : Nat) (t : ST) : State :=
  let x := s.layer n
  (s.setLayer n { x.bare with queue := [] }).releaseAll n (x.old ++ x.current.toList ++ x.queue) relCancelled t

/-- R202: a layer that hides does so, until it is enabled again: its frame goes, without a record. -/
def State.hideStep (s : State) (n : Nat) : State :=
  let x := s.layer n
  if x.leaving then s.setLayer n { x.bare with hidden := true, leaving := false, live := LayerSet.initial } else s

/-- R202, a reset or the destruction of the owning instance: queued frames and records go, without records; the layer is hidden
from the next frame start on. On an output that is off there is none, and it hides at once. -/
def State.hideLayer (s : State) (n : Nat) : State :=
  let s := s.setLayer n { s.layer n with queue := [], rel := [], pending := none, leaving := true }
  if s.lockOf (s.recipe.layerOut n) = 0 then s.hideStep n else s

/-! ### Submission (R189) -/

/-- R189: the error of a submission; 0 none. A not_before of 0 is earlier than every ST (R397). -/
def State.submitError (s : State) (n addr : Nat) (nb da : ST) (ref : Option Int) : Nat :=
  if 8 ≤ (s.layer n).held then 1
  else if addr % 256 ≠ 0 ∨ (da ≠ 0 ∧ nb ≠ 0 ∧ notLater da nb) ∨ (ref.isSome ∧ !s.axisLocked n) then 2
  else if s.layerShed n then 3
  else 0

/-- R189: a submission, from either path. -/
def State.submit (s : State) (n : Nat) (f : QFrame) : State :=
  let err := s.submitError n f.addr.toNat f.nb f.da f.ref
  let s := s.fset F.SUB_STATUS.err err n
  if err = 0 then s.setLayer n { s.layer n with queue := (s.layer n).queue ++ [f] }
  else (s.bump F.CNT_REFUSED.count n).raise 177

/-- R191: the oldest unflipped queued frame with the tag is marked. -/
def markFlipped (tag : BitVec 16) : List QFrame → List QFrame
  | [] => []
  | f :: t => if f.tag = tag ∧ !f.flipped then { f with flipped := true } :: t else f :: markFlipped tag t

/-- R191: LAYER_FLIP on a gated layer; refused when no queued frame carries the tag. A layer that is not gated takes it without
effect (log entry 123). -/
def State.layerFlip (s : State) (n : Nat) (tag : BitVec 16) : Option State :=
  let x := s.layer n
  if !LayerSet.ctrl x.live 1 then some s
  else if x.queue.any (fun f => f.tag == tag) then some (s.setLayer n { x with queue := markFlipped tag x.queue })
  else none

/-! ### Selection (R190) -/

/-- A frame is stale at fs. -/
def State.staleAt (s : State) (f : QFrame) (fs : ST) : Bool := s.stValid && f.da != 0 && notLater f.da fs

/-- A frame is eligible at fs, on a layer that is gated or not. -/
def State.eligible (s : State) (gated : Bool) (f : QFrame) (fs : ST) : Bool :=
  !s.staleAt f fs && (f.nb == 0 || (s.stValid && notLater f.nb fs)) && (!gated || f.flipped)

/-- The queue after the stale frames went, split at the winner: the frames before it, the winner, the frames after. -/
def splitWinner (ok : QFrame → Bool) (q : List QFrame) : Option (List QFrame × QFrame × List QFrame) :=
  match q with
  | [] => none
  | f :: t =>
    match splitWinner ok t with
    | some (a, w, b) => some (f :: a, w, b)
    | none => if ok f then some ([], f, t) else none

/-- R198: p_ref of a frame selected now. -/
def State.warpRef (s : State) (n : Nat) (f : QFrame) : Int :=
  match f.ref with
  | some r => r
  | none => if s.axisLocked n then (s.axisAt (s.recipe.layerAxis n) f.nb).1 else 0

/-- R190, R200: the winner becomes current. The frame it replaces is released DISPLAYED; on a cursor layer it stays until the
new image has been shown. -/
def State.makeCurrent (s : State) (n : Nat) (w : QFrame) (rest : List QFrame) (fs : ST) : State :=
  let x := s.layer n
  let x' := { x with queue := rest, current := some w, pRef := s.warpRef n w, clamped := false, fresh := true }
  if isCursor n then s.setLayer n { x' with old := x.old ++ x.current.toList, copying := true }
  else (s.setLayer n x').releaseAll n x.current.toList relDisplayed fs

/-- R200: the frames whose successor has been shown are released; an image that came late is shown from this frame on. -/
def State.cursorStep (s : State) (n : Nat) (fs : ST) : State :=
  if isCursor n then
    let x := s.layer n
    let late := x.ready.map (fun r => (r.1, r.2 - x.lag))
    (s.setLayer n { x with
      old := x.old.drop x.lag, image := (late.map Prod.fst).or x.image, lag := (late.map Prod.snd).getD 0, ready := none
      }).releaseAll n (x.old.take x.lag) relDisplayed fs
  else s

/-- R192: `stale`, and EV_CMP_STALE on a change to 1. -/
def State.staleStep (s : State) (n : Nat) (fs : ST) : State :=
  let now := ((s.layer n).current.map (fun f => s.staleAt f fs)).getD false
  onlyIf (now && !s.flag F.LAYER_STATUS.stale n) (fun s => s.raise 179) (s.fflag F.LAYER_STATUS.stale now n)

/-- R190 for one layer at frame start fs. -/
def State.selectLayer (s : State) (n : Nat) (fs : ST) : State :=
  let s := s.cursorStep n fs
  let x := s.layer n
  let late := x.queue.filter (fun f => s.staleAt f fs)
  let kept := x.queue.filter (fun f => !s.staleAt f fs)
  let s := (s.setLayer n { x with queue := kept }).releaseAll n late relLate fs
  let s :=
    match splitWinner (fun f => s.eligible (LayerSet.ctrl x.live 1) f fs) kept with
    | none => s
    | some (before, w, rest) => (s.releaseAll n before relSkipped fs).makeCurrent n w rest fs
  s.staleStep n fs

/-! ### A frame start (R180) -/

/-- The layers of an output. -/
def Recipe.layersOf (r : Recipe) (o : Nat) : List Nat := (List.range 48).filter (fun n => r.layerUsed n && r.layerOut n == o)

/-- R187: a pending set becomes live. A hidden layer shows again once its owner enables it (R202). -/
def State.latchLayer (s : State) (n : Nat) : State :=
  let x := s.layer n
  match x.pending with
  | none => s
  | some p =>
    (s.setLayer n { x with live := p, pending := none, hidden := x.hidden && !LayerSet.ctrl p 0 }).fset
      F.LAYER_COMMIT.pending 0 n

/-- The canvas of an output: width and height (R182: a locked pair has twice the width). -/
def State.canvas (s : State) (o : Nat) : Nat × Nat :=
  ((s.out o).timing.hActive * (if s.recipe.outPair o then 2 else 1), (s.out o).timing.vActive)

/-- R192, R202: the layer contributes to the picture. -/
def State.contributes (s : State) (n : Nat) : Bool :=
  let x := s.layer n
  LayerSet.ctrl x.live 0 && x.current.isSome && !x.hidden && !s.layerShed n &&
    !(s.flag F.LAYER_STATUS.stale n && LayerSet.ctrl x.live 4)

/-- R195: the layer provides cover. -/
def State.covers (s : State) (n : Nat) : Bool :=
  s.contributes n && LayerSet.alpha (s.layer n).live == 255 && !s.axisLocked n && !isCursor n

/-- A rectangle in canvas pixels: first column and row, and those after the last. -/
abbrev Rect := Int × Int × Int × Int

/-- R195: the opaque areas of a layer, in canvas pixels. -/
def LayerSet.opaqueAreas (x : LayerSet) : List Rect :=
  let at_ (px py w h : Nat) : Rect :=
    (LayerSet.dstX x + px, LayerSet.dstY x + py, LayerSet.dstX x + px + w, LayerSet.dstY x + py + h)
  if LayerSet.ctrl x 2 || noAlpha (LayerSet.format x) then [at_ 0 0 (LayerSet.dstW x) (LayerSet.dstH x)]
  else ((List.range 4).map (LayerSet.opq x)).filterMap (fun r =>
    if r.2.2.1 = 0 then none else some (at_ r.1 r.2.1 r.2.2.1 r.2.2.2))

/-- The segments of one axis that lie wholly inside [a, b) on a canvas of the given extent, for segments of g pixels. -/
def segmentsInside (g extent : Nat) (a b : Int) : Nat × Int :=
  let a' := (max a 0).toNat
  let b' := (min b extent).toNat
  (ceilDiv a' g, if b' = extent then ((extent + g - 1) / g : Nat) - 1 else ((b' / g : Nat) : Int) - 1)

/-- R196: the segments wholly inside an area. -/
def segRect (canvas : Nat × Nat) (r : Rect) : Option SegRect :=
  let c := segmentsInside 64 canvas.1 r.1 r.2.2.1
  let b := segmentsInside 16 canvas.2 r.2.1 r.2.2.2
  if (c.1 : Int) ≤ c.2 ∧ (b.1 : Int) ≤ b.2 then some ⟨c.1, c.2.toNat, b.1, b.2.toNat⟩ else none

/-- R196: the segments of layer n that are not fetched, by the covering layers above it. -/
def State.hiddenSegments (s : State) (o n : Nat) : List SegRect :=
  if isCursor n || s.axisLocked n then []
  else
    (((s.recipe.layersOf o).filter (fun u => decide (s.recipe.layerZ n < s.recipe.layerZ u) && s.covers u)).flatMap (fun u =>
      LayerSet.opaqueAreas (s.layer u).live)).filterMap (segRect (s.canvas o))

/-- The segments that a layer's destination touches, and those of them that are not fetched. -/
def State.skippedSegments (s : State) (n : Nat) : Nat :=
  let v := (s.layer n).live
  let x := (LayerSet.dstX v).toNat
  let y := (LayerSet.dstY v).toNat
  let cols := List.range (ceilDiv (LayerSet.dstX v + LayerSet.dstW v).toNat 64 - x / 64)
  let bands := List.range (ceilDiv (LayerSet.dstY v + LayerSet.dstH v).toNat 16 - y / 16)
  (cols.map (fun c => (bands.filter (fun b => (s.layer n).skips.any (fun r =>
    decide (r.c0 ≤ x / 64 + c) && decide (x / 64 + c ≤ r.c1) && decide (r.b0 ≤ y / 16 + b) && decide (y / 16 + b ≤ r.b1)))).length)).sum

/-- R381, codes 14 and 15: the bytes fetched for a layer, whose number no rule gives, and the segments it skips. -/
def State.pmcFetch (s : State) (o n : Nat) : State :=
  if s.contributes n then
    let owner := (s.layerHolder n).getD 0
    (s.drawn.pmcCountOwner 14 o owner (Config.freeNat s.draws)).pmcCountOwner 15 o owner (s.skippedSegments n)
  else s

/-- R202: a shed layer reads as one, and its frames go. -/
def State.shedStep (s : State) (n : Nat) (fs : ST) : State :=
  if (s.layer n).shedding then
    let s := (s.setLayer n { s.layer n with shedding := false }).fset F.LAYER_STATUS.shed 1 n
    (s.setBit (if n < 32 then .CMP_SHED_LO else .CMP_SHED_HI) (n % 32)).dropFrames n fs
  else s

/-- R180: what CMP does at the frame start of an output. -/
def State.cmpFrameStart (s : State) (o : Nat) (fs : ST) : State :=
  let l := s.recipe.layersOf o
  let s := forEach l (fun n s => (s.hideStep n).latchLayer n) s
  let s :=
    { s with cmp := { s.cmp with
      liveBg := Tbl.set 0 s.cmp.liveBg o (s.get .CMP_OUT_BG o)
      liveDither := Tbl.set 0 s.cmp.liveDither o (s.fget F.CMP_OUT_CTRL.dither_mode o) } }
  let s := forEach l (fun n s =>
    let s := s.fflag F.LAYER_STATUS.warp_clamped (s.layer n).clamped n
    (s.setLayer n { s.layer n with clamped := false }).shedStep n fs) s
  let s := forEach l (fun n s => s.setLayer n { s.layer n with fresh := false }) s
  let s := forEach l (fun n s => s.selectLayer n fs) s
  let s := forEach l (fun n s => s.setLayer n { s.layer n with skips := s.hiddenSegments o n }) s
  let s := s.put64 .CMP_OUT_FS_LO .CMP_OUT_FS_HI fs o
  forEach l (fun n s => s.pmcFetch o n) s

end Sys2Proof.Machine
end

