-- ==== Sys2Proof/Machine/GfxMem.lean ====
section
/-! DEFINITION. How GFX reaches memory: the raster L2 and the first-level caches (R152), reads and writes directly and through
them, surfaces and their compression (R174, R175), and the accesses and atomics of shaders (R153). Effects of this file leave
their stores in the memory of the state too, so that later reads of the same command find them. -/

namespace Sys2Proof.Machine

/-- The hidden part of a context. -/
def State.ctx (s : State) (c : Nat) : CtxState := Tbl.get CtxState.initial s.gfx.ctx c

/-- Store the hidden part of a context. -/
def State.setCtx (s : State) (c : Nat) (x : CtxState) : State :=
  { s with gfx := { s.gfx with ctx := Tbl.set CtxState.initial s.gfx.ctx c x } }

/-- The owner code of a context. -/
def State.ctxOwner (s : State) (c : Nat) : Nat := s.fget F.CTX_CFG.owner c

/-- The ring offset of the packet being executed, or of the CALL leading to it (CTX_FAULT_OFFSET). -/
def State.packetOffset (s : State) (c : Nat) : Nat :=
  if (s.ctx c).calls.isEmpty then s.fget F.CTX_HEAD.index c else (s.ctx c).callAt

/-- R171: a fault that waits for the next preemption point of its context; the first one stays. -/
def State.laterFault (s : State) (c code : Nat) (va : Option Nat) : State :=
  match va with
  | some a =>
    if (s.ctx c).pendFault.isNone then s.setCtx c { s.ctx c with pendFault := some (code, a, s.packetOffset c) } else s
  | none => s

/-- R171: a translation fault of a draw or dispatch. -/
def State.shaderFault (s : State) (c : Nat) (va : Option Nat) : State := s.laterFault c 3 va

/-- Memory as stores leave it. -/
def State.storing (s : State) (w : List Store) : State := { s with ram := Memory.storeAll s.ram w }

/-! ### The raster L2 (R149, R152) -/

/-- 16 MiB. -/
def l2Size : Nat := 16777216

/-- A byte that the L2 holds. -/
def State.l2Byte (s : State) (a : Nat) : Option L2Byte := Tbl.get none s.gfx.l2 a

/-- Store a byte in the L2, or take it out. -/
def State.l2Set (s : State) (a : Nat) (b : Option L2Byte) : State :=
  { s with gfx := { s.gfx with l2 := Tbl.set none s.gfx.l2 a b } }

/-- What GFX finds at a physical address. A clean byte may have left the L2 since: the draw decides. -/
def State.l2Find (s : State) (draw a : Nat) : Byte :=
  match s.l2Byte a with
  | some b => if b.owner.isSome || Config.freeNat draw % 2 == 0 then b.value else s.readByte a
  | none => s.readByte a

/-- The 64-byte lines that hold n bytes from an address. -/
def lineBytes (a n : Nat) : List Nat := (List.range ((a + n + 63) / 64 * 64 - a / 64 * 64)).map (fun j => a / 64 * 64 + j)

/-- Lines come into the L2 whole, while it has room. -/
def State.l2Fill (s : State) (a n : Nat) : State :=
  forEach (lineBytes a n) (fun x s =>
    if (s.l2Byte x).isNone ∧ s.gfx.l2.length < l2Size then s.l2Set x (some ⟨s.readByte x, none⟩) else s) s

/-- Read n bytes at a physical address through the L2. -/
def State.l2Read (s : State) (a n : Nat) : List Byte × State :=
  let b := (List.range n).map (fun j => s.l2Find (s.draws + j) (a + j))
  let t := { s with draws := s.draws + n }.l2Fill a n
  (b, forEach b.zipIdx (fun e s =>
    match s.l2Byte (a + e.2) with
    | some ⟨_, none⟩ => s.l2Set (a + e.2) (some ⟨e.1, none⟩)
    | _ => s) t)

/-- Write bytes at a physical address into the L2: they wait there as dirty bytes of the context, or leave for memory at once. -/
def State.l2Write (s : State) (c a : Nat) (b : List Byte) : PacketEffect :=
  let t := s.drawn.l2Fill a b.length
  if Config.freeNat s.draws % 2 = 0 ∧ s.gfx.l2.length + b.length ≤ l2Size then
    ([], forEach b.zipIdx (fun e s => s.l2Set (a + e.2) (some ⟨e.1, some c⟩)) t)
  else
    ([(a, b)], (forEach b.zipIdx (fun e s =>
      match s.l2Byte (a + e.2) with
      | some _ => s.l2Set (a + e.2) (some ⟨e.1, none⟩)
      | none => s) t).storing [(a, b)])

/-- A store that does not go through the L2 takes the place of what the L2 holds there. -/
def State.l2Update (s : State) (w : Store) : State :=
  forEach w.2.zipIdx (fun e s =>
    match s.l2Byte (w.1 + e.2) with
    | some _ => s.l2Set (w.1 + e.2) (some ⟨e.1, none⟩)
    | none => s) s

/-- Write back the dirty bytes that a condition on owner and address names; they stay as clean ones. -/
def State.l2WriteBack (s : State) (f : Nat → Nat → Bool) : PacketEffect :=
  let l := s.gfx.l2.filterMap (fun e => e.2.bind (fun b => b.owner.bind (fun o => if f o e.1 then some (e.1, b.value) else none)))
  let w := l.map (fun e => (e.1, [e.2]))
  (w, (forEach l (fun e s => s.l2Set e.1 (some ⟨e.2, none⟩)) s).storing w)

/-- An invalidation by a context of the addresses that a condition names: clean bytes go. What becomes of its own dirty bytes there is
open: lost, or written back; those of other contexts stay. -/
def State.l2Drop (s : State) (c : Nat) (f : Nat → Bool) : PacketEffect :=
  let r := if Config.freeNat s.draws % 2 = 0 then s.drawn.l2WriteBack (fun o a => o == c && f a) else noStore s.drawn
  let stays (e : Nat × Option L2Byte) : Bool := !f e.1 || (match e.2.bind (·.owner) with | some o => o != c | none => false)
  (r.1, { r.2 with gfx := { r.2.gfx with l2 := r.2.gfx.l2.filter stays } })

/-- R152: the dirty bytes of a context are written back. -/
def State.l2Release (s : State) (c : Nat) : PacketEffect := s.l2WriteBack (fun o _ => o == c)

/-! ### Reads and writes of a context -/

/-- An address of GFX has 48 bits (R151). -/
def gfxVa (va : Nat) : Nat := va % 2 ^ 48

/-- Read one piece through the L2. -/
def gfxFetchPiece (owner : Nat) (r : Fetched) (p : Nat × Nat) : Fetched :=
  match r.s.land .gfx owner (gfxVa p.1) false with
  | (.ram a, s) => ⟨r.bytes ++ (s.l2Read a p.2).1, r.fault, r.failed, (s.l2Read a p.2).2⟩
  | (.fault, s) => ⟨r.bytes ++ List.replicate p.2 0, r.fault.or (some p.1), r.failed, s⟩
  | (.error, s) => ⟨r.bytes ++ freeBytes s.draws p.2, r.fault, true, { s with draws := s.draws + p.2 }⟩
  | (.host _ _, s) => ⟨r.bytes ++ freeBytes s.draws p.2, r.fault, r.failed, { s with draws := s.draws + p.2 }⟩

/-- Read n bytes through the L2. -/
def State.gfxRead (s : State) (c va n : Nat) : Fetched :=
  (piecesOf va n).foldl (gfxFetchPiece (s.ctxOwner c)) ⟨[], none, false, s⟩

/-- Write one piece through the L2. -/
def gfxWritePiece (c owner va : Nat) (b : List Byte) (w : Written) (p : Nat × Nat) : Written :=
  match w.s.land .gfx owner (gfxVa p.1) true with
  | (.ram a, s) =>
    let r := s.l2Write c a (slice b (p.1 - va) p.2)
    ⟨w.stores ++ r.1, w.fault, w.failed, r.2⟩
  | (.host port a, s) => ⟨w.stores, w.fault, w.failed, s.emit (.hostWrite port a (slice b (p.1 - va) p.2))⟩
  | (.fault, s) => ⟨w.stores, w.fault.or (some p.1), w.failed, s⟩
  | (.error, s) => ⟨w.stores, w.fault, true, s⟩

/-- Write bytes through the L2. -/
def State.gfxWrite (s : State) (c va : Nat) (b : List Byte) : Written :=
  (piecesOf va b.length).foldl (gfxWritePiece c (s.ctxOwner c) va b) ⟨[], none, false, s⟩

/-- Read n bytes directly from DRAM (R152). -/
def State.gfxFetch (s : State) (c va n : Nat) : Fetched := s.engineRead .gfx (s.ctxOwner c) (gfxVa va) n

/-- Write bytes directly to DRAM. -/
def State.gfxStore (s : State) (c va : Nat) (b : List Byte) : Written :=
  let w := s.engineWrite .gfx (s.ctxOwner c) (gfxVa va) b
  { w with s := forEach w.stores (fun x s => s.l2Update x) (w.s.storing w.stores) }

/-- The physical ranges of n bytes from an address, and the first fault. -/
def State.gfxRanges (s : State) (c va n : Nat) : List (Nat × Nat) × Option Nat × State :=
  (piecesOf va n).foldl (fun r p =>
    match r.2.2.land .gfx (s.ctxOwner c) (gfxVa p.1) false with
    | (.ram a, s) => (r.1 ++ [(a, p.2)], r.2.1, s)
    | (.fault, s) => (r.1, r.2.1.or (some p.1), s)
    | (_, s) => (r.1, r.2.1, s)) ([], none, s)

/-- A read for a draw or dispatch: a fault waits, and the bytes are 0 (R171). -/
def State.workRead (s : State) (c va n : Nat) : List Byte × State :=
  let r := s.gfxRead c va n
  (r.bytes, r.s.shaderFault c r.fault)

/-- A write for a draw or dispatch: a fault waits, and the bytes are discarded (R171). -/
def State.workWrite (s : State) (c va : Nat) (b : List Byte) : PacketEffect :=
  let w := s.gfxWrite c va b
  (w.stores, w.s.shaderFault c w.fault)

/-! ### Surfaces (R174) -/

/-- One plane of a surface: address, metadata address, bytes per sample, size, samples, and its layout. -/
structure Surface where
  base : Nat
  meta_ : Nat
  bytes : Nat
  w : Nat
  h : Nat
  samples : Nat
  tiled : Bool
  compressed : Bool
  deriving DecidableEq, Repr

/-- Pixels of a 4 KiB block of a tiled surface: width and height. -/
def tileBlock (b : Nat) : Nat × Nat :=
  if b = 1 then (64, 64) else if b = 2 then (64, 32) else if b = 4 then (32, 32) else if b = 8 then (32, 16) else (16, 16)

/-- The pitch of a linear surface: width × bytes, rounded up to 256. -/
def linearPitch (b w : Nat) : Nat := ceilDiv (w * b) 256 * 256

/-- Bytes of one plane of a surface with one sample. -/
def planeBytes (b w h : Nat) (tiled : Bool) : Nat :=
  if tiled then ceilDiv w (tileBlock b).1 * ceilDiv h (tileBlock b).2 * 4096 else linearPitch b w * h

/-- The bytes of a plane with all its samples. -/
def Surface.size (f : Surface) : Nat := planeBytes f.bytes f.w f.h f.tiled * f.samples

/-- The offset of a pixel in a plane with one sample: rows at the pitch, or blocks in row order with their pixels in row order. -/
def pixelOffset (b w : Nat) (tiled : Bool) (x y : Nat) : Nat :=
  if tiled then
    let k := tileBlock b
    (y / k.2 * ceilDiv w k.1 + x / k.1) * 4096 + (y % k.2 * k.1 + x % k.1) * b
  else y * linearPitch b w + x * b

/-- The offset of a sample. -/
def Surface.offset (f : Surface) (x y smp : Nat) : Nat :=
  if f.samples = 1 then pixelOffset f.bytes f.w f.tiled x y
  else Config.samplePlace f.samples f.bytes f.w f.h x y smp % (f.size / f.bytes) * f.bytes

/-! ### Compression (R175) -/

/-- The code and the stored bytes of a unit of 256 bytes. A unit is stored compressed only where its data decodes to it. -/
def packUnit (u : List Byte) : Nat × List Byte :=
  let code := Config.unitCode u % 4
  let p := fitBytes (64 * code) (Config.unitPack code u)
  if code ≠ 0 ∧ Config.unitUnpack code p = u then (code, p) else (0, u)

/-- What a unit holds, from its code and its 256 bytes of storage. Reserved codes read as 0. -/
def unpackUnit (code : Nat) (stored : List Byte) : List Byte :=
  if 1 ≤ code ∧ code ≤ 3 then fitBytes 256 (Config.unitUnpack code (stored.take (64 * code))) else stored

/-- The code of unit u in its metadata byte: the low four bits belong to the even unit. -/
def unitNibble (b : Byte) (u : Nat) : Nat := b.toNat / 16 ^ (u % 2) % 16

/-- A metadata byte with the code of unit u replaced. -/
def withNibble (b : Byte) (u code : Nat) : Byte :=
  if u % 2 = 0 then BitVec.ofNat 8 (b.toNat / 16 * 16 + code) else BitVec.ofNat 8 (b.toNat % 16 + 16 * code)

/-- Read unit u of a compressed plane. -/
def State.unitRead (s : State) (c : Nat) (f : Surface) (u : Nat) : List Byte × State :=
  let m := s.workRead c (f.meta_ + u / 2) 1
  let b := m.2.workRead c (f.base + 256 * u) 256
  (unpackUnit (unitNibble (m.1.getD 0 0) u) b.1, b.2)

/-- Write unit u of a compressed plane: compressed, or as it is. -/
def State.unitWrite (s : State) (c : Nat) (f : Surface) (u : Nat) (pack : Bool) (b : List Byte) : PacketEffect :=
  let p := if pack then packUnit b else (0, b)
  let m := s.workRead c (f.meta_ + u / 2) 1
  chain [fun s => s.workWrite c (f.base + 256 * u) p.2,
    fun s => s.workWrite c (f.meta_ + u / 2) [withNibble (m.1.getD 0 0) u p.1]] m.2

/-- Read a sample of a plane. -/
def State.sampleRead (s : State) (c : Nat) (f : Surface) (o : Nat) : List Byte × State :=
  if f.compressed then
    let r := s.unitRead c f (o / 256)
    (slice r.1 (o % 256) f.bytes, r.2)
  else s.workRead c (f.base + o) f.bytes

/-- Write a sample of a plane. -/
def State.sampleWrite (s : State) (c : Nat) (f : Surface) (o : Nat) (b : List Byte) : PacketEffect :=
  if f.compressed then
    let r := s.unitRead c f (o / 256)
    r.2.unitWrite c f (o / 256) true (r.1.take (o % 256) ++ b ++ r.1.drop (o % 256 + f.bytes))
  else s.workWrite c (f.base + o) b

/-- STORE_DECOMPRESS: every unit is written uncompressed, with code 0. -/
def State.decompress (s : State) (c : Nat) (f : Surface) : PacketEffect :=
  if f.compressed then
    chain ((List.range (ceilDiv f.size 256)).map (fun u s =>
      let r := s.unitRead c f u
      r.2.unitWrite c f u false r.1)) s
  else noStore s

/-! ### Formats (R174) -/

/-- Bytes per pixel of a colour format; 0 for a code that is none. -/
def colourBytes (f : Nat) : Nat :=
  match f with
  | 1 => 1 | 2 => 2 | 3 => 4 | 4 => 4 | 5 => 4 | 6 => 4 | 7 => 4 | 8 => 2 | 9 => 2 | 10 => 4 | 11 => 8 | 12 => 4 | 13 => 8
  | 14 => 16 | 15 => 4 | 16 => 8 | 17 => 16 | 18 => 4 | _ => 0

/-- Bytes per pixel of a depth or stencil format; R161 counts 5 for D32_FLOAT_S8_UINT. -/
def depthBytes (f : Nat) : Nat :=
  match f with
  | 64 => 2 | 65 => 4 | 66 => 5 | 67 => 1 | _ => 0

/-- Codes for sampled images only: BC1 to BC7, ETC2 and EAC, ASTC. -/
def blockFormat (f : Nat) : Bool := (decide (128 ≤ f) && decide (f ≤ 138)) || (decide (144 ≤ f) && decide (f ≤ 157))

/-- R175: a format whose tiled surfaces may be compressed: colours of 4, 8 and 16 bytes, and the depth plane of D32. -/
def compressible (f : Nat) : Bool := (decide (4 ≤ colourBytes f)) || f == 65 || f == 66

/-! ### Images (R158) -/

/-- The size of an image's level: width, height, and slices of a 3D image. -/
def levelSize (d : List Byte) (l : Nat) : Nat × Nat × Nat :=
  (max 1 ((u16 d 6 + 1) / 2 ^ l), if u8 d 1 = 0 then 1 else max 1 ((u16 d 24 + 1) / 2 ^ l),
    if u8 d 1 = 2 then max 1 ((u16 d 26 + 1) / 2 ^ l) else 1)

/-- The bytes per pixel of an image's format. -/
def imageBytes (d : List Byte) : Nat := max (colourBytes (u16 d 4)) (depthBytes (u16 d 4))

/-- The bytes of an image's level. -/
def levelBytes (d : List Byte) (l : Nat) : Nat :=
  let z := levelSize d l
  planeBytes (imageBytes d) z.1 z.2.1 (bit (u8 d 3) 0 == 1) * z.2.2

/-- Where a level starts: levels stand one after the other, each on a 4 KiB boundary. -/
def levelStart (d : List Byte) : Nat → Nat
  | 0 => 0
  | l + 1 => levelStart d l + ceilDiv (levelBytes d l) 4096 * 4096

/-- Layers follow at the level sum rounded up to 64 KiB. -/
def layerStride (d : List Byte) : Nat := ceilDiv (levelStart d (u8 d 2)) 65536 * 65536

/-- The plane of one level and layer; a slice of a 3D image is its layer. -/
def imageSurface (d : List Byte) (level layer : Nat) : Surface :=
  let z := levelSize d level
  let tiled := bit (u8 d 3) 0 == 1
  let one := planeBytes (imageBytes d) z.1 z.2.1 tiled
  let at_ := levelStart d level + (if u8 d 1 = 2 then layer * one else layer * layerStride d)
  { base := u64 d 8 + at_, meta_ := u64 d 16 + at_ / 512, bytes := imageBytes d, w := z.1, h := z.2.1, samples := 1, tiled := tiled,
    compressed := bit (u8 d 3) 1 == 1 && compressible (u16 d 4) }

/-! ### Shaders (R152, R153, R171) -/

/-- The result of an atomic of n bits on the old value. -/
def atomicResult (op : AtomicOp) (n old value compare : Nat) : Nat :=
  match op with
  | .add => (old + value) % 2 ^ n
  | .sub => (old + 2 ^ n - value % 2 ^ n) % 2 ^ n
  | .and_ => (BitVec.ofNat 64 old &&& BitVec.ofNat 64 value).toNat
  | .or_ => (BitVec.ofNat 64 old ||| BitVec.ofNat 64 value).toNat % 2 ^ n
  | .xor_ => (BitVec.ofNat 64 old ^^^ BitVec.ofNat 64 value).toNat % 2 ^ n
  | .minU => min old (value % 2 ^ n)
  | .maxU => max old (value % 2 ^ n)
  | .minS => if signed n old ≤ signed n value then old else value % 2 ^ n
  | .maxS => if signed n value ≤ signed n old then old else value % 2 ^ n
  | .exchange => value % 2 ^ n
  | .compareExchange => if old = compare % 2 ^ n then value % 2 ^ n else old

/-- Accesses of shaders in progress: the stores made, the bytes that each invocation has itself written (R152), what loads and
atomics returned, and the state. -/
structure Shading where
  stores : List Store
  own : List (Nat × Nat)
  got : List (List Byte)
  s : State

/-- What an invocation loads at a virtual address, where the L2 has b: the first-level cache of its core may hold an older value,
unless the invocation has written there itself. -/
def State.loadByte (s : State) (c inv va : Nat) (own : List (Nat × Nat)) (b : Byte) : Byte × State :=
  let old := (Tbl.get none (s.ctx c).l1 va).getD b
  let v := if own.contains (inv, va) || Config.freeNat s.draws % 2 == 0 then b else old
  (v, s.drawn.setCtx c { s.ctx c with l1 := Tbl.set none (s.ctx c).l1 va (some v) })

/-- A load of an invocation. -/
def Shading.load (r : Shading) (c inv va n : Nat) : Shading :=
  let f := r.s.workRead c va n
  let x := f.1.zipIdx.foldl (fun a e => let y := State.loadByte a.2 c inv (va + e.2) r.own e.1; (a.1 ++ [y.1], y.2)) ([], f.2)
  { r with got := r.got ++ [x.1], s := x.2 }

/-- A store of an invocation. -/
def Shading.store (r : Shading) (c inv va : Nat) (b : List Byte) : Shading :=
  let w := r.s.workWrite c va b
  { r with stores := r.stores ++ w.1, own := (List.range b.length).map (fun j => (inv, va + j)) ++ r.own, s := w.2 }

/-- An atomic, performed at the L2 (R153). -/
def Shading.atomic (r : Shading) (c inv va size : Nat) (op : AtomicOp) (value compare : Nat) : Shading :=
  let f := r.s.workRead c va size
  let w := f.2.workWrite c va (leBytes size (atomicResult op (8 * size) (leNat f.1 0 size) value compare))
  { stores := r.stores ++ w.1, own := (List.range size).map (fun j => (inv, va + j)) ++ r.own, got := r.got ++ [f.1], s := w.2 }

/-- The 32 bytes of a descriptor bound to a set. -/
def State.descriptor (s : State) (c set index : Nat) : List Byte :=
  match (s.ctx c).bindings.find? (fun b => b.type == 2 && b.slot == set) with
  | some b => slice b.bytes (64 + 32 * index) 32
  | none => []

/-- The read of a texel through an image descriptor. No rule says what a block format decodes to, or what a place outside the image
or a descriptor of another kind returns: free bytes. -/
def Shading.texel (r : Shading) (c set index level layer x y : Nat) : Shading :=
  let d := r.s.descriptor c set index
  let f := imageSurface d level layer
  if u8 d 0 = 2 ∧ blockFormat (u16 d 4) = false ∧ level < u8 d 2 ∧ x < f.w ∧ y < f.h ∧ layer ≤ u16 d 26 then
    let v := r.s.sampleRead c f (f.offset x y 0)
    { r with got := r.got ++ [v.1], s := v.2 }
  else { r with got := r.got ++ [freeBytes r.s.draws 16], s := { r.s with draws := r.s.draws + 16 } }

/-- One access. -/
def shaderOp (c : Nat) (r : Shading) : ShaderOp → Shading
  | .load inv va n => r.load c inv va n
  | .store inv va b => r.store c inv va b
  | .atomic inv va wide op value compare => r.atomic c inv va (if wide then 8 else 4) op value.toNat compare.toNat
  | .texel _ set index level layer x y => r.texel c set index level layer x y

/-- The accesses of shaders in the order in which the L2 takes them; what loads and atomics return follows what the draw or
dispatch has returned already. -/
def State.shaderWork (s : State) (c : Nat) (l : List ShaderOp) : PacketEffect :=
  let r := l.foldl (shaderOp c) ⟨[], [], (s.ctx c).returned, s⟩
  (r.stores, r.s.setCtx c { r.s.ctx c with returned := r.got })

end Sys2Proof.Machine
end

