-- ==== Sys2Proof/Machine/GfxOps.lean ====
section
/-! DEFINITION. Raster contexts (R154 to R173): scheduling of the 48 cores, faults, freezing, destruction, bins, and the fetch of
a packet. -/

namespace Sys2Proof.Config

/-- What GFX writes of a context to its save area (R169 gives it no layout): a draw and the context. -/
opaque encodeContext : Nat → Machine.CtxState → List Byte

/-- What GFX finds in a save area. -/
opaque decodeContext : List Byte → Machine.CtxState

end Sys2Proof.Config

namespace Sys2Proof.Machine

/-! ### The state of a context -/

/-- FREE. -/
def ctxFree : Nat := 0
/-- IDLE. -/
def ctxIdle : Nat := 1
/-- READY. -/
def ctxReady : Nat := 2
/-- RUNNING. -/
def ctxRunning : Nat := 3
/-- WAITING. -/
def ctxWaiting : Nat := 4
/-- FROZEN. -/
def ctxFrozen : Nat := 5
/-- FAULTED. -/
def ctxFaulted : Nat := 6
/-- HUNG. -/
def ctxHung : Nat := 7

/-- CTX_STATE.state. -/
def State.ctxState (s : State) (c : Nat) : Nat := s.fget F.CTX_STATE.state c

/-- The contexts in use by an owner. -/
def State.ctxsOf (s : State) (owner : Nat) : List Nat :=
  (List.range 64).filter (fun c => s.ctxState c != ctxFree && s.ctxOwner c == owner)

/-- What a core runs. -/
def State.gfxCore (s : State) (n : Nat) : Option CoreUse := Tbl.get none s.gfx.cores n

/-- Give a core to a context, or take it back. -/
def State.setGfxCore (s : State) (n : Nat) (u : Option CoreUse) : State :=
  { s with gfx := { s.gfx with cores := Tbl.set none s.gfx.cores n u } }

/-- The cores that a context holds. -/
def State.coresOf (s : State) (c : Nat) : List Nat :=
  (List.range 48).filter (fun n => match s.gfxCore n with | some u => u.ctx == c | none => false)

/-- How many. -/
def State.coreCount (s : State) (c : Nat) : Nat := (s.coresOf c).length

/-- GFX_STATUS.ctx_in_use and .hung_cores. -/
def State.countCtxs (s : State) : State :=
  (s.fset F.GFX_STATUS.ctx_in_use ((List.range 64).filter (fun c => s.ctxState c != ctxFree)).length).fset
    F.GFX_STATUS.hung_cores (((List.range 64).filter (fun c => s.ctxState c == ctxHung)).map s.coreCount).sum

/-- Enter a state; the scheduler's order holds the READY and RUNNING contexts. -/
def State.setCtxState (s : State) (c st : Nat) : State :=
  let s := s.fset F.CTX_STATE.state st c
  let rest := s.gfx.order.filter (· != c)
  let s :=
    { s with gfx := { s.gfx with order :=
      if st = ctxReady ∨ st = ctxRunning then (if s.gfx.order.contains c then s.gfx.order else s.gfx.order ++ [c]) else rest } }
  s.countCtxs

/-- A context gives its cores back. -/
def State.dropCores (s : State) (c : Nat) : State :=
  (forEach (s.coresOf c) (fun n s => s.setGfxCore n none) s).setCtx c { s.ctx c with preempt := false }

/-! ### The scheduler (R168, R169) -/

/-- The context whose pass a cluster serves. -/
def State.clusterPass (s : State) (k : Nat) : Option Nat :=
  (List.range 4).findSome? (fun j => match s.gfxCore (4 * k + j) with
    | some u => if u.graphics then some u.ctx else none
    | none => none)

/-- A context runs graphics on the cores that it gets: it is inside a pass, or waits to begin one. -/
def State.runsGraphics (s : State) (c : Nat) : Bool := (s.ctx c).pass.isSome || (s.ctx c).wantsPass

/-- A core may go to a context: it is free, and its cluster serves no other pass when the context runs graphics. -/
def State.coreFits (s : State) (c n : Nat) : Bool :=
  (s.gfxCore n).isNone && (!s.runsGraphics c || match s.clusterPass (n / 4) with | some d => d == c | none => true)

/-- A context that should hold more cores: READY, or RUNNING without a request to stop, below `max_cores`. -/
def State.wantsCores (s : State) (c : Nat) : Bool :=
  (s.ctxState c == ctxReady || (s.ctxState c == ctxRunning && !(s.ctx c).preempt)) &&
    decide (s.coreCount c < s.fget F.CTX_CFG.max_cores c)

/-- Hand cores to a context, of the kind of its work. -/
def State.giveCores (s : State) (c : Nat) (l : List Nat) : State :=
  if l.isEmpty then s
  else
    let s := forEach l (fun n s => s.setGfxCore n (some ⟨c, s.runsGraphics c⟩)) s
    (s.fset F.CTX_STATE.saved 0 c).setCtxState c ctxRunning

/-- R169: ask contexts of lower priority, lowest first, to stop, until the cores asked for are on their way. -/
def State.askCores (s : State) (p need : Nat) : List Nat → State
  | [] => s
  | c :: t =>
    if need = 0 then s
    else if s.ctxState c = ctxRunning ∧ s.fget F.CTX_CFG.priority c < p then
      (s.setCtx c { s.ctx c with preempt := true }).askCores p (need - s.coreCount c) t
    else s.askCores p need t

/-- The contexts from the lowest priority up. -/
def State.byPriority (s : State) : List Nat :=
  (List.range 16).flatMap (fun p => (List.range 64).filter (fun c => s.fget F.CTX_CFG.priority c == p))

/-- The contexts to serve: highest priority first, then in the scheduler's order. -/
def State.serveOrder (s : State) : List Nat :=
  (List.range 16).reverse.flatMap (fun p => s.gfx.order.filter (fun c => s.fget F.CTX_CFG.priority c == p))

/-- R169: serve one context: the free cores that fit it, lowest first, and requests to lower priorities for the rest. -/
def State.serve (s : State) (c : Nat) : State :=
  if s.wantsCores c then
    let want := s.fget F.CTX_CFG.max_cores c - s.coreCount c
    let l := ((List.range 48).filter (s.coreFits c)).take want
    (s.giveCores c l).askCores (s.fget F.CTX_CFG.priority c) (want - l.length) s.byPriority
  else s

/-- R169: a context that holds more than `max_cores` is asked to stop. -/
def State.capCores (s : State) : State :=
  forEach s.gfx.order (fun c s =>
    if s.ctxState c = ctxRunning ∧ s.fget F.CTX_CFG.max_cores c < s.coreCount c then s.setCtx c { s.ctx c with preempt := true }
    else s) s

/-- The scheduler runs in Day (R66, R173). -/
def State.schedule (s : State) : State :=
  if s.day then forEach s.serveOrder (fun c s => s.serve c) s.capCores else s

/-! ### The save area (R169, R172) -/

/-- The base of the save area, without its ignored bits. -/
def State.saveBase (s : State) (c : Nat) : Nat := (s.get64 .CTX_SAVE_LO .CTX_SAVE_HI c).toNat % 2 ^ 48 / 65536 * 65536

/-- The state of a context is written to its 64 KiB save area. -/
def State.saveArea (s : State) (c : Nat) : PacketEffect :=
  let w := s.drawn.gfxStore c (s.saveBase c) (fitBytes 65536 (Config.encodeContext s.draws (s.ctx c)))
  (w.stores, w.s.shaderFault c w.fault)

/-! ### Bins (R163) -/

/-- Free chunks of the pool. -/
def State.binFree (s : State) : Nat := s.fget F.GFX_BIN_FREE.chunks

/-- The chunks of a context's pass go back to the pool. -/
def State.freeBins (s : State) (c : Nat) : State :=
  match (s.ctx c).pass with
  | none => s
  | some p => (s.fset F.GFX_BIN_FREE.chunks (s.binFree + p.chunks)).setCtx c { s.ctx c with pass := some { p with chunks := 0 } }

/-! ### Freeze, destroy, fault -/

/-- R298: an instance is FROZEN once every context of it is FROZEN and every channel is paused. -/
def State.frozenCheck (s : State) (i : Nat) : State :=
  if s.instState i = 2 ∧ (s.ctxsOf i).all (fun c => s.ctxState c == ctxFrozen) ∧
      ((List.range 256).filter (fun c => s.dmaHolder c == i)).all (fun c => s.chState c == chPaused) then
    ((s.fset F.VIR_INST_STATE.state 3 i).fset F.INST_STATUS.state 3 i).raise 266
  else s

/-- The check for the owner of a context, when it is an instance. -/
def State.frozenCheckOwner (s : State) (owner : Nat) : State := if 1 ≤ owner ∧ owner < 64 then s.frozenCheck owner else s

/-- R172: a context is stopped and saved; `head` stays on a waiting packet. -/
def State.ctxStopFrozen (s : State) (c : Nat) : PacketEffect :=
  let s := s.setCtx c { s.ctx c with wait := none, freeze := false, wantsPass := false }
  let r := s.saveArea c
  let s := r.2.dropCores c
  let s := ((s.fflag F.CTX_STATE.saved ((s.ctx c).pass.isSome) c).setCtxState c ctxFrozen).raise 140
  (r.1, (s.frozenCheckOwner (s.ctxOwner c)).schedule)

/-- R172: the slot and the bins are free again. -/
def State.ctxRelease (s : State) (c : Nat) : State :=
  let owner := s.ctxOwner c
  let s := ((s.freeBins c).dropCores c).setCtx c CtxState.initial
  let s := ((s.put .CTX_STATE 0 c).fset F.CTX_CFG.owner 0 c).fset F.CTX_CFG.queue 0 c
  let s := ((s.put .CTX_HEAD 0 c).put .CTX_TAIL 0 c).setCtxState c ctxFree
  (s.frozenCheckOwner owner).schedule

/-- R172: `destroy`. -/
def State.ctxDestroyOp (s : State) (c : Nat) : State :=
  if s.ctxState c = ctxFree then s
  else if s.ctxState c = ctxHung then s.fset F.CTX_STATE.destroy_pending 1 c
  else if s.ctxState c = ctxRunning then s.setCtx c { s.ctx c with destroy := true, preempt := true }
  else s.ctxRelease c

/-- R172: `freeze`. A context without cores is at a boundary and stops at once; one that runs, at its next preemption
point. -/
def State.ctxFreezeOp (s : State) (c : Nat) : PacketEffect :=
  if s.ctxState c = ctxRunning ∨ s.ctxState c = ctxHung then
    noStore (s.setCtx c { s.ctx c with freeze := true, preempt := (s.ctx c).preempt || s.ctxState c == ctxRunning })
  else if s.ctxState c = ctxIdle ∨ s.ctxState c = ctxReady ∨ s.ctxState c = ctxWaiting then s.ctxStopFrozen c
  else noStore s

/-- R171: the context is FAULTED with a code, an address and a ring offset. -/
def State.ctxFaultAt (s : State) (c code addr offset : Nat) : State :=
  let s := (s.fset F.CTX_STATE.fault code c).put64 .CTX_FAULT_ADDR_LO .CTX_FAULT_ADDR_HI (BitVec.ofNat 64 addr) c
  let s := (s.put .CTX_FAULT_OFFSET (BitVec.ofNat 32 offset) c).dropCores c
  let s := s.setCtx c { s.ctx c with wantsPass := false, wait := none }
  ((s.setCtxState c ctxFaulted).raise 137).schedule

/-- R171: a fault of the packet being executed. -/
def State.ctxFault (s : State) (c code addr : Nat) : State := s.ctxFaultAt c code addr (s.packetOffset c)

/-- PACKET. -/
def faultPacket : Nat := 1
/-- DOORBELL. -/
def faultDoorbell : Nat := 2
/-- TRANSLATION. -/
def faultTranslation : Nat := 3
/-- SHADER. -/
def faultShader : Nat := 4
/-- CALL_DEPTH. -/
def faultCallDepth : Nat := 5
/-- DESCRIPTOR. -/
def faultDescriptor : Nat := 6
/-- LAYER_PERM. -/
def faultLayerPerm : Nat := 7

/-! ### The queue (R154) -/

/-- The entries of a ring. -/
def State.ringSize (s : State) (c : Nat) : Nat := 2 ^ s.fget F.CTX_RING_SIZE.log2_dwords c

/-- The dwords from `head` to `tail`. -/
def State.ringFill (s : State) (c : Nat) : Nat :=
  (s.fget F.CTX_TAIL.index c + s.ringSize c - s.fget F.CTX_HEAD.index c) % s.ringSize c

/-- The base of a ring, without its ignored bits. -/
def State.ringBase (s : State) (c : Nat) : Nat := (s.get64 .CTX_RING_LO .CTX_RING_HI c).toNat % 2 ^ 48 / 4096 * 4096

/-- There is work to fetch: a CALL buffer, or dwords in the ring. -/
def State.ctxHasWork (s : State) (c : Nat) : Bool := !(s.ctx c).calls.isEmpty || s.ringFill c != 0

/-- The address of the next dword. -/
def State.fetchAddr (s : State) (c : Nat) : Nat :=
  match (s.ctx c).calls with
  | (a, _) :: _ => a
  | [] => s.ringBase c + 4 * s.fget F.CTX_HEAD.index c

/-- CALL buffers that are done return. -/
def popCalls : List (Nat × Nat) → List (Nat × Nat)
  | (_, 0) :: t => popCalls t
  | l => l

/-- Fetch moves past n dwords. A CALL buffer that is used up stays until the packet at its end has executed. -/
def State.ctxPast (s : State) (c n : Nat) : State :=
  match (s.ctx c).calls with
  | (a, r) :: t => s.setCtx c { s.ctx c with calls := (a + 4 * n, r - n) :: t }
  | [] => s.fset F.CTX_HEAD.index ((s.fget F.CTX_HEAD.index c + n) % s.ringSize c) c

/-- CALL buffers that are used up return. -/
def State.ctxReturn (s : State) (c : Nat) : State := s.setCtx c { s.ctx c with calls := popCalls (s.ctx c).calls }

/-- R171, R172: at a boundary of its work a context gives its cores back; what was pending for it comes first. -/
def State.ctxBoundary (s : State) (c next : Nat) : PacketEffect :=
  match (s.ctx c).pendFault with
  | some f => noStore (s.ctxFaultAt c f.1 f.2.1 f.2.2)
  | none =>
    if (s.ctx c).destroy || s.flag F.CTX_STATE.destroy_pending c then noStore (s.ctxRelease c)
    else if (s.ctx c).freeze then s.ctxStopFrozen c
    else noStore ((s.dropCores c).setCtxState c next).schedule

/-- A context without work is IDLE and holds no cores. -/
def State.ctxSettle (s : State) (c : Nat) : PacketEffect := if s.ctxHasWork c then noStore s else s.ctxBoundary c ctxIdle

/-- A packet of n dwords is done. -/
def State.ctxAdvance (s : State) (c n : Nat) : PacketEffect := ((s.ctxPast c n).ctxReturn c).ctxSettle c

/-! ### Packets (R154 to R156) -/

/-- The context is inside a pass. -/
def State.inPass (s : State) (c : Nat) : Bool := (s.ctx c).pass.isSome

/-- The opcode of a header dword. -/
def packetOp (h : W32) : Nat := h.toNat % 256
/-- Its body length. -/
def packetLength (h : W32) : Nat := h.toNat / 256 % 2 ^ 14

/-- R156: the lengths that the packet table gives an opcode; none for an opcode that it does not list. -/
def lengthOk (op n : Nat) : Bool :=
  match op with
  | 0 => true
  | 1 => n == 3
  | 16 => n == 3
  | 17 => decide (1 ≤ n) && decide (n ≤ 65)
  | 32 => n == 2
  | 33 => n == 0
  | 34 => n == 4
  | 35 => n == 5
  | 36 => n == 4
  | 37 => n == 4
  | 48 => n == 3
  | 49 => n == 2
  | 64 => n == 1
  | 65 => n == 4
  | 80 => n == 2
  | 81 => n == 5
  | 82 => n == 5
  | 83 => n == 3
  | 97 => n == 8
  | _ => false

/-- R156: the opcodes for inside a pass only, those for outside only, and where the others stand. -/
def placeOk (op : Nat) (inPass : Bool) : Bool :=
  if 33 ≤ op ∧ op ≤ 37 then inPass else if op = 0 ∨ op = 1 ∨ op = 16 ∨ op = 17 then true else !inPass

/-- R155: a header that the table allows here. -/
def headerOk (h : W32) (inPass : Bool) : Bool :=
  decide (h.toNat < 2 ^ 22) && lengthOk (packetOp h) (packetLength h) && placeOk (packetOp h) inPass

/-- Dword k of a packet's body. -/
def dword (b : List W32) (k : Nat) : Nat := (b.getD k 0).toNat

/-- Two dwords of a body, low one first. -/
def dword2 (b : List W32) (k : Nat) : Nat := dword b k + 2 ^ 32 * dword b (k + 1)

/-- R155, R156: the reserved bits of a body are 0, and its numbers are those that the table lists. -/
def bodyOk (op : Nat) (b : List W32) : Bool :=
  match op with
  | 1 => dword b 0 % 4 == 0
  | 16 => decide (dword b 0 < 65536)
  | 17 => decide (dword b 0 + (b.length - 1) ≤ 64) && decide (dword b 0 < 64)
  | 64 => decide (dword b 0 < 16)
  | 65 => decide (1 ≤ dword b 0) && decide (dword b 0 ≤ 3)
  | 81 => decide (dword b 4 ≤ 2)
  | 82 => decide (dword b 4 < 2)
  | 83 => decide (dword b 2 < 256)
  | 97 => dword b 0 / 64 % 4 == 0 && decide (dword b 0 < 512) && decide (dword b 1 < 65536)
  | _ => true

/-- The dwords of bytes. -/
def dwordsOf (b : List Byte) : List W32 := (List.range (b.length / 4)).map (fun k => BitVec.ofNat 32 (u32 b (4 * k)))

/-- A context has cores and work to fetch. Below Day nothing runs (R173). -/
def State.ctxCanRun (s : State) (c : Nat) : Bool := s.day && s.ctxState c == ctxRunning && s.ctxHasWork c

/-- A packet of n dwords lies in what is left of the CALL buffer, or does not straddle the end of the ring (R154). -/
def State.packetFits (s : State) (c n : Nat) : Bool :=
  match (s.ctx c).calls with
  | (_, left) :: _ => decide (n ≤ left)
  | [] => decide (s.fget F.CTX_HEAD.index c + n ≤ s.ringSize c)

/-- The packet's last dword is before the tail. -/
def State.packetWhole (s : State) (c n : Nat) : Bool := !(s.ctx c).calls.isEmpty || decide (n ≤ s.ringFill c)

/-- R154 to R156, R171: the packet at the head of context c is fetched and, where it has opcode op, executed on its body. A
translation fault of the fetch, or a packet that the table does not allow, stops the context whatever command names it; a packet
of another opcode, or one whose last dword is not there yet, is left where it is (log entry 39). -/
def State.packet (s : State) (c op : Nat) (f : List W32 → State → PacketEffect) : PacketEffect :=
  if s.ctxCanRun c then
    let at_ := s.fetchAddr c
    let r := s.gfxFetch c at_ 4
    let h := BitVec.ofNat 32 (u32 r.bytes 0)
    match r.fault with
    | some a => noStore (r.s.ctxFault c faultTranslation a)
    | none =>
      if !headerOk h (s.inPass c) || !s.packetFits c (1 + packetLength h) then noStore (r.s.ctxFault c faultPacket at_)
      else if packetOp h ≠ op ∨ !s.packetWhole c (1 + packetLength h) then noStore s
      else
        let b := r.s.gfxFetch c (at_ + 4) (4 * packetLength h)
        match b.fault with
        | some a => noStore (b.s.ctxFault c faultTranslation a)
        | none =>
          if bodyOk op (dwordsOf b.bytes) then f (dwordsOf b.bytes) b.s else noStore (b.s.ctxFault c faultPacket at_)
  else noStore s

/-- A direct read of a packet's own: a translation fault stops the context before the packet takes effect. -/
def State.packetRead (s : State) (c va n : Nat) (f : List Byte → State → PacketEffect) : PacketEffect :=
  let r := s.gfxFetch c va n
  match r.fault with
  | some a => noStore (r.s.ctxFault c faultTranslation a)
  | none => f r.bytes r.s

/-- A read of a packet's own through the L2: likewise. -/
def State.packetLoad (s : State) (c va n : Nat) (f : List Byte → State → PacketEffect) : PacketEffect :=
  let r := s.gfxRead c va n
  match r.fault with
  | some a => noStore (r.s.ctxFault c faultTranslation a)
  | none => f r.bytes r.s

/-- A write of a packet's own through the L2: likewise. -/
def State.packetPut (s : State) (c va : Nat) (b : List Byte) (f : State → PacketEffect) : PacketEffect :=
  let w := s.gfxWrite c va b
  match w.fault with
  | some a => (w.stores, w.s.ctxFault c faultTranslation a)
  | none => let r := f w.s; (w.stores ++ r.1, r.2)

/-- A direct write of a packet's own: likewise. -/
def State.packetWrite (s : State) (c va : Nat) (b : List Byte) (f : State → PacketEffect) : PacketEffect :=
  let w := s.gfxStore c va b
  match w.fault with
  | some a => (w.stores, w.s.ctxFault c faultTranslation a)
  | none => let r := f w.s; (w.stores ++ r.1, r.2)

end Sys2Proof.Machine
end

