-- ==== Sys2Proof/Machine/GfxPass.lean ====
section
/-! DEFINITION. State objects, shader containers, pass descriptors, render modes and bins (R158 to R164, R174 to R177). -/

namespace Sys2Proof.Machine

/-! ### Shader containers (R176, R177) -/

/-- The directory entries of a container. -/
def containerEntries (b : List Byte) : List (List Byte) := (List.range (u16 b 22)).map (fun k => slice b (64 + 16 * k) 16)

/-- R176, R177: a container of the stage, as GFX checks it. -/
def containerOk (b : List Byte) (stage isaRev : Nat) : Bool :=
  let size := u32 b 24
  slice b 0 4 == [0x44, 0x56, 0x53, 0x48] && u16 b 4 == 1 && u8 b 6 == stage && decide (u8 b 7 < 8) &&
  decide (8 ≤ u16 b 8) && decide (u16 b 8 ≤ 256) && u16 b 10 == 0 &&
  (stage != 2 || (decide (u32 b 12 ≤ 65536) && decide (1 ≤ u16 b 16 * u16 b 18 * u16 b 20) &&
    decide (u16 b 16 * u16 b 18 * u16 b 20 ≤ 1024))) &&
  decide (1 ≤ u16 b 22) && decide (u16 b 22 ≤ 8) && decide (u32 b 32 ≤ isaRev) && allZero b 36 64 &&
  b.length == size && crc32 (slice b 0 28 ++ [0, 0, 0, 0] ++ b.drop 32) == u32 b 28 &&
  (containerEntries b).all (fun e =>
    decide (1 ≤ u16 e 0) && decide (u16 e 0 ≤ 4) && u16 e 2 == 0 && u32 e 4 % 256 == 0 && u32 e 12 == 0 &&
      decide (u32 e 4 + u32 e 8 ≤ size)) &&
  ((containerEntries b).filter (fun e => u16 e 0 == 1)).length == 1

/-- The header of a container sets `uses_interlock`. -/
def usesInterlock (b : List Byte) : Bool := u8 b 7 % 2 == 1

/-! ### State objects (R158) -/

/-- Bytes that a STATE_BIND reads of an object of a type. -/
def objectBytes (type : Nat) : Nat := if type = 1 then 128 else if type = 2 then 64 else if type = 3 then 13 else 50

/-- R158: type and slot are known. -/
def bindSlotOk (type slot : Nat) : Bool :=
  if type = 2 then decide (slot < 8) else (type == 1 || type == 3 || type == 4) && slot == 0

/-- One blend word: VkBlendFactor has 19 values, VkBlendOp 5. -/
def blendOk (w : Nat) : Bool :=
  decide (bits w 5 1 < 19) && decide (bits w 10 6 < 19) && decide (bits w 13 11 < 5) && decide (bits w 18 14 < 19) &&
    decide (bits w 23 19 < 19) && decide (bits w 26 24 < 5) && bit w 31 == 0

/-- A sample count. -/
def samplesOk (n : Nat) : Bool := n == 1 || n == 2 || n == 4 || n == 8

/-- R158: the fields of a pipeline object are in range. -/
def pipelineOk (b : List Byte) : Bool :=
  (if u64 b 16 = 0 then u64 b 0 != 0 else u64 b 0 == 0 && u64 b 8 == 0) &&
  decide (u8 b 24 ≤ 5) && decide (u8 b 25 < 16) && u8 b 25 % 4 != 3 && decide (u8 b 26 < 32) && decide (u8 b 27 < 2) &&
  decide (u32 b 28 < 2 ^ 28) && decide (u32 b 32 < 2 ^ 28) && samplesOk (u8 b 36) && allZero b 37 40 &&
  (List.range 8).all (fun k => blendOk (u32 b (40 + 4 * k))) && allZero b 72 128

/-- R158: the fields of an object are in range. -/
def objectOk (type : Nat) (b : List Byte) : Bool :=
  if type = 1 then pipelineOk b
  else if type = 2 then decide (1 ≤ u32 b 0) && decide (u32 b 0 ≤ 4096)
  else if type = 3 then decide (u8 b 12 ≤ 1)
  else true

/-- R158: the address of a descriptor set's table; the two fields of its header stand one after the other. -/
def tableAddr (b : List Byte) : Nat := u64 b 4

/-- R158, R174: a format of an image: an attachment's, or one for sampled images only. -/
def imageFormat (f : Nat) : Bool := colourBytes f != 0 || depthBytes f != 0 || blockFormat f

/-- R158: the fields of a descriptor are in range, and its other bytes are 0. -/
def descriptorOk (d : List Byte) : Bool :=
  if u8 d 0 = 1 then allZero d 1 4 && (u16 d 18 == 0 || colourBytes (u16 d 18) != 0) && allZero d 20 32
  else if u8 d 0 = 2 then
    decide (u8 d 1 ≤ 3) && decide (1 ≤ u8 d 2) && decide (u8 d 2 ≤ 15) && decide (u8 d 3 < 4) && imageFormat (u16 d 4) &&
      allZero d 28 32
  else if u8 d 0 = 3 then
    decide (u8 d 1 < 16) && decide (u8 d 2 < 64) && decide (1 ≤ u8 d 3) && decide (u8 d 3 ≤ 16) && decide (u16 d 6 < 4096) &&
      decide (u16 d 8 < 4096) && decide (u8 d 10 < 16) && decide (u8 d 11 ≤ 2) && allZero d 12 32
  else false

/-- R158: every descriptor of a table. -/
def tableOk (b : List Byte) (count : Nat) : Bool := (List.range count).all (fun k => descriptorOk (slice b (32 * k) 32))

/-- R150: the waves that each SIMD keeps resident: min(16, floor(1,024 / v)), with v rounded up to a multiple of 8. -/
def residentWaves (vgprs : Nat) : Nat := min 16 (1024 / max 1 (ceilDiv vgprs 8 * 8))

/-- R150: the workgroups that a core holds at most: as its local memory allows, or its register files when `local_bytes` is 0. -/
def residentGroups (p : PipeInfo) : Nat :=
  if p.localBytes = 0 then 4 * residentWaves p.vgprs / max 1 (ceilDiv p.group 32) else 131072 / p.localBytes

/-! ### Pass descriptors (R159, R161) -/

/-- Samples of a pass. -/
def passSamples (d : List Byte) : Nat := u8 d 2
/-- The flags of a pass. -/
def passFlags (d : List Byte) : Nat := u8 d 14
/-- A depth or stencil attachment is present. -/
def passHasDepth (d : List Byte) : Bool := passFlags d / 2 % 4 != 0
/-- The 32 bytes of attachment k; 8 is depth and stencil. -/
def attachment (d : List Byte) (k : Nat) : List Byte := slice d (32 + 32 * k) 32
/-- The attachments of a pass. -/
def attachments (d : List Byte) : List Nat := List.range (u8 d 3) ++ (if passHasDepth d then [8] else [])
/-- Bytes per sample of attachment k. -/
def attachBytes (d : List Byte) (k : Nat) : Nat :=
  if k = 8 then depthBytes (u8 (attachment d k) 24) else colourBytes (u8 (attachment d k) 24)

/-- R159: an attachment entry, with the render area inside it. -/
def attachmentOk (d : List Byte) (k : Nat) : Bool :=
  let a := attachment d k
  attachBytes d k != 0 && decide (u8 a 25 < 4) && (u64 a 8 == 0 || bit (u8 a 25) 1 == 1) &&
  (bit (u8 a 25) 1 == 0 || (bit (u8 a 25) 0 == 1 && compressible (u8 a 24))) &&
  (k != 8 || (bit (passFlags d) 1 == 0 || u8 a 24 != 67) && (bit (passFlags d) 2 == 0 || decide (66 ≤ u8 a 24))) &&
  decide (u8 a 30 ≤ 2) && decide (u8 a 31 ≤ 2) &&
  decide (u16 d 4 + u16 d 8 ≤ u16 a 26) && decide (u16 d 6 + u16 d 10 ≤ u16 a 28)

/-- R159: a descriptor that keeps the layout. -/
def passOk (d : List Byte) : Bool :=
  decide (u8 d 0 ≤ 2) && decide (u8 d 1 ≤ 1) && samplesOk (passSamples d) && decide (u8 d 3 ≤ 8) &&
  decide (1 ≤ u16 d 8) && decide (u16 d 8 ≤ 16384) && decide (1 ≤ u16 d 10) && decide (u16 d 10 ≤ 16384) &&
  decide (passFlags d < 8) && u8 d 15 == 0 && u64 d 16 % 64 == 0 && allZero d 24 32 &&
  (List.range 9).all (fun k => if (attachments d).contains k then attachmentOk d k else allZero (attachment d k) 0 32)

/-- R161: the footprint F in bytes. -/
def footprint (d : List Byte) : Nat := ((attachments d).map (fun k => attachBytes d k * passSamples d)).sum

/-- R162: T, the 64 × 64 tiles of the render area. -/
def passTiles (d : List Byte) : Nat := ceilDiv (u16 d 8) 64 * ceilDiv (u16 d 10) 64

/-- R162: `auto_threshold`. -/
def autoThreshold (d : List Byte) : Nat := if u16 d 12 = 0 then 512 else u16 d 12

/-- R161 to R163: how a pass starts: binned, tile, undecided, mode_forced, given the free chunks. -/
def passStart (d : List Byte) (free : Nat) : Bool × Nat × Bool × Bool :=
  let f := footprint d
  if u8 d 0 = 0 then (false, 0, false, false)
  else if u8 d 0 = 1 then
    if 256 < f then (false, 0, false, true)
    else if free < 16 then (false, 0, false, true)
    else if u8 d 1 = 0 ∧ 64 < f then (true, 1, false, true)
    else (true, u8 d 1, false, false)
  else if 256 < f then (false, 0, false, false)
  else if free < 16 then (false, 0, false, true)
  else (true, if f ≤ 64 then 0 else 1, true, false)

/-! ### The planes and pixels of attachments -/

/-- The planes of attachment k: one, and the stencil plane after the depth plane for D32_FLOAT_S8_UINT. -/
def attachPlanes (d : List Byte) (k : Nat) : List Surface :=
  let a := attachment d k
  let one : Surface :=
    { base := u64 a 0, meta_ := u64 a 8, bytes := if u8 a 24 = 66 ∧ k = 8 then 4 else attachBytes d k, w := u16 a 26, h := u16 a 28,
      samples := passSamples d, tiled := bit (u8 a 25) 0 == 1, compressed := bit (u8 a 25) 1 == 1 }
  if u8 a 24 = 66 ∧ k = 8 then [one, { one with base := one.base + one.size, bytes := 1, compressed := false }] else [one]

/-- The pixel memory of a pass by attachment, place and sample. -/
def pixelKey (k x y smp : Nat) : Nat := ((k * 65536 + y) * 65536 + x) * 8 + smp

/-- Store the pass of a context. -/
def State.setPass (s : State) (c : Nat) (p : PassState) : State := s.setCtx c { s.ctx c with pass := some p }

/-- Read a sample of an attachment in memory. -/
def State.attachRead (s : State) (c : Nat) (d : List Byte) (k x y smp : Nat) : List Byte × State :=
  (attachPlanes d k).foldl (fun r f => let v := r.2.sampleRead c f (f.offset x y smp); (r.1 ++ v.1, v.2)) ([], s)

/-- Write a sample of an attachment in memory, plane by plane. -/
def State.attachWrite (s : State) (c : Nat) (d : List Byte) (k x y smp : Nat) (b : List Byte) : PacketEffect :=
  match attachPlanes d k with
  | [f, g] => chain [fun s => s.sampleWrite c f (f.offset x y smp) (b.take f.bytes),
      fun s => s.sampleWrite c g (g.offset x y smp) (b.drop f.bytes)] s
  | l => chain (l.map (fun f s => s.sampleWrite c f (f.offset x y smp) b)) s

/-- What an attachment holds at a sample before the pass has rendered there: what memory holds, the clear value, or with DONT_CARE
any bytes (R159). Once memory holds what the pass has rendered, it is read. -/
def State.initialPixel (s : State) (c : Nat) (p : PassState) (k x y smp : Nat) : List Byte × State :=
  let a := attachment p.desc k
  if p.loaded ∨ u8 a 30 = 0 then s.attachRead c p.desc k x y smp
  else if u8 a 30 = 1 then
    ((if k ≠ 8 then slice a 16 (attachBytes p.desc k)
      else if u8 a 24 = 67 then slice a 20 1
      else if u8 a 24 = 64 then fitBytes 2 (Config.depth16 (slice a 16 4))
      else slice a 16 (attachBytes p.desc k)), s)
  else (freeBytes s.draws (attachBytes p.desc k), { s with draws := s.draws + attachBytes p.desc k })

/-- What an attachment holds at a sample now. -/
def State.pixelNow (s : State) (c k x y smp : Nat) : List Byte × State :=
  match (s.ctx c).pass with
  | none => ([], s)
  | some p =>
    match Tbl.get none p.image (pixelKey k x y smp) with
    | some b => (b, s)
    | none => s.initialPixel c p k x y smp

/-- A new value of an attachment at a sample, in tile memory. -/
def State.pixelSet (s : State) (c k x y smp : Nat) (b : List Byte) : State :=
  match (s.ctx c).pass with
  | none => s
  | some p => s.setPass c { p with image := Tbl.set none p.image (pixelKey k x y smp) (some b) }

/-! ### Retiring fragments (R165, R166) -/

/-- The samples that a fragment writes. -/
def fragSamples (d : List Byte) (f : Frag) : List Nat :=
  match f.sample with
  | some k => if k < passSamples d then [k] else []
  | none => (List.range (passSamples d)).filter (fun k => bit f.cover k == 1)

/-- Two fragments share an entry of the scoreboard: the same pixel, or the same sample under sample shading. Interlocked regions are
ordered by pixel. -/
def sameEntry (f g : PendFrag) : Bool :=
  f.frag.x == g.frag.x && f.frag.y == g.frag.y &&
    ((f.interlock && g.interlock) ||
      match f.frag.sample, g.frag.sample with
      | some a, some b => a == b
      | _, _ => true)

/-- The cluster of a fragment. -/
def fragCluster (f : PendFrag) : Nat := Config.pixelCluster f.frag.x f.frag.y % 12

/-- R165: a fragment may retire once no fragment of an earlier primitive at its entry is in flight. -/
def mayRetire (board : List PendFrag) (f : PendFrag) : Bool :=
  board.all (fun g => !(sameEntry g f && serialBefore g.num f.num))

/-- R165: fragments enter the scoreboards in submission order; a cluster with 4,096 in flight stalls. The fragments in flight, and
those that wait. -/
def enterBoard : List PendFrag → List PendFrag → List PendFrag × List PendFrag
  | [], b => (b, [])
  | f :: q, b =>
    if (b.filter (fun g => fragCluster g == fragCluster f)).length < 4096 then enterBoard q (b ++ [f])
    else let r := enterBoard q b; (r.1, f :: r.2)

/-- One sample of a retiring fragment: its test and its writes, by attachment. A fragment removed by the late test retires without a
write. -/
def State.retireSample (s : State) (c : Nat) (f : PendFrag) (out : List Byte) (smp : Nat) : State :=
  match (s.ctx c).pass with
  | none => s
  | some p =>
    let l := attachments p.desc
    let r := l.foldl (fun (a : List (List Byte) × State) k =>
      let v := a.2.pixelNow c k f.frag.x f.frag.y smp
      (a.1 ++ [v.1], v.2)) ([], s)
    if Config.lateTest f.pipe f.dyn out r.1 then
      forEach l.zipIdx (fun e s =>
        s.pixelSet c e.1 f.frag.x f.frag.y smp
          (fitBytes (attachBytes p.desc e.1) ((Config.retirePixel f.pipe f.dyn out r.1).getD e.2 []))) r.2
    else r.2

/-- A fragment retires: its interlocked region runs, then it blends or writes depth and stencil; a discarded one writes nothing. -/
def State.retireFrag (s : State) (c : Nat) (f : PendFrag) : PacketEffect :=
  chain [fun s => if f.interlock then s.shaderWork c f.frag.region else noStore s,
    fun s => noStore (match f.frag.out, (s.ctx c).pass with
      | some out, some p => forEach (fragSamples p.desc f.frag) (fun k s => s.retireSample c f out k) s
      | _, _ => s)] s

/-- R165: fragments retire one by one, in any order that the scoreboard allows. -/
def State.retireAll (c : Nat) : Nat → List PendFrag → List PendFrag → State → PacketEffect
  | 0, _, _, s => noStore s
  | n + 1, queue, board, s =>
    let b := enterBoard queue board
    let ready := b.1.filter (mayRetire b.1)
    match ready[Config.freeNat s.draws % max 1 ready.length]? with
    | none => noStore s
    | some f =>
      let r := s.drawn.retireFrag c f
      let t := State.retireAll c n b.2 (b.1.erase f) r.2
      (r.1 ++ t.1, t.2)

/-- Render the fragments that the pass has gathered. -/
def State.renderWork (s : State) (c : Nat) : PacketEffect :=
  match (s.ctx c).pass with
  | none => noStore s
  | some p => State.retireAll c p.work.length p.work [] (s.setPass c { p with work := [] })

/-! ### Attachments written (R159, R160, R162, R164) -/

/-- The pixels of the render area. -/
def areaPixels (d : List Byte) : List (Nat × Nat) :=
  (List.range (u16 d 10)).flatMap (fun y => (List.range (u16 d 8)).map (fun x => (u16 d 4 + x, u16 d 6 + y)))

/-- Write one sample of attachment k out: what tile memory holds, or before the first write-out the value of its load operation. -/
def State.writeSample (s : State) (c k x y smp : Nat) : PacketEffect :=
  match (s.ctx c).pass with
  | none => noStore s
  | some p =>
    if (p.loaded ∨ u8 (attachment p.desc k) 30 = 0) ∧ (Tbl.get none p.image (pixelKey k x y smp)).isNone then noStore s
    else
      let v := s.pixelNow c k x y smp
      v.2.attachWrite c p.desc k x y smp v.1

/-- Write out an attachment: every tile of the render area the first time, later those that have been rendered since. -/
def State.storeAttachment (s : State) (c k : Nat) (d : List Byte) : PacketEffect :=
  chain ((areaPixels d).flatMap (fun q => (List.range (passSamples d)).map (fun m s => s.writeSample c k q.1 q.2 m))) s

/-- Write out the attachments of a pass; those that the pass discards only when asked. -/
def State.storeAttachments (s : State) (c : Nat) (d : List Byte) (discarded : Bool) : PacketEffect :=
  chain (((attachments d).filter (fun k => discarded || u8 (attachment d k) 31 != 1)).map
    (fun k s => s.storeAttachment c k d)) s

/-- Memory holds what the pass has rendered: its load operations are done and tile memory is empty. -/
def State.passFlushed (s : State) (c : Nat) : State :=
  match (s.ctx c).pass with
  | some p => s.setPass c { p with loaded := true, image := [] }
  | none => s

/-- Render and write out everything so far, with depth, stencil and what the pass discards. -/
def State.flushAll (s : State) (c : Nat) (d : List Byte) : PacketEffect :=
  chain [fun s => s.renderWork c, fun s => s.storeAttachments c d true, fun s => noStore (s.passFlushed c)] s

/-! ### Binning (R163, R164) -/

/-- Take chunks from the pool for a pass. -/
def State.takeChunks (s : State) (c : Nat) (p : PassState) (n : Nat) : State :=
  (s.fset F.GFX_BIN_FREE.chunks (s.binFree - n)).setPass c
    { p with chunks := p.chunks + n, peak := max p.peak (p.chunks + n) }

/-- R164: a partial render renders and writes out everything, and frees the bins beyond the reserve. -/
def State.partialRender (s : State) (c : Nat) (d : List Byte) : PacketEffect :=
  chain [fun s => s.flushAll c d,
    fun s => noStore (match (s.ctx c).pass with
      | some p => ((s.fset F.GFX_BIN_FREE.chunks (s.binFree + (p.chunks - 16))).setPass c
          { p with chunks := min p.chunks 16, binBytes := 0, partials := p.partials + 1 }).bump F.GFX_PARTIAL_COUNT.count
      | none => s),
    fun s => noStore (s.raise 136)] s

/-- The chunks that a pass holds cover its bins and n bytes more, from the pool where it needs them. -/
def State.growBins (s : State) (c n : Nat) : State :=
  match (s.ctx c).pass with
  | none => s
  | some p =>
    let need := ceilDiv (p.binBytes + n) 65536
    let s := if p.chunks < need then s.takeChunks c p (min s.binFree (need - p.chunks)) else s
    match (s.ctx c).pass with
    | some p => s.setPass c { p with binBytes := p.binBytes + n }
    | none => s

/-- R163: a primitive that touches n tiles takes its record and its entries; where the pool has no chunk for them, a partial render
comes first. -/
def State.binPrim (s : State) (c : Nat) (n : Nat) : PacketEffect :=
  match (s.ctx c).pass with
  | none => noStore s
  | some p =>
    let cost := 64 + 8 * n
    if ceilDiv (p.binBytes + cost) 65536 ≤ p.chunks + s.binFree then noStore (s.growBins c cost)
    else chain [fun s => s.partialRender c p.desc, fun s => noStore (s.growBins c cost)] s

/-- The state object of a type that is bound in slot 0. -/
def State.boundObject (s : State) (c type : Nat) : List Byte :=
  (((s.ctx c).bindings.find? (fun b => b.type == type && b.slot == 0)).map (·.bytes)).getD []

/-- The fragments of a primitive join the work of the pass, with the primitive's number (R165). Those outside the render area are none. -/
def State.addWork (s : State) (c : Nat) (w : PrimWork) : State :=
  match (s.ctx c).pass with
  | none => s
  | some p =>
    let inside := w.frags.filter (fun f => decide (u16 p.desc 4 ≤ f.x) && decide (f.x < u16 p.desc 4 + u16 p.desc 8) &&
      decide (u16 p.desc 6 ≤ f.y) && decide (f.y < u16 p.desc 6 + u16 p.desc 10))
    let ilk := ((s.ctx c).pipe.map (·.interlock)).getD false
    let new := inside.map (fun f => (⟨p.number, s.boundObject c 1, s.boundObject c 4, ilk, f⟩ : PendFrag))
    s.setPass c { p with number := p.number + 1, work := p.work ++ new }

/-- One primitive of a draw. -/
def State.drawPrim (s : State) (c : Nat) (w : PrimWork) : PacketEffect :=
  chain [fun s => if ((s.ctx c).pass.map (·.binned)).getD false then s.binPrim c w.tiles else noStore s,
    fun s => noStore (s.addWork c w)] s

/-- R162: the decision of an AUTO pass. -/
def State.autoDecide (s : State) (c : Nat) : PacketEffect :=
  match (s.ctx c).pass with
  | none => noStore s
  | some p =>
    if p.undecided then
      if p.prims ≤ autoThreshold p.desc * passTiles p.desc then noStore (s.setPass c { p with undecided := false })
      else
        chain [fun s => s.flushAll c p.desc,
          fun s => noStore (match (s.ctx c).pass with
            | some p => (s.fset F.GFX_BIN_FREE.chunks (s.binFree + p.chunks)).setPass c
                { p with undecided := false, binned := false, autoFlush := true, chunks := 0, binBytes := 0 }
            | none => s)] s
    else noStore s

/-- R163, R164: what a draw does to its pass: shaders, primitives one by one; a direct pass renders and writes out at once. -/
def State.oneDraw (s : State) (c : Nat) (w : DrawWork) : PacketEffect :=
  chain
    [fun s => s.shaderWork c w.shader,
     fun s =>
      match (s.ctx c).pass with
      | none => noStore s
      | some p =>
        let s := s.setPass c { p with draws := p.draws + 1, prims := p.prims + w.prims.length }
        chain (w.prims.map (fun x s => s.drawPrim c x)) (s.pmcCluster 11 (s.ctxOwner c) w.prims.length),
     fun s =>
      match (s.ctx c).pass with
      | none => noStore s
      | some p => if p.binned then (if p.undecided && p.draws == 256 then s.autoDecide c else noStore s) else s.flushAll c p.desc] s

/-- R160: the status record. -/
def passRecord (p : PassState) (now : ST) : List Byte :=
  [if p.binned then 1 else 0, BitVec.ofNat 8 p.tile, BitVec.ofNat 8 (p.autoFlush.toNat + 2 * p.forced.toNat), 0] ++
    leBytes 4 p.partials ++ leBytes 8 p.prims ++ leBytes 8 p.start.toNat ++ leBytes 8 now.toNat ++ leBytes 4 p.peak ++
    List.replicate 28 0

end Sys2Proof.Machine
end

