-- ==== Sys2Proof/Machine/GfxCmd.lean ====
section
/-! DEFINITION. The commands of the raster engine (07_raster.md): doorbells, packets, the allocation and control of contexts, and
the scheduler's own steps. -/

namespace Sys2Proof.Machine

/-! ### Doorbell (R154, R293) -/

/-- R293: a guest's writes to its pages act while its instance is ACTIVE (R286, R298, R301); an internal instance has no such
states (R288). -/
def State.pagesOpen (s : State) (i : Nat) : Bool := decide (i = 0) || decide (64 ≤ i) || s.instState i == 1

/-- The context bound to a queue of an owner. -/
def State.boundCtx (s : State) (owner q : Nat) : Option Nat := (s.ctxsOf owner).find? (fun c => s.fget F.CTX_CFG.queue c == q)

/-- R154: a new tail. A context at rest becomes ready; one that can no longer run keeps the value. The fault of a HUNG context waits
for its preemption point, because nothing else stops its work (R170). -/
def State.newTail (s : State) (c tail : Nat) : State :=
  if s.ringSize c ≤ tail then
    if s.ctxState c = ctxFaulted then s
    else if s.ctxState c = ctxHung then s.laterFault c faultDoorbell (some 0)
    else s.ctxFault c faultDoorbell 0
  else
    let s := s.fset F.CTX_TAIL.index tail c
    if s.ctxState c = ctxIdle ∧ s.ctxHasWork c then (s.setCtxState c ctxReady).schedule else s

/-- DOORBELL (R154). -/
def State.doorbell (s : State) (owner q : Nat) (tail : BitVec 32) : State :=
  if s.day then
    match s.boundCtx owner q with
    | some c => if s.pagesOpen owner then s.newTail c (tail.toNat % 2 ^ 22) else s
    | none => s
  else s.emit (.busError (agentOf owner))

/-- DOORBELL (R154, R293). -/
def execDoorbell (owner : Fin 72) (q : Fin 16) (tail : BitVec 32) (s : State) : Host.Outcome State Fault Refusal :=
  done (fun s => s.doorbell owner q tail) s

/-! ### Packets allowed anywhere -/

/-- NOP (R156): skipped. -/
def execNop (c : Fin 64) (s : State) : Host.Outcome State Fault Refusal :=
  packetEnd (fun s => s.packet c 0 (fun b s => s.ctxAdvance c (1 + b.length))) s

/-- CALL (R156): the dwords at an address follow, then those after the CALL. The buffers below the ring stay open until their last
packet has returned. -/
def State.call (s : State) (c addr count : Nat) : PacketEffect :=
  let x := s.ctx c
  if 2 ≤ x.calls.length then noStore (s.ctxFault c faultCallDepth addr)
  else
    let at_ := if x.calls.isEmpty then s.fget F.CTX_HEAD.index c else x.callAt
    let s := s.ctxPast c 4
    let x := s.ctx c
    ((s.setCtx c { x with calls := (gfxVa addr, count) :: x.calls, callAt := at_ }).ctxReturn c).ctxSettle c

/-- CALL (R156). -/
def execCall (c : Fin 64) (s : State) : Host.Outcome State Fault Refusal :=
  packetEnd (fun s => s.packet c 1 (fun b s => s.call c (dword2 b 0) (dword b 2))) s

/-- Bind an object: it takes the place of the one bound to the same type and slot. -/
def State.bindObject (s : State) (c type slot : Nat) (b : List Byte) : State :=
  let x := s.ctx c
  s.setCtx c { x with bindings := ⟨type, slot, b⟩ :: x.bindings.filter (fun e => !(e.type == type && e.slot == slot)) }

/-- The header and, when its size is known, the whole of a container. Containers are named by a state object and read like it. -/
def State.container (s : State) (c addr : Nat) (f : List Byte → State → PacketEffect) : PacketEffect :=
  s.packetRead c addr 64 (fun h s => s.packetRead c addr (max 64 (u32 h 24)) (fun b s => f (slice b 0 (u32 h 24)) s))

/-- The pass of a context, if it is in one, does not set `ordered_access` (R166). -/
def State.unorderedPass (s : State) (c : Nat) : Bool := ((s.ctx c).pass.map (fun p => passFlags p.desc % 2 == 0)).getD false

/-- R166, R177: check the containers that a pipeline names, then go on with what they say. -/
def State.checkContainers (s : State) (c : Nat) (l : List (Nat × Nat)) (p : PipeInfo) (go : PipeInfo → State → PacketEffect) :
    PacketEffect :=
  match l with
  | [] => go p s
  | (addr, stage) :: t =>
    if addr = 0 then s.checkContainers c t p go
    else if addr % 256 ≠ 0 then noStore (s.ctxFault c faultShader addr)
    else
      s.container c addr (fun b s =>
        if !containerOk b stage (s.fget F.GFX_STATUS.isa_rev) then noStore (s.ctxFault c faultShader addr)
        else if stage = 1 ∧ usesInterlock b ∧ s.unorderedPass c then noStore (s.ctxFault c faultShader addr)
        else
          s.checkContainers c t
            { interlock := p.interlock || (stage == 1 && usesInterlock b), vgprs := max p.vgprs (u16 b 8),
              localBytes := if stage = 2 then u32 b 12 else p.localBytes,
              group := if stage = 2 then u16 b 16 * u16 b 18 * u16 b 20 else p.group } go)

/-- R158: a pipeline object, with the containers that it names. -/
def State.bindPipeline (s : State) (c addr : Nat) (b : List Byte) : PacketEffect :=
  if ((s.ctx c).pass.map (fun p => u64 b 16 == 0 && passSamples p.desc != u8 b 36)).getD false then
    noStore (s.ctxFault c faultDescriptor addr)
  else
    s.checkContainers c [(u64 b 0, 0), (u64 b 8, 1), (u64 b 16, 2)] ⟨false, 0, 0, 0⟩ (fun p s =>
      let s := s.bindObject c 1 0 b
      (s.setCtx c { s.ctx c with pipe := some p }).ctxAdvance c 4)

/-- R158: a descriptor set, with its table read through the L2 (R152). -/
def State.bindSet (s : State) (c slot addr : Nat) (b : List Byte) : PacketEffect :=
  s.packetLoad c (tableAddr b) (32 * u32 b 0) (fun d s =>
    if !tableOk d (u32 b 0) then noStore (s.ctxFault c faultDescriptor addr)
    else (s.bindObject c 2 slot (b ++ d)).ctxAdvance c 4)

/-- STATE_BIND (R158, R177). -/
def State.stateBind (s : State) (c type slot addr : Nat) : PacketEffect :=
  if !bindSlotOk type slot ∨ addr % 64 ≠ 0 then noStore (s.ctxFault c faultDescriptor addr)
  else
    s.packetRead c addr (objectBytes type) (fun b s =>
      if !objectOk type b then noStore (s.ctxFault c faultDescriptor addr)
      else if type = 1 then s.bindPipeline c addr b
      else if type = 2 then s.bindSet c slot addr b
      else (s.bindObject c type slot b).ctxAdvance c 4)

/-- STATE_BIND (R158). -/
def execStateBind (c : Fin 64) (s : State) : Host.Outcome State Fault Refusal :=
  packetEnd (fun s => s.packet c 16 (fun b s => s.stateBind c (dword b 0 % 256) (dword b 0 / 256) (dword2 b 1))) s

/-- CONST_WRITE (R156). -/
def State.constWrite (s : State) (c : Nat) (offset : Nat) (words : List W32) : PacketEffect :=
  let x := s.ctx c
  (s.setCtx c { x with consts := (words.zipIdx).foldl (fun m e => Tbl.set 0 m (offset + e.2) e.1) x.consts }).ctxAdvance c
    (2 + words.length)

/-- CONST_WRITE (R156). -/
def execConstWrite (c : Fin 64) (s : State) : Host.Outcome State Fault Refusal :=
  packetEnd (fun s => s.packet c 17 (fun b s => s.constWrite c (dword b 0) (b.drop 1))) s

/-! ### Passes -/

/-- R168: the cores of a context turn to graphics where their cluster serves no other pass; the others go. -/
def State.claimClusters (s : State) (c : Nat) : State :=
  forEach (s.coresOf c) (fun n s =>
    match s.clusterPass (n / 4) with
    | some d => if d = c then s.setGfxCore n (some ⟨c, true⟩) else s.setGfxCore n none
    | none => s.setGfxCore n (some ⟨c, true⟩)) s

/-- R168: at the end of a pass the cores are free for either kind again. -/
def State.leaveClusters (s : State) (c : Nat) : State := forEach (s.coresOf c) (fun n s => s.setGfxCore n (some ⟨c, false⟩)) s

/-- The pass that a descriptor starts (R161 to R163). -/
def newPass (d : List Byte) (free : Nat) (now : ST) : PassState :=
  let m := passStart d free
  { desc := d, binned := m.1, tile := m.2.1, undecided := m.2.2.1, autoFlush := false, forced := m.2.2.2, draws := 0, prims := 0,
    binBytes := 0, chunks := 0, peak := 0, partials := 0, start := now, loaded := false, number := 0, work := [], image := [] }

/-- A pass starts (R159 to R163). A direct one writes what its load operations give at once. -/
def State.passOpen (s : State) (c : Nat) (d : List Byte) : PacketEffect :=
  let p := newPass d s.binFree s.tim.st
  let s := s.setCtx c { s.ctx c with wantsPass := false }
  let s := if p.binned then s.takeChunks c p 16 else s.setPass c p
  chain [fun s => if p.binned then noStore s else s.flushAll c d, fun s => s.ctxAdvance c 3] s

/-- PASS_BEGIN (R159 to R163, R166, R168). A context without a cluster to itself waits for one, with `head` on the packet. -/
def State.passBegin (s : State) (c addr : Nat) : PacketEffect :=
  if addr % 64 ≠ 0 then noStore (s.ctxFault c faultDescriptor addr)
  else
    s.packetRead c addr 320 (fun d s =>
      if !passOk d then noStore (s.ctxFault c faultDescriptor addr)
      else if passFlags d % 2 = 0 ∧ ((s.ctx c).pipe.map (·.interlock)).getD false then noStore (s.ctxFault c faultShader addr)
      else
        let t := s.claimClusters c
        if (t.coresOf c).isEmpty then (t.setCtx c { t.ctx c with wantsPass := true }).ctxBoundary c ctxReady
        else t.passOpen c d)

/-- PASS_BEGIN (R159). -/
def execPassBegin (c : Fin 64) (s : State) : Host.Outcome State Fault Refusal :=
  packetEnd (fun s => s.packet c 32 (fun b s => s.passBegin c (dword2 b 0))) s

/-- STORE_DECOMPRESS: the planes of the attachments that ask for it (R175). -/
def State.decompressAll (s : State) (c : Nat) (d : List Byte) : PacketEffect :=
  chain ((((attachments d).filter (fun k => u8 (attachment d k) 31 == 2)).flatMap (attachPlanes d)).map
    (fun f s => s.decompress c f)) s

/-- The end of a pass, once an AUTO pass has decided: the attachments that it stores, the status record, the bins, the clusters. -/
def State.passClose (s : State) (c : Nat) : PacketEffect :=
  match (s.ctx c).pass with
  | none => noStore s
  | some p =>
    chain [fun s => s.renderWork c, fun s => s.storeAttachments c p.desc false, fun s => s.decompressAll c p.desc,
      fun s => s.packetPut c (u64 p.desc 16) (passRecord p s.tim.st) (fun s =>
        let s := s.freeBins c
        ((s.setCtx c { s.ctx c with pass := none }).leaveClusters c).schedule.ctxAdvance c 1)] s

/-- PASS_END (R160, R162). -/
def State.passEnd (s : State) (c : Nat) : PacketEffect := chain [fun s => s.autoDecide c, fun s => s.passClose c] s

/-- PASS_END (R160). -/
def execPassEnd (c : Fin 64) (s : State) : Host.Outcome State Fault Refusal :=
  packetEnd (fun s => s.packet c 33 (fun _ s => s.passEnd c)) s

/-! ### Draws and dispatches -/

/-- The pipeline bound to a context. -/
def State.boundPipeline (s : State) (c : Nat) : Option (List Byte) :=
  ((s.ctx c).bindings.find? (fun b => b.type == 1)).map (·.bytes)

/-- R158: the pipeline's sample count equals the pass's. -/
def State.samplesMatch (s : State) (c : Nat) : Bool :=
  match s.boundPipeline c, (s.ctx c).pass with
  | some b, some p => u64 b 16 != 0 || u8 b 36 == passSamples p.desc
  | _, _ => true

/-- R158: the primitives that a topology makes of n vertices or indices. -/
def primitives (topology n : Nat) : Nat :=
  match topology with
  | 0 => n
  | 1 => n / 2
  | 2 => n - 1
  | 3 => n / 3
  | _ => n - 2

/-- A draw whose operand counts more primitives than its packet makes has only the first of them. -/
def limitDraw (w : DrawWork) (n : Nat) : DrawWork := { w with prims := w.prims.take n }

/-- R157: what a draw or dispatch starts with. -/
def State.launch (s : State) (c : Nat) (counts : List W32) (indices : List Nat) (resident : Nat) : State :=
  s.setCtx c { s.ctx c with launched := some ⟨counts, indices, (s.ctx c).consts, resident⟩, returned := [] }

/-- A draw of `counts` (count, instances, first, ...): a context without a graphics pipeline draws nothing (log entry 117). -/
def State.drawOnce (s : State) (c : Nat) (counts : List W32) (indices : List Nat) (w : DrawWork) : PacketEffect :=
  match s.boundPipeline c with
  | some b =>
    if u64 b 16 = 0 then
      let n := primitives (u8 b 24) (dword counts 0) * dword counts 1
      (s.launch c counts indices (residentWaves (((s.ctx c).pipe.map (·.vgprs)).getD 8))).oneDraw c (limitDraw w n)
    else noStore s
  | none => noStore s

/-- The indices of a draw, read from the bound index buffer; what lies beyond it is open. -/
def State.readIndices (s : State) (c : Nat) (b : List Byte) (counts : List W32) : List Nat × State :=
  let z := if u8 b 12 = 1 then 4 else 2
  (List.range (dword counts 0)).foldl (fun r k =>
    let o := (dword counts 2 + k) * z
    if o + z ≤ u32 b 8 then
      let v := r.2.workRead c (u64 b 0 + o) z
      (r.1 ++ [leNat v.1 0 z], v.2)
    else (r.1 ++ [Config.freeNat r.2.draws % 2 ^ (8 * z)], r.2.drawn)) ([], s)

/-- An indexed draw of `counts` (count, instances, first, offset, first instance): without an index buffer it draws nothing. -/
def State.drawIndexedOnce (s : State) (c : Nat) (counts : List W32) (w : DrawWork) : PacketEffect :=
  match (s.ctx c).bindings.find? (fun b => b.type == 3) with
  | some b =>
    let r := s.readIndices c b.bytes counts
    r.2.drawOnce c counts r.1 w
  | none => noStore s

/-- Draws, then the packet of n dwords is done. -/
def State.drawPacket (s : State) (c n : Nat) (f : State → PacketEffect) : PacketEffect :=
  if !s.samplesMatch c then noStore (s.ctxFault c faultDescriptor 0) else chain [f, fun s => s.ctxAdvance c n] s

/-- DRAW (R156). What its shaders do is the operand `w`. -/
def execDraw (c : Fin 64) (w : DrawWork) (s : State) : Host.Outcome State Fault Refusal :=
  packetEnd (fun s => s.packet c 34 (fun b s => s.drawPacket c 5 (fun s => s.drawOnce c b [] w))) s

/-- DRAW_INDEXED (R156). -/
def execDrawIndexed (c : Fin 64) (w : DrawWork) (s : State) : Host.Outcome State Fault Refusal :=
  packetEnd (fun s => s.packet c 35 (fun b s => s.drawPacket c 6 (fun s => s.drawIndexedOnce c b w))) s

/-- The records of an indirect draw: n of size bytes, stride apart. Each is read when its draw starts; a fault stops the context
before that draw. -/
def State.drawRecords (s : State) (c addr n stride size : Nat) (f : Nat → List W32 → State → PacketEffect) : PacketEffect :=
  (List.range n).foldl (fun r k =>
    if r.2.ctxState c = ctxFaulted then r
    else
      let t := r.2.packetLoad c (addr + k * stride) size (fun b s => f k (dwordsOf b) s)
      (r.1 ++ t.1, t.2)) ([], s)

/-- An indirect packet: the draws of its records, and the end of the packet unless a record faulted. -/
def State.drawIndirect (s : State) (c : Nat) (b : List W32) (size : Nat) (f : Nat → List W32 → State → PacketEffect) :
    PacketEffect :=
  if !s.samplesMatch c then noStore (s.ctxFault c faultDescriptor 0)
  else
    chain [fun s => s.drawRecords c (dword2 b 0) (dword b 2) (dword b 3) size f,
      fun s => if s.ctxState c = ctxFaulted then noStore s else s.ctxAdvance c 5] s

/-- The work of record k. -/
def workAt (w : List DrawWork) (k : Nat) : DrawWork := w.getD k ⟨[], []⟩

/-- DRAW_INDIRECT (R156). -/
def execDrawIndirect (c : Fin 64) (w : List DrawWork) (s : State) : Host.Outcome State Fault Refusal :=
  packetEnd (fun s => s.packet c 36 (fun b s => s.drawIndirect c b 16 (fun k r s => s.drawOnce c r [] (workAt w k)))) s

/-- DRAW_INDEXED_INDIRECT (R156). -/
def execDrawIndexedIndirect (c : Fin 64) (w : List DrawWork) (s : State) : Host.Outcome State Fault Refusal :=
  packetEnd (fun s => s.packet c 37 (fun b s => s.drawIndirect c b 20 (fun k r s => s.drawIndexedOnce c r (workAt w k)))) s

/-- A dispatch of groups x, y, z: with no compute pipeline bound, or no group, nothing runs. -/
def State.dispatchOnce (s : State) (c : Nat) (groups : List W32) (w : List ShaderOp) : PacketEffect :=
  match s.boundPipeline c, (s.ctx c).pipe with
  | some b, some p =>
    if u64 b 16 ≠ 0 ∧ dword groups 0 * dword groups 1 * dword groups 2 ≠ 0 then
      (s.launch c groups [] (residentGroups p)).shaderWork c w
    else noStore s
  | _, _ => noStore s

/-- DISPATCH (R156). What its shaders do is the operand `w`. -/
def execDispatch (c : Fin 64) (w : List ShaderOp) (s : State) : Host.Outcome State Fault Refusal :=
  packetEnd (fun s => s.packet c 48 (fun b s => chain [fun s => s.dispatchOnce c b w, fun s => s.ctxAdvance c 4] s)) s

/-- DISPATCH_INDIRECT (R156): the three counts are read from memory. -/
def execDispatchIndirect (c : Fin 64) (w : List ShaderOp) (s : State) : Host.Outcome State Fault Refusal :=
  packetEnd (fun s => s.packet c 49 (fun b s => s.packetLoad c (dword2 b 0) 12 (fun r s =>
    chain [fun s => s.dispatchOnce c (dwordsOf r) w, fun s => s.ctxAdvance c 3] s))) s

/-! ### Ordering and caches (R152) -/

/-- The cache actions of a BARRIER: inv_l1, wb_l2, inv_l2. -/
def State.barrierActions (s : State) (c flags : Nat) : PacketEffect :=
  chain
    [fun s => noStore (onlyIf (bit flags 1 == 1) (fun s => s.setCtx c { s.ctx c with l1 := [] }) s),
     fun s => if bit flags 2 = 1 then s.l2Release c else noStore s,
     fun s => if bit flags 3 = 1 then s.l2Drop c (fun _ => true) else noStore s] s

/-- BARRIER (R152, R156). A packet of this model ends before the next starts, so that `wait` has nothing to wait for. -/
def execBarrier (c : Fin 64) (s : State) : Host.Outcome State Fault Refusal :=
  packetEnd (fun s => s.packet c 64 (fun b s =>
    chain [fun s => s.barrierActions c (dword b 0), fun s => s.ctxAdvance c 2] s)) s

/-- An address lies in one of the ranges. -/
def inRanges (l : List (Nat × Nat)) (a : Nat) : Bool := l.any (fun r => decide (r.1 ≤ a) && decide (a < r.1 + r.2))

/-- CACHE_OP (R156): writeback, invalidate or both, on the 64-byte lines that the range touches. -/
def State.cacheOp (s : State) (c op addr size : Nat) : PacketEffect :=
  let r := s.gfxRanges c (addr / 64 * 64) ((addr + size + 63) / 64 * 64 - addr / 64 * 64)
  match r.2.1 with
  | some a => noStore (r.2.2.ctxFault c faultTranslation a)
  | none =>
    chain
      [fun s => if op % 2 = 1 then s.l2WriteBack (fun _ a => inRanges r.1 a) else noStore s,
       fun s => if 2 ≤ op then s.l2Drop c (inRanges r.1) else noStore s,
       fun s => s.ctxAdvance c 5] r.2.2

/-- CACHE_OP (R156). -/
def execCacheOp (c : Fin 64) (s : State) : Host.Outcome State Fault Refusal :=
  packetEnd (fun s => s.packet c 65 (fun b s => s.cacheOp c (dword b 0) (dword2 b 1) (dword b 3))) s

/-! ### Waiting (R156, R157) -/

/-- A context waits: it holds no cores, and `head` stays on the packet. -/
def State.ctxWait (s : State) (c : Nat) (w : GfxWait) : PacketEffect :=
  (s.setCtx c { s.ctx c with wait := some w }).ctxBoundary c ctxWaiting

/-- R157: the fence is released at an ST. -/
def State.fencePassed (s : State) (st : ST) : Bool := s.stValid && notLater st s.tim.st

/-- FENCE_WAIT_ST (R157). -/
def State.fenceWait (s : State) (c : Nat) (st : ST) : PacketEffect :=
  if s.fencePassed st then s.ctxAdvance c 3 else s.ctxWait c (.untilSt st)

/-- FENCE_WAIT_ST (R157). -/
def execFenceWaitSt (c : Fin 64) (s : State) : Host.Outcome State Fault Refusal :=
  packetEnd (fun s => s.packet c 80 (fun b s => s.fenceWait c (BitVec.ofNat 64 (dword2 b 0)))) s

/-- A waiting context goes on past its packet of n dwords. -/
def State.ctxGoOn (s : State) (c n : Nat) : PacketEffect :=
  let s := ((s.setCtx c { s.ctx c with wait := none }).ctxPast c n).ctxReturn c
  if s.ctxHasWork c then noStore (s.setCtxState c ctxReady).schedule else s.ctxBoundary c ctxIdle

/-- FENCE_WAIT_ST_RELEASE (R157). -/
def State.fenceRelease (s : State) (c : Nat) : PacketEffect :=
  match (s.ctx c).wait with
  | some (.untilSt st) => if s.day && s.ctxState c == ctxWaiting && s.fencePassed st then s.ctxGoOn c 3 else noStore s
  | _ => noStore s

/-- FENCE_WAIT_ST_RELEASE (R157). -/
def execFenceWaitStRelease (c : Fin 64) (s : State) : Host.Outcome State Fault Refusal := packetEnd (fun s => s.fenceRelease c) s

/-- R156: the compare of WAIT_VALUE. -/
def waitCompare (compare : Nat) (found value : BitVec 64) : Bool :=
  if compare = 0 then decide (value ≤ found) else if compare = 1 then found == value else found != value

/-- WAIT_VALUE (R156). -/
def State.waitValue (s : State) (c addr : Nat) (value : BitVec 64) (compare : Nat) : PacketEffect :=
  s.packetRead c addr 8 (fun b s =>
    if waitCompare compare (BitVec.ofNat 64 (u64 b 0)) value then s.ctxAdvance c 6
    else s.ctxWait c (.onValue addr value compare))

/-- WAIT_VALUE (R156). -/
def execWaitValue (c : Fin 64) (s : State) : Host.Outcome State Fault Refusal :=
  packetEnd (fun s => s.packet c 81 (fun b s => s.waitValue c (dword2 b 0) (BitVec.ofNat 64 (dword2 b 2)) (dword b 4))) s

/-- WAIT_VALUE_SATISFIED (R156): the word compares true now. -/
def State.waitSatisfied (s : State) (c : Nat) : PacketEffect :=
  match (s.ctx c).wait with
  | some (.onValue addr value compare) =>
    if s.day && s.ctxState c == ctxWaiting then
      s.packetRead c addr 8 (fun b s =>
        if waitCompare compare (BitVec.ofNat 64 (u64 b 0)) value then s.ctxGoOn c 6 else noStore s)
    else noStore s
  | _ => noStore s

/-- WAIT_VALUE_SATISFIED (R156). -/
def execWaitValueSatisfied (c : Fin 64) (s : State) : Host.Outcome State Fault Refusal :=
  packetEnd (fun s => s.waitSatisfied c) s

/-! ### Release packets (R152, R156) -/

/-- WRITE_VALUE (R156): release, then the value, with the ST of the write behind it when asked. -/
def State.writeValue (s : State) (c addr : Nat) (value : BitVec 64) (stamp : Nat) : PacketEffect :=
  chain [fun s => s.l2Release c,
    fun s => s.packetWrite c addr (leBytes 8 value.toNat ++ (if stamp = 1 then leBytes 8 s.tim.st.toNat else []))
      (fun s => s.ctxAdvance c 6)] s

/-- WRITE_VALUE (R156). -/
def execWriteValue (c : Fin 64) (s : State) : Host.Outcome State Fault Refusal :=
  packetEnd (fun s => s.packet c 82 (fun b s => s.writeValue c (dword2 b 0) (BitVec.ofNat 64 (dword2 b 2)) (dword b 4))) s

/-- SIGNAL (R156): the completion word, and the vector or event. -/
def State.signalOwner (s : State) (owner q : Nat) (value : BitVec 64) (vector : Nat) : State :=
  let s := s.put64 .QCOMP_LO .QCOMP_HI value owner q
  if vector = 255 then s
  else if owner = 0 then s.raise 152
  else if owner < 64 then (if vector < 32 then s.msixGuest owner vector else s)
  else s.raise (144 + (owner - 64))

/-- SIGNAL (R156): release, then the signal. -/
def State.signal (s : State) (c : Nat) (value : BitVec 64) (vector : Nat) : PacketEffect :=
  chain [fun s => s.l2Release c,
    fun s => (s.signalOwner (s.ctxOwner c) (s.fget F.CTX_CFG.queue c) value vector).ctxAdvance c 4] s

/-- SIGNAL (R156). -/
def execSignal (c : Fin 64) (s : State) : Host.Outcome State Fault Refusal :=
  packetEnd (fun s => s.packet c 83 (fun b s => s.signal c (BitVec.ofNat 64 (dword2 b 0)) (dword b 2))) s

/-- LAYER_SUBMIT (R157, R189): release and submit. A layer that the context's owner does not hold is a LAYER_PERM fault. -/
def State.layerSubmit (s : State) (c n : Nat) (f : QFrame) : PacketEffect :=
  if s.layerHolder n ≠ some (s.ctxOwner c) then noStore (s.ctxFault c faultLayerPerm 0)
  else chain [fun s => s.l2Release c, fun s => (s.submit n f).ctxAdvance c 9] s

/-- The frame that the body of a LAYER_SUBMIT spells. -/
def submitFrame (b : List W32) : QFrame :=
  { tag := BitVec.ofNat 16 (dword b 1), addr := BitVec.ofNat 64 (dword2 b 2), nb := BitVec.ofNat 64 (dword2 b 4),
    da := BitVec.ofNat 64 (dword2 b 6), changed := bit (dword b 0) 8 == 1, ref := none, flipped := false }

/-- LAYER_SUBMIT (R157). -/
def execLayerSubmit (c : Fin 64) (s : State) : Host.Outcome State Fault Refusal :=
  packetEnd (fun s => s.packet c 97 (fun b s => s.layerSubmit c (dword b 0 % 64) (submitFrame b))) s

/-! ### Allocation and control (R167, R172) -/

/-- R167: the contexts an owner may have in all. -/
def State.ctxPool (s : State) (owner : Nat) : Nat :=
  if owner = 0 then 64 - (((List.range 8).map (fun p => if s.recipe.partDeclared p then s.recipe.partContexts p else 0)).sum +
    s.recipe.generalContexts)
  else if owner < 64 then ((s.shape owner).map (·.contexts)).getD 0
  else if s.recipe.partDeclared (owner - 64) then s.recipe.partContexts (owner - 64) else 0

/-- The slots that an allocation may take: FREE and not wedged (R302). -/
def State.freeSlot (s : State) : Option Nat :=
  (List.range 64).find? (fun c => s.ctxState c == ctxFree && !s.vir.wedged.contains c)

/-- R167: the error of an allocation. -/
def State.ctxAllocError (s : State) (owner q : Nat) : Nat :=
  if 71 < owner then 2
  else if s.ctxPool owner ≤ (s.ctxsOf owner).length ∨ s.freeSlot.isNone then 1
  else if (s.boundCtx owner q).isSome then 3
  else 0

/-- A slot becomes an IDLE context of an owner and queue. -/
def State.ctxOpen (s : State) (c owner q : Nat) : State :=
  let s := (s.setCtx c CtxState.initial).put .CTX_STATE 0 c
  let s := (s.fset F.CTX_CFG.owner owner c).fset F.CTX_CFG.queue q c
  ((s.fset F.CTX_SLICE.slice_us 1000 c).setCtxState c ctxIdle)

/-- GFX_CTX_ALLOC (R167). -/
def State.ctxAlloc (s : State) (owner q : Nat) : State :=
  let err := s.ctxAllocError owner q
  let s := s.fset F.GFX_CTX_ALLOC_STATUS.err err
  match err, s.freeSlot with
  | 0, some c => (s.ctxOpen c owner q).fset F.GFX_CTX_ALLOC_STATUS.slot c
  | _, _ => s.raise 139

/-- GFX_CTX_ALLOC (R167). -/
def execGfxCtxAlloc (a : Agent) (owner : BitVec 8) (queue : Fin 16) (s : State) : Host.Outcome State Fault Refusal :=
  done (fun s => s.byManager a s.day (fun s => s.ctxAlloc owner.toNat queue)) s

/-- CTX_FREEZE (R172). -/
def execCtxFreeze (a : Agent) (c : Fin 64) (s : State) : Host.Outcome State Fault Refusal :=
  packetEnd (fun s => if a = .manager ∧ s.day then s.ctxFreezeOp c else noStore (s.emit (.busError a))) s

/-- CTX_RESUME (R172): a FROZEN context returns to the scheduler. -/
def State.ctxResumeOp (s : State) (c : Nat) : State :=
  if s.ctxState c = ctxFrozen then (s.setCtxState c (if s.ctxHasWork c then ctxReady else ctxIdle)).schedule else s

/-- CTX_RESUME (R172). -/
def execCtxResume (a : Agent) (c : Fin 64) (s : State) : Host.Outcome State Fault Refusal :=
  done (fun s => s.byManager a s.day (fun s => s.ctxResumeOp c)) s

/-- CTX_DESTROY (R172). -/
def execCtxDestroy (a : Agent) (c : Fin 64) (s : State) : Host.Outcome State Fault Refusal :=
  done (fun s => s.byManager a s.day (fun s => s.ctxDestroyOp c)) s

/-! ### The scheduler's steps (R169, R170) -/

/-- SLICE_EXPIRY (R169): the context goes to the end of the order, and stops when another of its priority is ready. -/
def State.sliceExpiry (s : State) (c : Nat) : State :=
  if s.day && s.ctxState c == ctxRunning && s.gfx.order.any (fun d =>
      s.ctxState d == ctxReady && s.fget F.CTX_CFG.priority d == s.fget F.CTX_CFG.priority c &&
        decide (0 < s.fget F.CTX_CFG.max_cores d)) then
    { s with gfx := { s.gfx with order := s.gfx.order.filter (· != c) ++ [c] } }.setCtx c { s.ctx c with preempt := true }
  else s

/-- SLICE_EXPIRY (R169). -/
def execSliceExpiry (c : Fin 64) (s : State) : Host.Outcome State Fault Refusal := done (fun s => s.sliceExpiry c) s

/-- A context on cores has been asked to stop. -/
def State.stopAsked (s : State) (c : Nat) : Bool :=
  (s.ctxState c == ctxRunning || s.ctxState c == ctxHung) &&
    ((s.ctx c).preempt || (s.ctx c).freeze || (s.ctx c).destroy || (s.ctx c).pendFault.isSome ||
      s.flag F.CTX_STATE.destroy_pending c || s.ctxState c == ctxHung)

/-- PREEMPTION_POINT (R169, R172): the state is saved and the cores go. A context to be frozen is saved by the freeze. -/
def State.preemptionPoint (s : State) (c : Nat) : PacketEffect :=
  if s.day && s.stopAsked c then
    if (s.ctx c).pendFault.isSome || (s.ctx c).destroy || s.flag F.CTX_STATE.destroy_pending c || (s.ctx c).freeze then
      s.ctxBoundary c ctxReady
    else
      chain [fun s => s.saveArea c,
        fun s => noStore ((s.fset F.CTX_STATE.saved 1 c).pmcCluster 13 (s.ctxOwner c) 1),
        fun s => s.ctxBoundary c ctxReady] s
  else noStore s

/-- PREEMPTION_POINT (R169). -/
def execPreemptionPoint (c : Fin 64) (s : State) : Host.Outcome State Fault Refusal :=
  packetEnd (fun s => s.preemptionPoint c) s

/-- YIELD_TIMEOUT (R170): the cores stay with the context. -/
def State.yieldTimeout (s : State) (c : Nat) : State :=
  if s.day && s.ctxState c == ctxRunning && ((s.ctx c).preempt || (s.ctx c).freeze || (s.ctx c).destroy) then
    let s := onlyIf (s.ctx c).destroy (fun s => s.fset F.CTX_STATE.destroy_pending 1 c) s
    ((s.setCtxState c ctxHung).raise 138).schedule
  else s

/-- YIELD_TIMEOUT (R170). -/
def execYieldTimeout (c : Fin 64) (s : State) : Host.Outcome State Fault Refusal := done (fun s => s.yieldTimeout c) s

end Sys2Proof.Machine
end

