-- ==== Sys2Proof/Machine/IslOps.lean ====
section
/-! DEFINITION. The island (R222 to R245): links of the outputs, pages, lists and commits, status pins and group bits, mailbox
messages, renderers and lockstep pairs. -/

namespace Sys2Proof.Machine

/-! ### What runs -/

/-- A lockstep pair runs checked island firmware (R240). -/
def State.islRuns (s : State) : Bool := s.isl.firmware && s.dom.island == .running && decide (s.pwr.state < 3)

/-- The pair does the work of the firmware: not while the standby still resumes from the checkpoint (R222). -/
def State.islWorks (s : State) : Bool := s.islRuns && !s.isl.switching

/-- The glaze of an output. -/
def State.glz (s : State) (o : Nat) : GlazeOut := Tbl.get GlazeOut.initial s.isl.glaze o

/-- Store the glaze of an output. -/
def State.setGlz (s : State) (o : Nat) (x : GlazeOut) : State :=
  { s with isl := { s.isl with glaze := Tbl.set GlazeOut.initial s.isl.glaze o x } }

/-- The output is enabled (R212: not OFF). -/
def State.outOn (s : State) (o : Nat) : Bool := s.lockOf o != 0

/-- The link states of OUT_STATUS. -/
def lnkDisabled : Nat := 0
/-- WAIT_HPD. -/
def lnkWaitHpd : Nat := 1
/-- TRAINING. -/
def lnkTraining : Nat := 2
/-- UP. -/
def lnkUp : Nat := 3
/-- STANDBY. -/
def lnkStandby : Nat := 4
/-- PSR. -/
def lnkPsr : Nat := 5
/-- FAILED. -/
def lnkFailed : Nat := 6
/-- REFUSED. -/
def lnkRefused : Nat := 7

/-- The link state of an output. -/
def State.linkOf (s : State) (o : Nat) : Nat := s.fget F.OUT_STATUS.link o

/-- Enter a link state, with the reason of REFUSED and FAILED. -/
def State.setLink (s : State) (o st reason : Nat) : State :=
  (s.fset F.OUT_STATUS.link st o).fset F.OUT_STATUS.reason reason o

/-- R239: in Twilight an output in link standby or panel self refresh. -/
def State.outSleeps (s : State) (o : Nat) : Bool :=
  s.pwr.state == 2 && (s.linkOf o == lnkStandby || s.linkOf o == lnkPsr)

/-- R214: the outputs that a command on output o acts on: both halves for the even one of a locked pair. -/
def State.halves (s : State) (o : Nat) : List Nat := if s.tailRecipe.outPair o && o % 2 == 0 then [o, o + 1] else [o]

/-- R214, R234: an output, or both halves of its locked pair. -/
def State.bothHalves (s : State) (o : Nat) : List Nat := if s.tailRecipe.outPair o then [o - o % 2, o - o % 2 + 1] else [o]

/-- R214: the odd half of a locked pair. -/
def State.oddHalf (s : State) (o : Nat) : Bool := s.tailRecipe.outPair o && o % 2 == 1

/-- OpenLDI has no hot plug (R216). -/
def Recipe.openLdi (r : Recipe) (o : Nat) : Bool := r.outStandard o == 5

/-- The output scans: it is enabled, VDD_CORE is in range (R390), and OpenLDI has not stopped in Twilight (R217). -/
def State.scans (s : State) (o : Nat) : Bool :=
  !s.dom.coreLost && s.outOn o && decide (s.pwr.state < 3) && !(s.pwr.state == 2 && s.tailRecipe.openLdi o)

/-- R207: slices per line for a width. -/
def dscSlices (w : Nat) : Nat := (([1, 2, 4, 8].find? (fun n => decide (ceilDiv w n ≤ 2560))).getD 16)

/-- R207: the slice height. -/
def dscHeight (v : Nat) : Nat := if v % 16 = 0 then 16 else 8

/-- R216: start training, at the recipe's rate and lanes; a sink without a DSC decoder is refused (R206). DSC runs with block
prediction (R207). -/
def State.train (s : State) (o : Nat) : State :=
  let r := s.tailRecipe
  let t := (s.out o).timing
  let dsc := r.outDsc o != 0
  if r.openLdi o then s.setLink o lnkUp 0
  else if !s.flag F.OUT_STATUS.hpd o then s.setLink o lnkWaitHpd 0
  else if dsc && !(s.out o).sinkDsc then s.setLink o lnkRefused 1
  else
    (s.setLink o lnkTraining 0).emit (.linkTrain o (r.outLanes o) (r.outRate o) (r.outDsc o)
      (if dsc then dscSlices t.hActive else 1) (if dsc then dscHeight t.vActive else 0) dsc)

/-- R70, R217: a link that slept comes back: as it was, or by training where it was not up. -/
def State.wakeLink (s : State) (o : Nat) : State :=
  if (s.out o).linkWas = lnkUp ∨ (s.out o).linkWas = lnkPsr then s.setLink o lnkUp 0 else s.train o

/-! ### Display lists -/

/-- Bytes written over a list at an offset. -/
def patch (l : List Byte) (o : Nat) (b : List Byte) : List Byte := l.take o ++ b ++ l.drop (o + b.length)

/-- A record of a list: its offset and its bytes. -/
def recordAt (l : List Byte) (i : Nat) : Option (Nat × List Byte) := (listRecords l)[i]?

/-- Bytes written into record i of a list, at an offset within the record. -/
def patchRecord (l : List Byte) (i o : Nat) (b : List Byte) : List Byte :=
  match recordAt l i with
  | some r => patch l (r.1 + o) b
  | none => l

/-- R239: the heartbeat of a list in one of its two colours. -/
def hbColour (phase : Bool) (l : List Byte) : List Byte :=
  patchRecord l (u16 l 2) 2 [l.getD (if phase then 5 else 4) 0]

/-! ### Renderers -/

/-- The state of renderer r: 0 OFF, 1 ACTIVE, 2 STANDBY, 3 FAILED. -/
def State.rendState (s : State) (o r : Nat) : Nat :=
  if r = 0 then s.fget F.ISL_GLAZE_STATUS.a_state o else s.fget F.ISL_GLAZE_STATUS.b_state o

/-- Enter a renderer state. -/
def State.setRend (s : State) (o r st : Nat) : State :=
  if r = 0 then s.fset F.ISL_GLAZE_STATUS.a_state st o else s.fset F.ISL_GLAZE_STATUS.b_state st o

/-- The hidden part of renderer r. -/
def GlazeOut.rend (x : GlazeOut) (r : Nat) : RendState := if r = 0 then x.rendA else x.rendB

/-- Store it. -/
def GlazeOut.withRend (x : GlazeOut) (r : Nat) (y : RendState) : GlazeOut :=
  if r = 0 then { x with rendA := y } else { x with rendB := y }

/-- R238: the failures of the last second of the island clock, with one now. -/
def recentFails (now : ST) (l : List ST) : List ST := now :: l.filter (fun t => decide ((now - t).toNat < 1000000000))

/-- Change the copies of both renderers (R225). -/
def GlazeOut.onCopies (x : GlazeOut) (f : GlazeCopy → GlazeCopy) : GlazeOut :=
  { x with rendA := { x.rendA with copy := f x.rendA.copy }, rendB := { x.rendB with copy := f x.rendB.copy } }

/-- The copy of the active renderer. -/
def State.glzCopy (s : State) (o : Nat) : GlazeCopy := ((s.glz o).rend (s.fget F.ISL_GLAZE_STATUS.active o)).copy

/-- R237, R238: a renderer fails; the third failure within 1 s holds it failed, which raises EV_ISL_RENDER_FAILED, as the
failure of a standby does. -/
def State.failRend (s : State) (o r : Nat) (standby : Bool) : State :=
  let x := s.glz o
  let y := x.rend r
  let fails := recentFails s.islandTime y.fails
  let held := decide (3 ≤ fails.length)
  let s := (s.setGlz o (x.withRend r { y with held := y.held || held, fails := fails, checking := false, equal := true })).setRend o r 3
  if standby || (held && !y.held) then s.raise 123 else s

/-! ### Mailbox (R244) -/

/-- The bytes of a message: command, flags (the status of a reply), length, `seq`, payload. -/
def mailBytes (cmd flags : Nat) (seq : W32) (payload : List Byte) : List Byte :=
  leBytes 1 cmd ++ leBytes 1 flags ++ leBytes 2 payload.length ++ leBytes 4 seq.toNat ++ payload

/-- The messages that wait for the main domain on a channel. -/
def State.mailRx (s : State) (chan : Nat) : List (List Byte) := Tbl.get [] s.isl.rx chan

/-- Store them; the receive registers show the oldest, and `rx_valid` that there is one. -/
def State.setMailRx (s : State) (chan : Nat) (l : List (List Byte)) : State :=
  let s := { s with isl := { s.isl with rx := Tbl.set [] s.isl.rx chan l } }
  let b := l.headD []
  let s := forEach (List.range 64) (fun k s => s.put .ISL_MBOX_RX (BitVec.ofNat 32 (u32 b (4 * k))) chan k) s
  s.fflag F.ISL_MBOX_STATUS.rx_valid (!l.isEmpty) chan

/-- R245: an island-to-main message arrives. -/
def State.mailArrive (s : State) (chan : Nat) (b : List Byte) : State :=
  let was := s.flag F.ISL_MBOX_STATUS.rx_valid chan
  let s := s.setMailRx chan (s.mailRx chan ++ [b])
  if was then s else s.raise 127

/-- The outstanding message of a channel is done with (R245: EV_ISL_MBOX_TX_FREE on a change of `tx_busy` from 1 to 0). -/
def State.mailFree (s : State) (chan : Nat) : State :=
  onlyIf (s.flag F.ISL_MBOX_STATUS.tx_busy chan) (fun s => (s.fset F.ISL_MBOX_STATUS.tx_busy 0 chan).raise 128) s

/-- A reply, which frees the channel. -/
def State.mailReply (s : State) (chan cmd status : Nat) (seq : W32) (payload : List Byte) : State :=
  (s.mailArrive chan (mailBytes cmd status seq payload)).mailFree chan

/-! ### Commits (R234) -/

/-- What output o shows now. -/
def State.shownSnap (s : State) (o : Nat) : GlazeSnap :=
  ⟨s.fget F.ISL_GLAZE_STATUS.page o, (s.glzCopy o).front, (s.glzCopy o).assets, []⟩

/-- What output o shows once every commit on its way has taken effect. -/
def State.snap (s : State) (o : Nat) : GlazeSnap := { (s.glz o).commits.getLast?.getD (s.shownSnap o) with chans := [] }

/-- The list that a page draws; none of the lists for the built-in page. -/
def GlazeSnap.drawn (x : GlazeSnap) : List Byte := if x.page = 1 then x.lists.normal else if x.page = 2 then x.lists.offline else []

/-- R244: an output named by the GLZ_COMMITs of some channels has changed; the reply follows when it was the last. -/
def State.commitReached (s : State) (o : Nat) (chans : List Nat) : State :=
  let waits := s.isl.waits.map (fun w => if chans.contains w.chan then { w with outs := w.outs.filter (· != o) } else w)
  forEach (waits.filter (fun w => w.outs.isEmpty)) (fun (w : CommitWait) s => (s.raise 130).mailReply w.chan 2 0 w.seq [])
    { s with isl := { s.isl with waits := waits.filter (fun w => !w.outs.isEmpty) } }

/-- The renderers follow the page: none draws on page 0, and both start when a page appears. -/
def State.startRend (s : State) (o page : Nat) : State :=
  if page = 0 then (s.setRend o 0 0).setRend o 1 0
  else if s.rendState o 0 = 0 ∧ s.rendState o 1 = 0 then ((s.setRend o 0 1).setRend o 1 2).fset F.ISL_GLAZE_STATUS.active 0 o
  else s

/-- R70: in Twilight a commit that changes pixels brings the link of a sleeping output back up. -/
def State.glazeWake (s : State) (o : Nat) (changed : Bool) : State := if changed && s.outSleeps o then s.wakeLink o else s

/-- R234: the renderers change to the new buffer, with the oldest commit on its way. -/
def State.commitEffect (s : State) (o : Nat) : State :=
  match (s.glz o).commits with
  | [] => s
  | c :: rest =>
    let old := s.shownSnap o
    let changed := old.page != c.page || old.drawn != c.drawn || old.assets != c.assets
    let s := s.setGlz o { (s.glz o).onCopies (fun y => { y with front := c.lists, assets := c.assets }) with commits := rest }
    let s := s.setOut o { s.out o with glazeChanged := (s.out o).glazeChanged || changed }
    (((s.fset F.ISL_GLAZE_STATUS.page c.page o).startRend o c.page).glazeWake o changed).commitReached o c.chans

/-- R234: an output that does not scan has no line start, and changes at once (log entry 50). -/
def State.settleCommits (s : State) (o : Nat) : State :=
  if s.scans o then s else forEach (s.glz o).commits (fun _ s => s.commitEffect o) s

/-- R234: a commit is issued; the one before it takes effect first. -/
def State.request (s : State) (o : Nat) (c : GlazeSnap) : State :=
  (s.setGlz o { s.glz o with commits := (s.glz o).commits ++ [c] }).settleCommits o

/-- A change of the lists of one output by the island. -/
abbrev ListEdit := Nat × (GlazeLists → GlazeLists)

/-- A commit of the island's own (R236: one for all its changes of an output): it changes what the island changes, in both buffers,
and no edit of the main domain that waits for its GLZ_COMMIT (log entry 51). -/
def State.islandEdit (s : State) (edits : List ListEdit) (o : Nat) : State :=
  let l := edits.filter (fun e => e.1 == o)
  if l.isEmpty then s
  else
    let f (x : GlazeLists) : GlazeLists := l.foldl (fun x e => e.2 x) x
    let c := s.snap o
    (s.setGlz o ((s.glz o).onCopies (fun y => { y with back := f y.back }))).request o { c with lists := f c.lists }

/-! ### Pages and status (R232, R240, R241) -/

/-- MAIN_OK (R240). -/
def State.mainOkNow (s : State) : Bool := s.up && s.admitted && s.isl.alive && decide (s.pwr.state < 3)

/-- R232: the page of an output. An output that the OUT section leaves disabled has none, and a Held load shows the built-in page
(R64). -/
def State.pageFor (s : State) (o : Nat) : Nat :=
  if s.dom.island != .running || s.rcp.signed.isNone || !s.tailRecipe.outEnabled o then 0
  else if s.admitted then (if s.mainOkNow then 1 else 2)
  else if s.rcp.earlier.isSome && !s.rcp.otherSigned && s.fget F.SYS_RCP_STATUS.verdict != 3 then 2
  else 3

/-- R232: a page change is a commit of the firmware. -/
def State.repage (s : State) (o : Nat) : State :=
  if s.islWorks && (s.snap o).page != s.pageFor o then s.request o { s.snap o with page := s.pageFor o } else s

/-- R238: glaze is mixed on an output. -/
def State.mixes (s : State) (o : Nat) : Bool :=
  s.outOn o && s.fget F.ISL_GLAZE_STATUS.page o != 0 && (s.rendState o 0 == 1 || s.rendState o 1 == 1)

/-- R241: an output counts as valid in its group; without VDD_CORE none does (R390). -/
def State.glazeOk (s : State) (o : Nat) : Bool :=
  !s.dom.coreLost && s.mixes o && s.flag F.ISL_GLAZE_STATUS.check_ok o && s.flag F.ISL_GLAZE_STATUS.hb_ok o && !(s.out o).dark &&
    s.linkOf o != lnkStandby && s.linkOf o != lnkPsr

/-- R241: the bit of group g. -/
def State.groupOk (s : State) (g : Nat) : Bool :=
  let l := [2 * g, 2 * g + 1].filter s.outOn
  !l.isEmpty && l.all s.glazeOk

/-- The four group bits. -/
def State.groupBits (s : State) : Nat := ((List.range 4).map (fun g => (s.groupOk g).toNat * 2 ^ g)).sum

/-- ISL_STATUS, the pins and the mixing bits follow the state; a change of a group bit raises EV_ISL_GLAZE_VALID. -/
def State.showIsl (s : State) : State :=
  let s := forEach (List.range 8) (fun o s => s.fflag F.ISL_GLAZE_STATUS.mixing (s.mixes o) o) s
  let s := (s.fflag F.ISL_STATUS.isl_ok s.islRuns).fflag F.ISL_STATUS.main_ok s.mainOkNow
  let s := s.fflag F.ISL_STATUS.limited s.rcp.limited
  let s := { s with dom := { s.dom with islOkPin := s.islRuns, mainOkPin := s.mainOkNow } }
  let was := s.fget F.ISL_STATUS.glaze_valid
  let now := s.groupBits
  let s := s.fset F.ISL_STATUS.glaze_valid now
  if was = now then s else s.raise 126

/-- Pages and status follow the state. -/
def State.refreshIsl (s : State) : State := (forEach (List.range 8) (fun o s => (s.repage o).settleCommits o) s).showIsl

/-- R233: the GLAZE section of an admitted recipe takes effect by one commit on every output. -/
def State.installGlaze (s : State) (r : Recipe) : State :=
  forEach (List.range 8) (fun o s =>
    let l : GlazeLists := ⟨r.glazeList o false, r.glazeList o true⟩
    (s.setGlz o ((s.glz o).onCopies (fun y => { y with back := l }))).request o ⟨s.pageFor o, l, r.sec 7, []⟩) s

/-! ### Lockstep pairs (R222, R224) -/

/-- A lockstep pair. -/
def State.pair (s : State) (p : Nat) : PairState := Tbl.get PairState.initial s.isl.pairs p

/-- Store a lockstep pair. -/
def State.setPair (s : State) (p : Nat) (x : PairState) : State :=
  { s with isl := { s.isl with pairs := Tbl.set PairState.initial s.isl.pairs p x } }

/-- R224: a pair fails; the third failure within 1 s holds it until the next island reset and raises EV_ISL_PAIR_FAILED. Any
other failure resets the pair and starts its self-test. -/
def State.failPair (s : State) (p : Nat) : State :=
  let x := s.pair p
  let fails := recentFails s.islandTime x.fails
  let held := x.held || decide (3 ≤ fails.length)
  let s := s.setPair p { testing := !held, held := held, fails := fails, loaded := none }
  if held && !x.held then s.raise 121 else s

/-! ### The heartbeat (R239) -/

/-- R239: the pass toggles the heartbeat of an output for which a frame has started. -/
def State.toggleHb (s : State) (o : Nat) : State :=
  s.setGlz o { s.glz o with hbDue := false, hbPhase := !(s.glz o).hbPhase }

/-- The lists of an output with the heartbeat in a phase. -/
def hbEdit (o : Nat) (phase : Bool) : ListEdit := (o, fun l => ⟨hbColour phase l.normal, hbColour phase l.offline⟩)

/-- R239: the freeze check at a frame start, on the CRC of the frame that ended. The built-in page has no heartbeat
(log entry 135). -/
def State.hbCheck (s : State) (o : Nat) (crc : W32) : State :=
  let x := s.glz o
  if s.outSleeps o then s
  else if !s.mixes o || s.fget F.ISL_GLAZE_STATUS.page o == 3 then s.setGlz o { x with hbCrc := none, hbChanges := 0 }
  else
    match x.hbCrc with
    | none => s.setGlz o { x with hbCrc := some crc }
    | some old =>
      if old = crc then
        (((s.setGlz o { x with hbChanges := 0 }).fset F.ISL_GLAZE_STATUS.hb_ok 0 o).bump F.ISL_HB_FAIL_COUNT.count).raise 125
      else
        let s := s.setGlz o { x with hbCrc := some crc, hbChanges := min 2 (x.hbChanges + 1) }
        if 1 ≤ x.hbChanges then s.fset F.ISL_GLAZE_STATUS.hb_ok 1 o else s

/-- R238, R239: what the island does at a frame start of an output: the freeze check, the end of a renderer's whole-frame
check, the end of a path fault, and a heartbeat due. -/
def State.islFrameStart (s : State) (o : Nat) (crc : W32) : State :=
  let s := s.hbCheck o crc
  let x := s.glz o
  let passed (r : Nat) : Bool := (x.rend r).checking && (x.rend r).equal && s.rendState o r == 3 && s.rendState o (1 - r) == 1
  let s := forEach [0, 1] (fun r s => if passed r then s.setRend o r 2 else s) s
  let settle (r : Nat) : RendState := { x.rend r with checking := (x.rend r).checking && !passed r, equal := true }
  let clean := if x.mismatch then 0 else min 2 (x.clean + 1)
  let s := s.setGlz o { x with
    rendA := settle 0, rendB := settle 1, mismatch := false, clean := clean, hbDue := !s.outSleeps o }
  if clean = 2 then s.fset F.ISL_GLAZE_STATUS.path_fault 0 o else s

end Sys2Proof.Machine
end

