-- ==== Sys2Proof/Machine/Picture.lean ====
section
/-! DEFINITION. The picture that CMP composes (R181 to R201): fetching the samples of a line, decoding, scaling, warp and blending
of its layers, and dithering. A line is composed when it is due, from memory as it is then (R194; log entry 38). -/

namespace Sys2Proof.Machine

/-- A pixel of a layer: its alpha, and R, G, B encoded at 14 bits (R186). -/
structure Px where
  a : Rat
  r : Nat
  g : Nat
  b : Nat
  deriving DecidableEq, Repr

/-- A transparent pixel. -/
def Px.clear : Px := ⟨0, 0, 0, 0⟩

/-- A whole number for a value; between two the spec gives no rounding (log entry 124). -/
def roundOpen (v : Rat) : Int := if v.den = 1 then v.num else v.floor + (if Config.takesUpper v then 1 else 0)

/-- A 14-bit channel for a value in its units. -/
def level14 (v : Rat) : Nat := min 16383 (roundOpen v).toNat

/-- A number limited to [0, 1]. -/
def clamp01 (v : Rat) : Rat := if v < 0 then 0 else if 1 < v then 1 else v

/-! ### Formats (R183, R184, R186) -/

/-- A channel of w bits at 14 bits: its own bits stand at the top, and what fills the rest is open (log entry 125). -/
def widen (w v : Nat) : Nat := v * 2 ^ (14 - w) + Config.widenLow w v % 2 ^ (14 - w)

/-- The value of a half float, clamped to [0, 1] (R186). -/
def halfUnit (h : Nat) : Rat :=
  let e := h / 1024 % 32
  let m := h % 1024
  if e = 31 ∧ m ≠ 0 then ((Config.nanLevel h % 16384 : Nat) : Rat) / 16383
  else if 32768 ≤ h then 0
  else if 15 ≤ e then 1
  else if e = 0 then (m : Rat) / 16777216
  else ((1024 + m : Nat) : Rat) / ((2 ^ (25 - e) : Nat) : Rat)

/-- A pixel of an RGB format from its little-endian word. -/
def rgbPx (code w : Nat) : Px :=
  if code = 5 then ⟨((w / 2 ^ 24 % 256 : Nat) : Rat) / 255, widen 8 (w / 2 ^ 16 % 256), widen 8 (w / 256 % 256), widen 8 (w % 256)⟩
  else if code = 7 then
    ⟨((w / 2 ^ 30 % 4 : Nat) : Rat) / 3, widen 10 (w / 2 ^ 20 % 1024), widen 10 (w / 1024 % 1024), widen 10 (w % 1024)⟩
  else if code = 8 then ⟨1, widen 5 (w / 2048 % 32), widen 6 (w / 32 % 64), widen 5 (w % 32)⟩
  else
    let half (k : Nat) : Rat := halfUnit (w / 65536 ^ k % 65536)
    ⟨half 3, level14 (half 0 * 16383), level14 (half 1 * 16383), level14 (half 2 * 16383)⟩

/-- The luma weights of R and B: BT.601, BT.709, BT.2020 (R186). -/
def lumaWeights (matrix : Nat) : Rat × Rat :=
  if matrix = 0 then (299 / 1000, 114 / 1000) else if matrix = 1 then (2126 / 10000, 722 / 10000) else (2627 / 10000, 593 / 10000)

/-- R186: YUV of n bits to RGB, at limited or full range. -/
def yuvPx (matrix : Nat) (full : Bool) (n : Nat) (y cb cr : Rat) : Px :=
  let k := lumaWeights matrix
  let u : Rat := ((2 ^ (n - 8) : Nat) : Rat)
  let top : Rat := ((2 ^ n - 1 : Nat) : Rat)
  let luma := if full then y / top else (y - 16 * u) / (219 * u)
  let diff (c : Rat) : Rat := if full then (c - 128 * u) / top else (c - 128 * u) / (224 * u)
  let r := luma + 2 * (1 - k.1) * diff cr
  let b := luma + 2 * (1 - k.2) * diff cb
  let g := (luma - k.1 * r - k.2 * b) / (1 - k.1 - k.2)
  ⟨1, level14 (clamp01 r * 16383), level14 (clamp01 g * 16383), level14 (clamp01 b * 16383)⟩

/-! ### The samples of a source pixel (R174, R175, R184) -/

/-- One sample in memory: its address and bytes, and of a compressed surface the address of the metadata byte and the number
of the unit. -/
structure Sample where
  addr : Nat
  n : Nat
  unit : Option (Nat × Nat)
  deriving DecidableEq, Repr

/-- Bytes per pixel of an RGB format. -/
def rgbBytes (code : Nat) : Nat := if code = 8 then 2 else if code = 11 then 8 else 4

/-- The width of the source as it lies in memory, the crop origin included (log entry 126). -/
def LayerSet.planeW (v : LayerSet) : Nat := LayerSet.cropX v + LayerSet.srcW v
/-- Its height. -/
def LayerSet.planeH (v : LayerSet) : Nat := LayerSet.cropY v + LayerSet.srcH v
/-- LAYER_FMT.tiled. -/
def LayerSet.tiled (v : LayerSet) : Bool := (LayerSet.word v 1).getLsbD 11
/-- The surface is stored compressed: R175 compresses tiled surfaces of 4 and 8 bytes only. -/
def LayerSet.compressed (v : LayerSet) : Bool :=
  (LayerSet.word v 1).getLsbD 12 && LayerSet.tiled v && decide (4 ≤ rgbBytes (LayerSet.format v))
/-- LAYER_META_OFF. -/
def LayerSet.metaOff (v : LayerSet) : Nat := (LayerSet.word v 10).toNat

/-- The sample of an RGB pixel. -/
def LayerSet.rgbSample (v : LayerSet) (base x y : Nat) : Sample :=
  let b := rgbBytes (LayerSet.format v)
  let o := if LayerSet.tiled v then pixelOffset b (LayerSet.planeW v) true x y else y * LayerSet.pitch v 0 + x * b
  ⟨base + o, b, if LayerSet.compressed v then some (base + LayerSet.metaOff v + o / 512, o / 256) else none⟩

/-- Bytes of a YUV sample. -/
def yuvBytes (code : Nat) : Nat := if code = 194 ∨ code = 196 then 2 else 1

/-- The sample of chroma component k (0 Cb, 1 Cr) at a column and row of its plane. -/
def LayerSet.chromaSample (v : LayerSet) (base k col row : Nat) : Sample :=
  let c := LayerSet.format v
  let n := yuvBytes c
  if morePlanes c = 2 then ⟨base + LayerSet.planeOff v (1 + k) + row * LayerSet.pitch v 1 + col, 1, none⟩
  else
    let at_ := if c = 193 then 1 - k else k
    ⟨base + LayerSet.planeOff v 1 + row * LayerSet.pitch v 1 + (2 * col + at_) * n, n, none⟩

/-- The chroma columns around a luma column: chroma is co-sited with the even ones. -/
def LayerSet.chromaCols (v : LayerSet) (x : Nat) : List Nat :=
  if LayerSet.format v = 198 then [x]
  else if x % 2 = 0 then [x / 2]
  else [x / 2, min (x / 2 + 1) (ceilDiv (LayerSet.planeW v) 2 - 1)]

/-- The chroma rows around a luma row: for 4:2:0 chroma is centred between two of them. -/
def LayerSet.chromaRows (v : LayerSet) (y : Nat) : List Nat :=
  if is420 (LayerSet.format v) then
    (if y % 2 = 0 then [y / 2 - 1, y / 2] else [y / 2, min (y / 2 + 1) (ceilDiv (LayerSet.planeH v) 2 - 1)])
  else [y]

/-- The samples of chroma component k for a luma pixel. -/
def LayerSet.chromaSamples (v : LayerSet) (base k x y : Nat) : List Sample :=
  (LayerSet.chromaRows v y).flatMap (fun row => (LayerSet.chromaCols v x).map (fun col => LayerSet.chromaSample v base k col row))

/-- The samples of a source pixel: its word, or Y, those of Cb, and those of Cr. -/
def LayerSet.samples (v : LayerSet) (base x y : Nat) : List Sample :=
  if isYuv (LayerSet.format v) then
    let n := yuvBytes (LayerSet.format v)
    ⟨base + y * LayerSet.pitch v 0 + x * n, n, none⟩ ::
      (LayerSet.chromaSamples v base 0 x y ++ LayerSet.chromaSamples v base 1 x y)
  else [LayerSet.rgbSample v base x y]

/-! ### Fetching (R194, R196) -/

/-- What a line fetched: pieces of 256 bytes by their number, and none for one whose translation failed or
that got an error response (R260). -/
abbrev Pieces := List (Nat × Option (List Byte))

/-- A piece is fetched once in a line. -/
def fetchOnce (out owner : Nat) (r : Pieces × State) (k : Nat) : Pieces × State :=
  if r.1.any (fun e => e.1 == k) then r
  else
    let f := r.2.engineRead (.cmp out) owner (256 * k) 256
    ((k, if f.fault.isSome || f.failed then none else some f.bytes) :: r.1, f.s)

/-- The pieces that a sample needs. -/
def Sample.pieces (x : Sample) : List Nat := (x.unit.map (fun u => u.1 / 256)).toList ++ [x.addr / 256]

/-- The bytes of a piece. -/
def pieceAt (m : Pieces) (k : Nat) : Option (List Byte) := (m.find? (fun e => e.1 == k)).bind Prod.snd

/-- The value of a sample, its unit decompressed; none where the fetch failed. -/
def Sample.value (m : Pieces) (x : Sample) : Option Nat :=
  match x.unit with
  | none => (pieceAt m (x.addr / 256)).map (fun b => leNat b (x.addr % 256) x.n)
  | some u =>
    match pieceAt m (u.1 / 256), pieceAt m (x.addr / 256) with
    | some i, some b => some (leNat (unpackUnit (unitNibble (i.getD (u.1 % 256) 0) u.2) b) (x.addr % 256) x.n)
    | _, _ => none

/-- Every value of a list, or none. -/
def allValues : List (Option Nat) → Option (List Nat)
  | [] => some []
  | some v :: t => (allValues t).map (v :: ·)
  | none :: _ => none

/-- Chroma at a luma pixel from its samples. -/
def chromaOf (x y : Nat) (l : List Nat) : Rat :=
  match l with
  | [v] => (v : Rat)
  | _ => Config.chromaBetween (x % 2) (y % 2) l

/-- A source pixel; transparent where a fetch failed (R194). -/
def LayerSet.sourcePx (v : LayerSet) (base : Nat) (m : Pieces) (x y : Nat) : Px :=
  let c := LayerSet.format v
  match allValues ((LayerSet.samples v base x y).map (Sample.value m)) with
  | none => Px.clear
  | some [] => Px.clear
  | some (w :: t) =>
    if isYuv c then
      let n := if yuvBytes c = 2 then 10 else 8
      let l := if n = 10 then t.map (· / 64) else t
      let half := l.length / 2
      yuvPx ((LayerSet.word v 1).toNat / 256 % 4) ((LayerSet.word v 1).getLsbD 10) n
        ((if n = 10 then w / 64 else w : Nat) : Rat) (chromaOf x y (l.take half)) (chromaOf x y (l.drop half))
    else rgbPx c w

/-! ### Scaling and warp (R185, R197) -/

/-- The source pixels of a destination pixel: one, or the 8 × 4 taps of the scaler with its phases. -/
structure Taps where
  pts : List (Nat × Nat)
  phX : Nat
  phY : Nat
  scaled : Bool
  deriving DecidableEq, Repr

/-- A position on one axis: the pixel before it and the phase, in 64ths. -/
def tapPhase (p : Rat) : Int × Nat :=
  let q := p - 1 / 2
  (q.floor, ((q - (q.floor : Rat)) * 64).floor.toNat)

/-- A tap limited to the pixels lo to hi − 1. -/
def tapAt (lo hi i : Int) : Nat := (max (max lo 0) (min (hi - 1) i)).toNat

/-- The taps at a source position; beyond the crop, extended by the margin, the edge is repeated (log entry 127). -/
def LayerSet.tapsAt (v : LayerSet) (margin : Nat) (px py : Rat) : Taps :=
  let a := tapPhase px
  let b := tapPhase py
  let lx : Int := (LayerSet.cropX v : Int) - margin
  let ly : Int := (LayerSet.cropY v : Int) - margin
  let hx : Int := ((LayerSet.planeW v + margin : Nat) : Int)
  let hy : Int := ((LayerSet.planeH v + margin : Nat) : Int)
  ⟨(List.range 4).flatMap (fun (j : Nat) => (List.range 8).map (fun (i : Nat) =>
      (tapAt lx hx (a.1 - 3 + (i : Int)), tapAt ly hy (b.1 - 1 + (j : Int))))), a.2, b.2, true⟩

/-- R197: the source position of destination pixel (i, j) under a warp (dx, dy in 2^-32 pixel, θ in 2^-32 degree):
scale⁻¹(R(−θ)(q − c − (dx, dy)) + c), q the centre of the pixel. -/
def LayerSet.warpPos (v : LayerSet) (w : Int × Int × Int) (i j : Nat) : Rat × Rat :=
  let cx : Rat := (LayerSet.dstW v : Rat) / 2
  let cy : Rat := (LayerSet.dstH v : Rat) / 2
  let k : Rat × Rat := if w.2.2 = 0 then (1, 0) else Config.cosSin w.2.2
  let ux : Rat := (i : Rat) + 1 / 2 - cx - (w.1 : Rat) / 4294967296
  let uy : Rat := (j : Rat) + 1 / 2 - cy - (w.2.1 : Rat) / 4294967296
  ((k.1 * ux + k.2 * uy + cx) * (LayerSet.srcW v : Rat) / (LayerSet.dstW v : Rat) + (LayerSet.cropX v : Rat),
   (k.1 * uy - k.2 * ux + cy) * (LayerSet.srcH v : Rat) / (LayerSet.dstH v : Rat) + (LayerSet.cropY v : Rat))

/-- R197: a sample inside the crop extended by the margin on every side. -/
def LayerSet.inCrop (v : LayerSet) (margin : Nat) (p : Rat × Rat) : Bool :=
  decide ((LayerSet.cropX v : Rat) - (margin : Rat) ≤ p.1) && decide (p.1 < ((LayerSet.planeW v + margin : Nat) : Rat)) &&
    decide ((LayerSet.cropY v : Rat) - (margin : Rat) ≤ p.2) && decide (p.2 < ((LayerSet.planeH v + margin : Nat) : Rat))

/-- The taps of pixel (i, j) of the destination rectangle; none where a warped sample is transparent. -/
def State.tapsOf (s : State) (n i j : Nat) : Option Taps :=
  let v := (s.layer n).live
  if s.axisLocked n then
    let p := LayerSet.warpPos v (s.layer n).warp i j
    if LayerSet.inCrop v (s.recipe.layerMargin n) p then some (LayerSet.tapsAt v (s.recipe.layerMargin n) p.1 p.2) else none
  else if isVideo n then
    let p := LayerSet.warpPos v (0, 0, 0) i j
    some (LayerSet.tapsAt v 0 p.1 p.2)
  else some ⟨[(LayerSet.cropX v + i, LayerSet.cropY v + j)], 0, 0, false⟩

/-- The pixel that taps give. -/
def LayerSet.tapPx (v : LayerSet) (base : Nat) (m : Pieces) (t : Taps) : Px :=
  let l := t.pts.map (fun p => LayerSet.sourcePx v base m p.1 p.2)
  if t.scaled then
    let scale (f : Px → Nat) : Nat :=
      min 16383 (Config.polyphase (LayerSet.srcW v) (LayerSet.dstW v) t.phX (LayerSet.srcH v) (LayerSet.dstH v) t.phY (l.map f))
    if l.all (fun p => p.a == 0) then Px.clear
    else
      ⟨if l.all (fun p => p.a == 1) then 1 else ((scale (fun p => level14 (p.a * 16383)) : Nat) : Rat) / 16383,
        scale Px.r, scale Px.g, scale Px.b⟩
  else l.headD Px.clear

/-! ### One line of a layer -/

/-- The place of a canvas pixel in the destination rectangle of a layer. -/
def LayerSet.inside (v : LayerSet) (cx y : Nat) : Option (Nat × Nat) :=
  let i : Int := (cx : Int) - LayerSet.dstX v
  let j : Int := (y : Int) - LayerSet.dstY v
  if 0 ≤ i ∧ i < (LayerSet.dstW v : Int) ∧ 0 ≤ j ∧ j < (LayerSet.dstH v : Int) then some (i.toNat, j.toNat) else none

/-- R196: the segment of a canvas pixel is not fetched for the layer. -/
def LayerState.skipped (x : LayerState) (cx y : Nat) : Bool :=
  x.skips.any (fun r => decide (r.c0 ≤ cx / 64) && decide (cx / 64 ≤ r.c1) && decide (r.b0 ≤ y / 16) && decide (y / 16 ≤ r.b1))

/-- The taps at a canvas pixel: none outside the destination rectangle and in a skipped segment; within, none where a warped
sample is transparent. -/
def State.tapsHere (s : State) (n cx y : Nat) : Option (Option Taps) :=
  match LayerSet.inside (s.layer n).live cx y with
  | some p => if (s.layer n).skipped cx y then none else some (s.tapsOf n p.1 p.2)
  | none => none

/-- The pieces that a list of taps needs. -/
def LayerSet.needs (v : LayerSet) (base : Nat) (t : Taps) : List Nat :=
  t.pts.flatMap (fun p => (LayerSet.samples v base p.1 p.2).flatMap Sample.pieces)

/-- R200: the pixel of the image in cursor memory. -/
def CursorImage.px (x : CursorImage) (i j : Nat) : Px :=
  if i < x.width then rgbPx 5 (x.words.getD (j * x.width + i) 0).toNat else Px.clear

/-- One line of a layer: its pixel at each of `width` columns of the canvas from a first one; none where it contributes
nothing. -/
def State.layerLine (s : State) (n first width y : Nat) : List (Option Px) × State :=
  let x := s.layer n
  let cols := (List.range width).map (first + ·)
  if !s.contributes n then (cols.map (fun _ => none), s)
  else if isCursor n then
    (cols.map (fun cx => (LayerSet.inside x.live cx y).bind (fun p => x.image.map (fun m => m.px p.1 p.2))), s)
  else
    match x.current with
    | none => (cols.map (fun _ => none), s)
    | some f =>
      let base := f.addr.toNat
      let taps := cols.map (fun cx => s.tapsHere n cx y)
      let r := (taps.flatMap (fun t => ((t.bind id).map (LayerSet.needs x.live base)).getD [])).foldl
        (fetchOnce (s.recipe.layerOut n) ((s.layerHolder n).getD 0)) ([], s)
      (taps.map (fun t => t.map (fun u => (u.map (LayerSet.tapPx x.live base r.1)).getD Px.clear)), r.2)

/-! ### Blending (R186, R195) -/

/-- R195: the canvas pixel lies in an opaque area of a layer that provides cover. -/
def State.solid (s : State) (n cx y : Nat) : Bool :=
  s.covers n && (LayerSet.opaqueAreas (s.layer n).live).any (fun r =>
    decide (r.1 ≤ (cx : Int)) && decide ((cx : Int) < r.2.2.1) && decide (r.2.1 ≤ (y : Int)) && decide ((y : Int) < r.2.2.2))

/-- R186: a pixel of a layer over what lies below it. -/
def blendPx (v : LayerSet) (solid : Bool) (top under : Px) : Px :=
  let p : Rat := (LayerSet.alpha v : Rat) / 255
  let a : Rat := if solid then 1 else top.a * p
  let k : Rat := if LayerSet.ctrl v 3 then p else a
  let mix (t u : Nat) : Nat := level14 ((t : Rat) * k + (u : Rat) * (1 - a))
  ⟨1, mix top.r under.r, mix top.g under.g, mix top.b under.b⟩

/-- The layers of a canvas in drawing order: z upwards, then the cursor (R181). -/
def Recipe.drawOrder (r : Recipe) (o : Nat) : List Nat :=
  let l := r.layersOf o
  (List.range 8).flatMap (fun z => l.filter (fun n => !isCursor n && r.layerZ n == z)) ++ l.filter isCursor

/-- A 10-bit colour word R[29:20], G[19:10], B[9:0] at 14 bits. -/
def colourPx (w : W32) : Px :=
  ⟨1, widen 10 (w.toNat / 2 ^ 20 % 1024), widen 10 (w.toNat / 1024 % 1024), widen 10 (w.toNat % 1024)⟩

/-- One layer over the line so far. -/
def State.overLine (s : State) (n first y : Nat) (line : List Px) : List Px × State :=
  let t := s.layerLine n first line.length y
  ((List.zipWith (fun (e : Px × Nat) (p : Option Px) =>
      match p with
      | some p => blendPx (s.layer n).live (s.solid n (first + e.2) y) p e.1
      | none => e.1) line.zipIdx t.1), t.2)

/-- R181, R186: line y of an output before dithering: every layer over the background. The odd half of a locked pair shows the right
half of the canvas (R214). -/
def State.composeLine (s : State) (o y : Nat) : List Px × State :=
  let w := (s.out o).timing.hActive
  let half := s.oddHalf o
  let l := s.recipe.drawOrder (if half then o - 1 else o)
  l.foldl (fun r n => r.2.overLine n (if half then w else 0) y r.1)
    (List.replicate w (colourPx (Tbl.get 0 s.cmp.liveBg o)), s)

/-! ### Dithering (R201) -/

/-- A channel reduced from 14 bits to a panel depth. -/
def reduce (depth mode phase x y v : Nat) : Nat :=
  let d := 14 - depth
  let t := if mode = 0 then 2 ^ (d - 1) else Config.ditherMatrix d (if mode = 2 then phase else 0) (x % 4) (y % 4) % 2 ^ d
  min (2 ^ depth - 1) ((v + t) / 2 ^ d)

/-- R237: channels of a panel depth as a pixel word, left-aligned. -/
def pixelWord (depth r g b : Nat) : W32 :=
  BitVec.ofNat 32 ((r * 2 ^ 20 + g * 2 ^ 10 + b) * 2 ^ (10 - depth))

/-- A pixel of main content at panel depth. -/
def ditherPx (depth mode phase x y : Nat) (p : Px) : W32 :=
  let f := reduce depth mode phase x y
  pixelWord depth (f p.r) (f p.g) (f p.b)

/-- R219: the word of a pixel in a freeze signature: the top 10 bits of each channel. -/
def Px.word10 (p : Px) : W32 := BitVec.ofNat 32 (p.r / 16 * 2 ^ 20 + p.g / 16 * 2 ^ 10 + p.b / 16)

/-! ### Cursor memory (R200) -/

/-- The image of the current frame of a cursor layer, as its live set frames it. -/
def State.cursorImage (s : State) (n : Nat) : CursorImage × State :=
  let v := (s.layer n).live
  let base := (((s.layer n).current.map (fun (f : QFrame) => f.addr)).getD 0).toNat
  let pts := (List.range (LayerSet.srcH v)).flatMap (fun j => (List.range (LayerSet.srcW v)).map (fun i =>
    LayerSet.rgbSample v base (LayerSet.cropX v + i) (LayerSet.cropY v + j)))
  let r := (pts.flatMap Sample.pieces).foldl (fetchOnce (s.recipe.layerOut n) ((s.layerHolder n).getD 0)) ([], s)
  (⟨LayerSet.srcW v, pts.map (fun p => BitVec.ofNat 32 ((p.value r.1).getD 0))⟩, r.2)

end Sys2Proof.Machine
end

