-- ==== Sys2Proof/Machine/CmpCmd.lean ====
section
/-! DEFINITION. The commands of layer composition (08_composition.md) but the frame start: commits, submissions, flushes, release
records, the warp of a band, and the end of a cursor copy. -/

namespace Sys2Proof.Machine

/-- The layers that an owner holds, in ascending order: slot j of its page 7 is the j-th. -/
def State.heldLayers (s : State) (owner : Nat) : List Nat := (List.range 48).filter (fun n => s.layerHolder n == some owner)

/-- The agent reaches layer n through page 7 of its BAR0. -/
def State.pageSeven (s : State) (a : Agent) (n : Nat) : Bool :=
  match a with
  | .guest _ | .partition _ => ((s.heldLayers (ownerOf a)).take 16).contains n && s.pagesOpen (ownerOf a)
  | _ => false

/-- A write to a layer window: by the manager, or by the holder through its page 7; any other slot ignores writes. CMP runs in
Day and Dusk (R66). -/
def State.layerAccess (s : State) (a : Agent) (n : Nat) (f : State → State) : State :=
  if !s.awake then s.emit (.busError a)
  else if a = .manager then f s
  else
    match a with
    | .guest _ | .partition _ => if s.pageSeven a n then f s else s
    | _ => s.emit (.busError a)

/-- LAYER_COMMIT (R187, R188). -/
def execLayerCommit (a : Agent) (layer : Fin 48) (s : State) : Host.Outcome State Fault Refusal :=
  done (fun s => s.layerAccess a layer (fun s => s.commitLayer layer)) s

/-- The staged frame of a layer, with the fields of SUB_CTRL. -/
def State.stagedFrame (s : State) (n : Nat) (ctrl : W32) : QFrame :=
  { tag := ctrl.truncate 16, addr := s.get64 .SUB_ADDR_LO .SUB_ADDR_HI n, nb := s.get64 .SUB_NB_LO .SUB_NB_HI n,
    da := s.get64 .SUB_DA_LO .SUB_DA_HI n, changed := ctrl.getLsbD 16,
    ref := if ctrl.getLsbD 17 then some (s.get64 .SUB_REF_LO .SUB_REF_HI n).toInt else none, flipped := false }

/-- SUBMISSION (R189): `flush` in the same write acts first. -/
def State.submission (s : State) (n : Nat) (ctrl : W32) : State :=
  (onlyIf (ctrl.getLsbD 18) (fun s => s.flushLayer n) s).submit n (s.stagedFrame n ctrl)

/-- SUBMISSION (R189). -/
def execSubmission (a : Agent) (layer : Fin 48) (ctrl : W32) (s : State) : Host.Outcome State Fault Refusal :=
  done (fun s => s.layerAccess a layer (fun s => s.submission layer ctrl)) s

/-- FLUSH (R193). -/
def execFlush (a : Agent) (layer : Fin 48) (s : State) : Host.Outcome State Fault Refusal :=
  done (fun s => s.layerAccess a layer (fun s => s.flushLayer layer)) s

/-- REL_POP: the oldest record goes. -/
def State.relPop (s : State) (n : Nat) : State := s.setLayer n { s.layer n with rel := (s.layer n).rel.drop 1 }

/-- REL_POP (R193). -/
def execRelPop (a : Agent) (layer : Fin 48) (s : State) : Host.Outcome State Fault Refusal :=
  done (fun s => s.layerAccess a layer (fun s => s.relPop layer)) s

/-- R197: a term, in 2^-32 of its unit, and its limit. -/
def clampTerm (limit v : Int) : Int := max (-limit) (min limit v)

/-- R197: dx, dy and θ before clamping: a signed 16.16 coefficient times a signed 32.32 distance, in 2^-32. -/
def warpTerms (v : LayerSet) (dp : Int) : Int × Int × Int :=
  (LayerSet.warpK v 0 * dp / 65536, LayerSet.warpK v 1 * dp / 65536, LayerSet.warpK v 2 * dp / 65536)

/-- WARP_BAND (R197, R198): p(ST_b) − p_ref times the coefficients, clamped; a clamped band is counted, and the first one of a
frame raises EV_CMP_WARP_CLAMP, but not while the axis is ACQUIRING or LOST (R199). -/
def State.warpBand (s : State) (n : Nat) (bandSt : ST) : State :=
  if s.awake && s.axisLocked n && s.contributes n then
    let x := s.layer n
    let t := warpTerms x.live ((s.axisAt (s.recipe.layerAxis n) bandSt).1 - x.pRef)
    let w := (clampTerm (64 * one32) t.1, clampTerm (64 * one32) t.2.1, clampTerm (2 * one32) t.2.2)
    let s := s.setLayer n { x with warp := w, clamped := x.clamped || w != t }
    let st := s.axState (s.recipe.layerAxis n)
    if w != t then onlyIf (!x.clamped && st != axAcquiring && st != axLost) (fun s => s.raise 180) (s.bump F.CNT_CLAMP.count n) else s
  else s

/-- WARP_BAND (R197). -/
def execWarpBand (layer : Fin 48) (bandSt : ST) (s : State) : Host.Outcome State Fault Refusal :=
  done (fun s => s.warpBand layer bandSt) s

/-- The first active line of the frame that began last has not started. -/
def State.inBlanking (s : State) (o : Nat) : Bool :=
  let t := (s.out o).timing
  decide ((s.gridTime - s.get64 .CMP_OUT_FS_LO .CMP_OUT_FS_HI o).toNat * t.pclk <
    (t.vFront + t.vSync + t.vBack) * t.hTotal * 1000000)

/-- CURSOR_COPY_DONE (R200): the image is in cursor memory; in time, it is shown in this frame, else from the next. -/
def State.cursorCopyDone (s : State) (n : Nat) : State :=
  if s.awake && isCursor n && s.recipe.layerUsed n && (s.layer n).current.isSome && (s.layer n).copying then
    let r := s.cursorImage n
    let x := r.2.layer n
    if s.inBlanking (s.recipe.layerOut n) then
      r.2.setLayer n { x with copying := false, image := some r.1, lag := x.old.length, ready := none }
    else r.2.setLayer n { x with copying := false, ready := some (r.1, x.old.length) }
  else s

/-- CURSOR_COPY_DONE (R200). -/
def execCursorCopyDone (layer : Fin 48) (s : State) : Host.Outcome State Fault Refusal :=
  done (fun s => s.cursorCopyDone layer) s

end Sys2Proof.Machine
end

