-- ==== Sys2Proof/Machine/CoreOps.lean ====
section
/-! DEFINITION. The application cores (12_cores_worlds.md): worlds and debug enables, exceptions and CSRs, and the two-stage
translation of their addresses (R266, R267, R269). What the spec takes over from the ratified RISC-V specifications by name follows
those (log entry 141). -/

namespace Sys2Proof.Machine

/-! ### Cores, worlds, debug (R270, R277, R278) -/

/-- An application core. -/
def State.core (s : State) (n : Nat) : CoreState := Tbl.get CoreState.initial s.cpx.cores n

/-- Store an application core. -/
def State.setCore (s : State) (n : Nat) (x : CoreState) : State :=
  { s with cpx := { s.cpx with cores := Tbl.set CoreState.initial s.cpx.cores n x } }

/-- The core runs in the inner world. -/
def State.coreInner (s : State) (n : Nat) : Bool := s.hasBit .CPX_STATUS n

/-- The core is halted by the debugger. -/
def State.coreHalted (s : State) (n : Nat) : Bool := s.hasBit .CPX_STATUS (8 + n)

/-- The core executes: released (R272), not halted, and not clock-gated (R66). -/
def State.coreRuns (s : State) (n : Nat) : Bool := s.day && s.hasBit .CPX_STATUS (16 + n) && !s.coreHalted n

/-- R278: the invasive enable of a world. -/
def State.invasive (s : State) (inner : Bool) : Bool :=
  if inner then s.flag F.CPX_DBG_EN.inner_inv else s.flag F.CPX_DBG_EN.outer_inv

/-- R278: the non-invasive enable of a world. -/
def State.nonInvasive (s : State) (inner : Bool) : Bool :=
  if inner then s.flag F.CPX_DBG_EN.inner_noninv else s.flag F.CPX_DBG_EN.outer_noninv

/-- What a core has run leaves contents in its predictor structures that the spec does not give (R277). -/
def State.warm (s : State) (n : Nat) : State :=
  let free (k : Nat) : List (BitVec 64) := [BitVec.ofNat 64 (Config.freeNat (s.draws + k))]
  { s with draws := s.draws + 5 }.setCore n
    { s.core n with history := free 0, targets := free 1, ras := free 2, indirect := free 3, prefetch := free 4 }

/-- R277, R278: a write of `world`. A change of it clears the untagged predictor structures and keeps the tagged ones, the TLBs
and the caches; it lets a pending halt request act where the new world allows it. -/
def State.setWorld (s : State) (n : Nat) (inner : Bool) : State :=
  if s.coreInner n == inner then s
  else
    let s := s.bitTo .CPX_STATUS n inner
    let halt := (s.core n).haltPending && s.invasive inner
    let s := s.setCore n { s.core n with
      ras := [], indirect := [], prefetch := [], haltPending := (s.core n).haltPending && !halt }
    if halt then s.setBit .CPX_STATUS (8 + n) else s

/-! ### Exceptions and CSRs -/

/-- CSR numbers that the operations of a core use. -/
def csrMstatus : Nat := 0x300
/-- The HS-level status. -/
def csrVsstatus : Nat := 0x200
/-- Exceptions delegated from HS to VS mode. -/
def csrHedeleg : Nat := 0x602

/-- A CSR that is held by number. -/
def CoreState.csr (x : CoreState) (num : Nat) : BitVec 64 := Tbl.get 0 x.csrs num

/-- Store a CSR that is held by number. -/
def CoreState.setCsr (x : CoreState) (num : Nat) (v : BitVec 64) : CoreState := { x with csrs := Tbl.set 0 x.csrs num v }

/-- The mode is a guest's. -/
def guestMode : CoreMode → Bool
  | .vs | .vu => true
  | _ => false

/-- The mode is a user mode. -/
def userMode : CoreMode → Bool
  | .u | .vu => true
  | _ => false

/-- Exceptions that HS mode cannot delegate further: calls from HS, VS and M mode, WCALL, and those of the G-stage. -/
def noHedeleg : List Nat := [9, 10, 11, 20, 21, 22, 23, 24]

/-- The mode that takes an exception: normal delegation by `medeleg` and `hedeleg`. -/
def CoreState.handler (x : CoreState) (cause : Nat) : CoreMode :=
  if x.mode = .m || !x.medeleg.getLsbD cause then .m
  else if guestMode x.mode && (x.csr csrHedeleg).getLsbD cause && !noHedeleg.contains cause then .vs
  else .hs

/-- An exception of a core: its cause, the address or word that it reports, the guest-physical address in units of 4 bytes, and
what `mtinst` or `htinst` takes. -/
structure CoreFault where
  cause : Nat
  tval : BitVec 64
  tval2 : BitVec 64
  tinst : W32
  deriving DecidableEq, Repr

/-- The base of a trap vector. -/
def vectorBase (v : BitVec 64) : BitVec 64 := v &&& ~~~(3#64)

/-- A core takes an exception. -/
def CoreState.trap (x : CoreState) (f : CoreFault) : CoreState :=
  let cause := BitVec.ofNat 64 f.cause
  match x.handler f.cause with
  | .vs =>
    { ((x.setCsr 0x241 x.pc).setCsr 0x242 cause).setCsr 0x243 f.tval with
      pc := vectorBase (x.csr 0x205), mode := .vs }
  | .hs =>
    { (((x.setCsr 0x141 x.pc).setCsr 0x142 cause).setCsr 0x143 f.tval).setCsr 0x643 f.tval2 with
      htinst := f.tinst, pc := vectorBase (x.csr 0x105), mode := .hs }
  | _ =>
    { x.setCsr 0x34B f.tval2 with
      mepc := x.pc, mcause := cause, mtval := f.tval, mtinst := f.tinst, pc := vectorBase (x.csr 0x305), mode := .m }

/-- Core n takes an exception. -/
def State.coreTrap (s : State) (n : Nat) (f : CoreFault) : State := (s.setCore n ((s.core n).trap f)).emit (.coreTrap n f.cause)

/-- An exception that reports a value and nothing else. -/
def CoreFault.plain (cause : Nat) (tval : BitVec 64) : CoreFault := ⟨cause, tval, 0, 0⟩

/-- R267, R273: an illegal instruction. -/
def State.illegal (s : State) (n : Nat) (word : W32) : State := s.coreTrap n (.plain 2 (word.zeroExtend 64))

/-- The address-translation modes that the cores implement: bare, Sv39, Sv48 (R266, R267). -/
def modeHeld (v : BitVec 64) : Bool := [0, 8, 9].contains (v.toNat / 2 ^ 60)

/-- What `hgatp` keeps: the VMID of 14 bits, and a root table of 16 KiB (R269). -/
def hgatpMask : BitVec 64 := 0xF3FFFFFFFFFFFFFC#64

/-- Bit 24 of `medeleg` is read-only 0 (R274). -/
def medelegMask : BitVec 64 := ~~~(0x1000000#64)

/-- What a read or write of a CSR comes to: the CSR itself, in VS mode that of the guest for a supervisor CSR, or an exception: a
CSR of a higher privilege is an illegal instruction, or a virtual instruction in a guest where HS mode reaches it. -/
def csrReach (mode : CoreMode) (num : Nat) (write : Bool) : Nat ⊕ Nat :=
  let level := num / 256 % 4
  let readOnly := num / 1024 == 3
  let allowed := match mode with
    | .m => true
    | .hs => decide (level ≤ 2)
    | .vs => decide (level ≤ 1)
    | .u | .vu => level == 0
  if allowed && !(write && readOnly) then
    .inl (if mode = .vs ∧ level = 1 ∧ num / 1024 = 0 then num + 0x100 else num)
  else .inr (if guestMode mode && decide (level ≤ 2) && level != 0 && !(write && readOnly) then 22 else 2)

/-- The configuration of a PMP entry (R266): R, W and X, how it matches, and its lock. -/
def CoreState.pmpCfg (x : CoreState) (i : Nat) : Nat := (x.csr (0x3A0 + i / 8 * 2)).toNat / 2 ^ (8 * (i % 8)) % 256

/-- A write of a PMP configuration register: locked entries keep theirs. -/
def CoreState.pmpWrite (x : CoreState) (num : Nat) (v : BitVec 64) : BitVec 64 :=
  BitVec.ofNat 64 (((List.range 8).map (fun j =>
    let old := (x.csr num).toNat / 2 ^ (8 * j) % 256
    (if 128 ≤ old then old else v.toNat / 2 ^ (8 * j) % 256) * 2 ^ (8 * j))).sum)

/-- An address register of the PMP is locked with its entry, and with the next where that is a top of range. -/
def CoreState.pmpAddrLocked (x : CoreState) (i : Nat) : Bool :=
  decide (128 ≤ x.pmpCfg i) || (decide (i < 15) && decide (128 ≤ x.pmpCfg (i + 1)) && x.pmpCfg (i + 1) / 8 % 4 == 1)

/-- A write of a CSR. A mode of `satp`, `vsatp` or `hgatp` that is not supported leaves the register unchanged (R267). -/
def CoreState.csrWrite (x : CoreState) (num : Nat) (v : BitVec 64) : CoreState :=
  match num with
  | 0x180 => if modeHeld v then { x with satp := v } else x
  | 0x280 => if modeHeld v then { x with vsatp := v } else x
  | 0x680 => if modeHeld v then { x with hgatp := v &&& hgatpMask } else x
  | 0x302 => { x with medeleg := v &&& medelegMask }
  | 0x341 => { x with mepc := v &&& ~~~(1#64) }
  | 0x342 => { x with mcause := v }
  | 0x343 => { x with mtval := v }
  | 0x34A => { x with mtinst := v.truncate 32 }
  | 0x64A => { x with htinst := v.truncate 32 }
  | 0x7C1 => x
  | _ =>
    if num = 0x3A0 ∨ num = 0x3A2 then x.setCsr num (x.pmpWrite num v)
    else if 0x3B0 ≤ num ∧ num < 0x3C0 then (if x.pmpAddrLocked (num - 0x3B0) then x else x.setCsr num (v &&& 0x3FFFFFFFFFFFFF#64))
    else x.setCsr num v

/-- The value of a CSR. `mworld` is R270's, `mdbgen` shows CPX_DBG_EN (R278). -/
def State.csrRead (s : State) (n num : Nat) : BitVec 64 :=
  let x := s.core n
  match num with
  | 0x180 => x.satp
  | 0x280 => x.vsatp
  | 0x680 => x.hgatp
  | 0x302 => x.medeleg
  | 0x341 => x.mepc
  | 0x342 => x.mcause
  | 0x343 => x.mtval
  | 0x34A => x.mtinst.zeroExtend 64
  | 0x64A => x.htinst.zeroExtend 64
  | 0x7C0 => BitVec.ofNat 64 ((s.coreInner n).toNat + 2 * x.pworld.toNat)
  | 0x7C1 => (s.get .CPX_DBG_EN).zeroExtend 64 &&& 15
  | _ => x.csr num

/-! ### Physical memory protection (R266: 16 entries, granularity 4 KiB) -/

/-- The trailing ones of a number, at most n. -/
def trailingOnes (a : Nat) : Nat → Nat
  | 0 => 0
  | n + 1 => if a % 2 = 1 then trailingOnes (a / 2) n + 1 else 0

/-- The range of a PMP entry: base and end; none while it is off. -/
def CoreState.pmpRange (x : CoreState) (i : Nat) : Option (Nat × Nat) :=
  let top (j : Nat) : Nat := (x.csr (0x3B0 + j)).toNat / 1024 * 4096
  match x.pmpCfg i / 8 % 4 with
  | 1 => some (if i = 0 then 0 else top (i - 1), top i)
  | 3 =>
    let a := (x.csr (0x3B0 + i)).toNat ||| 511
    let k := trailingOnes a 54
    some (a / 2 ^ (k + 1) * 2 ^ (k + 3), (a / 2 ^ (k + 1) + 1) * 2 ^ (k + 3))
  | _ => none

/-- What an access of a core does. -/
inductive AccessKind where
  | fetch | load | store
  deriving DecidableEq, Repr

/-- The first entry that matches any byte decides; without one only M mode has access. -/
def CoreState.pmpOk (x : CoreState) (mode : CoreMode) (k : AccessKind) (addr n : Nat) : Bool :=
  match (List.range 16).findSome? (fun i => (x.pmpRange i).bind (fun r =>
      if r.1 < addr + n ∧ addr < r.2 then some (i, r) else none)) with
  | none => mode == .m
  | some (i, r) =>
    let c := x.pmpCfg i
    let bitOf := match k with | .load => 0 | .store => 1 | .fetch => 2
    decide (r.1 ≤ addr) && decide (addr + n ≤ r.2) && ((mode == .m && decide (c < 128)) || bit c bitOf == 1)

/-! ### Translation (R267, R269) -/

/-- The exception codes of an access: access fault, page fault, guest-page fault, address misaligned. -/
def AccessKind.accessFault : AccessKind → Nat
  | .fetch => 1 | .load => 5 | .store => 7
/-- Page fault. -/
def AccessKind.pageFault : AccessKind → Nat
  | .fetch => 12 | .load => 13 | .store => 15
/-- Guest-page fault. -/
def AccessKind.guestFault : AccessKind → Nat
  | .fetch => 20 | .load => 21 | .store => 23
/-- Address misaligned. -/
def AccessKind.misaligned : AccessKind → Nat
  | .fetch => 0 | .load => 4 | .store => 6

/-- R269: the transformed instruction of a load, store or AMO; 0 for a fetch. -/
def transformed (k : AccessKind) (w : W32) (short : Bool) : W32 :=
  let op := w.toNat % 128
  let keep : Nat :=
    if k = .fetch then 0
    else if op = 0b0000011 ∨ op = 0b0000111 then 0x00007FFF
    else if op = 0b0100011 ∨ op = 0b0100111 then 0x01F0707F
    else 0xFFF07FFF
  (w &&& BitVec.ofNat 32 keep) &&& (if short then ~~~(2#32) else ~~~(0#32))

/-- Why a translation stops: a page fault of the first stage, a fault of the G-stage with the guest-physical address, or an access
fault with the physical address if the fence refused it; `implicit` where an access to a page table of the first stage made it. -/
inductive Stop where
  | page
  | guest (gpa : Nat) (implicit : Bool)
  | access (fenced : Option Nat)
  deriving DecidableEq, Repr

/-- What a page walk finds: the leaf's frame in 4 KiB, its level, and its flags. -/
structure Leaf where
  frame : Nat
  level : Nat
  flags : Nat
  deriving DecidableEq, Repr

/-- The walk of a table of 8-byte entries. Bits above the frame are reserved or PBMT and must be 0 (R267: Svnapot and Svpbmt are
absent). The first table of the G-stage is four times as long. -/
def walkTable (read : Nat → Except Stop Nat) (bad : Stop) (va : Nat) : Nat → Bool → Nat → Except Stop Leaf
  | 0, _, _ => .error bad
  | l + 1, wide, table =>
    match read (table + va / 2 ^ (12 + 9 * l) % (if wide then 2048 else 512) * 8) with
    | .error e => .error e
    | .ok pte =>
      let frame := pte / 1024 % 2 ^ 44
      if pte % 2 = 0 ∨ (pte / 2 % 2 = 0 ∧ pte / 4 % 2 = 1) ∨ pte / 2 ^ 54 ≠ 0 then .error bad
      else if pte / 2 % 8 = 0 ∨ (pte / 2 % 2 = 0 ∧ pte / 8 % 2 = 0) then walkTable read bad va l false (frame * 4096)
      else if frame % 2 ^ (9 * l) ≠ 0 then .error bad
      else .ok ⟨frame, l, pte % 256⟩

/-- The page of 4 KiB that a leaf gives an address. -/
def Leaf.page (f : Leaf) (va : Nat) : Nat := f.frame + va / 4096 % 2 ^ (9 * f.level)

/-- The permissions of a leaf. Its A bit must be set, for a store also its D bit (R267). A user page is for the user modes, and for
loads and stores of the supervisor where SUM allows it; MXR makes executable pages readable. -/
def leafOk (flags : Nat) (k : AccessKind) (user sum mxr : Bool) : Bool :=
  let has (b : Nat) : Bool := bit flags b == 1
  (match k with
    | .fetch => has 3 && has 4 == user
    | .load => (has 1 || (mxr && has 3)) && (has 4 == user || (has 4 && sum))
    | .store => has 2 && has 7 && (has 4 == user || (has 4 && sum))) && has 6

/-- The access of a translation to a table: the fence, the map and the PMP apply to its physical address (R271). -/
def State.tableWord (s : State) (n : Nat) (owner addr : Nat) : Except Stop Nat :=
  let inner := s.coreInner n
  if s.innerRegion addr && !inner then .error (.access (some addr))
  else if !(s.core n).pmpOk .hs .load addr 8 || !s.admitsTo inner owner addr || s.inCheckArea addr 8 || s.onDownChannel addr then
    .error (.access none)
  else .ok (s.word64 addr).toNat

/-- The number of levels that a mode field gives. -/
def levelsOf (reg : BitVec 64) : Nat := if reg.toNat / 2 ^ 60 = 9 then 4 else 3

/-- The root table of a translation register. -/
def rootOf (reg : BitVec 64) : Nat := reg.toNat % 2 ^ 44 * 4096

/-- A translation register translates. -/
def translates (reg : BitVec 64) : Bool := reg.toNat / 2 ^ 60 != 0

/-- The G-stage (R269): a guest-physical address of 41 or 50 bits; a result with bits above bit 47 is a guest-page fault. -/
def State.gStage (s : State) (n owner gpa : Nat) (k : AccessKind) (implicit : Bool) : Except Stop Leaf :=
  let x := s.core n
  let bad := Stop.guest gpa implicit
  if !translates x.hgatp then .ok ⟨gpa / 4096, 0, 255⟩
  else if gpa / 2 ^ (if levelsOf x.hgatp = 4 then 50 else 41) ≠ 0 then .error bad
  else
    match walkTable (s.tableWord n owner) bad gpa (levelsOf x.hgatp) true (rootOf x.hgatp) with
    | .error e => .error e
    | .ok f =>
      if leafOk f.flags k true false ((x.csr csrMstatus).getLsbD 19) && f.page gpa / 2 ^ 36 == 0 then .ok f else .error bad

/-- An access of the first stage to its tables: in a guest through the G-stage. -/
def State.firstWord (s : State) (n owner : Nat) (guest : Bool) (addr : Nat) : Except Stop Nat :=
  if guest then
    match s.gStage n owner addr .load true with
    | .error e => .error e
    | .ok f => s.tableWord n owner (f.page addr * 4096 + addr % 4096)
  else s.tableWord n owner addr

/-- The first stage: the upper bits of the address must repeat the highest translated bit. -/
def State.firstStage (s : State) (n owner : Nat) (guest : Bool) (va : Nat) : Except Stop Leaf :=
  let reg := if guest then (s.core n).vsatp else (s.core n).satp
  let w := 12 + 9 * levelsOf reg
  let high := va / 2 ^ (w - 1)
  if high ≠ 0 ∧ high ≠ 2 ^ (65 - w) - 1 then .error .page
  else walkTable (s.firstWord n owner guest) .page va (levelsOf reg) false (rootOf reg)

/-- Whether SUM and MXR let an access of a mode pass, from `mstatus`, or in a guest `vsstatus`. -/
def CoreState.statusBit (x : CoreState) (mode : CoreMode) (b : Nat) : Bool :=
  if guestMode mode then (x.csr csrVsstatus).getLsbD b || (b == 19 && (x.csr csrMstatus).getLsbD 19)
  else (x.csr csrMstatus).getLsbD b

/-- The ASID with which a core's access is tagged. -/
def CoreState.asidOf (x : CoreState) (mode : CoreMode) : Nat := (if guestMode mode then x.vsatp else x.satp).toNat / 2 ^ 44 % 2 ^ 16
/-- The VMID of `hgatp`. -/
def CoreState.vmid (x : CoreState) : Nat := x.hgatp.toNat / 2 ^ 44 % 2 ^ 14

/-- The VMID of an access, none outside a guest. -/
def CoreState.vmidOf (x : CoreState) (mode : CoreMode) : Option Nat := if guestMode mode then some x.vmid else none

/-- The translation that a core's TLB holds for an access: tagged with world, VMID and ASID (R269). -/
def State.coreTlb (s : State) (n : Nat) (mode : CoreMode) (va : Nat) : Option CoreTlb :=
  let x := s.core n
  x.tlb.find? (fun t => t.inner == s.coreInner n && t.vmid == x.vmidOf mode && t.page == va / 4096 &&
    (t.glob || t.asid == x.asidOf mode))

/-- Use a translation: the permissions of both stages. -/
def CoreState.useTlb (x : CoreState) (mode : CoreMode) (k : AccessKind) (va : Nat) (t : CoreTlb) : Except Stop CoreTlb :=
  if !leafOk t.flags k (userMode mode) (x.statusBit mode 18) (x.statusBit mode 19) then .error .page
  else if guestMode mode && !leafOk t.gflags k true false ((x.csr csrMstatus).getLsbD 19) then
    .error (.guest (t.gpage * 4096 + va % 4096) false)
  else .ok t

/-- Flags of a stage that does not translate. -/
def bareFlags (user : Bool) : Nat := 0b11001111 + (if user then 16 else 0)

/-- Both stages of an access, as a TLB entry. -/
def State.coreWalk (s : State) (n owner : Nat) (mode : CoreMode) (k : AccessKind) (va : Nat) : Except Stop CoreTlb :=
  let x := s.core n
  let guest := guestMode mode
  let reg := if guest then x.vsatp else x.satp
  let first : Except Stop Leaf :=
    if translates reg then s.firstStage n owner guest va else .ok ⟨va / 4096, 0, bareFlags (userMode mode)⟩
  match first with
  | .error e => .error e
  | .ok f =>
    let t : CoreTlb := ⟨s.coreInner n, x.vmidOf mode, x.asidOf mode, va / 4096, bit f.flags 5 == 1, f.page va, f.page va, f.flags, 255⟩
    match x.useTlb mode k va t with
    | .error e => .error e
    | .ok t =>
      if guest then
        match s.gStage n owner (t.gpage * 4096 + va % 4096) k false with
        | .error e => .error e
        | .ok g => .ok { t with ppage := g.page (t.gpage * 4096), gflags := g.flags }
      else .ok t

/-- The translation of an access. In M mode there is none, nor where no register translates. -/
def State.coreTranslate (s : State) (n owner : Nat) (mode : CoreMode) (k : AccessKind) (va : Nat) : Except Stop CoreTlb :=
  match s.coreTlb n mode va with
  | some t => (s.core n).useTlb mode k va t
  | none => s.coreWalk n owner mode k va

/-- The access is translated. -/
def CoreState.mapped (x : CoreState) (mode : CoreMode) : Bool :=
  match mode with
  | .m => false
  | .hs | .u => translates x.satp
  | .vs | .vu => translates x.vsatp || translates x.hgatp

/-- The exception of a stopped access. -/
def stopFault (k : AccessKind) (va : Nat) (insn : W32) (short : Bool) : Stop → CoreFault
  | .page => ⟨k.pageFault, BitVec.ofNat 64 va, 0, transformed k insn short⟩
  | .guest gpa implicit =>
    ⟨k.guestFault, BitVec.ofNat 64 va, BitVec.ofNat 64 (gpa / 4), if implicit then 0x3000#32 else transformed k insn short⟩
  | .access _ => ⟨k.accessFault, BitVec.ofNat 64 va, 0, transformed k insn short⟩

/-- What becomes of a core's access: the physical address with the TLB entry that a walk leaves, or an exception; with the physical
address of a table where the fence refused it. -/
def State.coreAddress (s : State) (n owner : Nat) (mode : CoreMode) (k : AccessKind) (insn : W32) (short : Bool) (va len : Nat) :
    Except (CoreFault × Option Nat) (Nat × Option CoreTlb) :=
  let x := s.core n
  let tinst := transformed k insn short
  if x.mapped mode then
    if 4096 < va % 4096 + len then .error (⟨k.misaligned, BitVec.ofNat 64 va, 0, tinst⟩, none)
    else
      match s.coreTranslate n owner mode k va with
      | .error e => .error (stopFault k va insn short e, match e with | .access a => a | _ => none)
      | .ok t =>
        let pa := t.ppage * 4096 + va % 4096
        if x.pmpOk mode k pa len then .ok (pa, some t) else .error (⟨k.accessFault, BitVec.ofNat 64 va, 0, tinst⟩, none)
  else if x.pmpOk mode k va len then .ok (va, none)
  else .error (⟨k.accessFault, BitVec.ofNat 64 va, 0, tinst⟩, none)

/-- A walk's entry stays in the TLB, in place of one with the same tags. -/
def State.coreTlbFill (s : State) (n : Nat) (t : CoreTlb) : State :=
  let x := s.core n
  s.setCore n { x with tlb := t :: x.tlb.filter (fun u =>
    !(u.inner == t.inner && u.vmid == t.vmid && u.asid == t.asid && u.page == t.page)) }

/-! ### Fences of translations (R269) -/

/-- SFENCE.VMA and HFENCE.VVMA: an entry of the VMID is invalidated unless an address or an ASID that the fence names is another; an
ASID leaves global entries. -/
def vmaHits (vmid : Option Nat) (addr id : Option (BitVec 64)) (t : CoreTlb) : Bool :=
  t.vmid == vmid && (match addr with | some a => t.page == a.toNat / 4096 | none => true) &&
    (match id with | some i => t.asid == i.toNat % 2 ^ 16 && !t.glob | none => true)

/-- HFENCE.GVMA: entries of guests, of a VMID and of a guest-physical address that stands shifted right by 2. -/
def gvmaHits (addr id : Option (BitVec 64)) (t : CoreTlb) : Bool :=
  (match t.vmid with
    | some v => (match id with | some i => v == i.toNat % 2 ^ 14 | none => true)
    | none => false) &&
    (match addr with | some a => t.gpage == a.toNat * 4 / 4096 | none => true)

/-- The exception of a fence in a mode that may not execute it. -/
def fenceTrap (mode : CoreMode) (k : CoreFence) : Option Nat :=
  match mode, k with
  | .u, _ => some 2
  | .vu, _ => some 22
  | .vs, .sfenceVma => none
  | .vs, _ => some 22
  | _, _ => none

/-- A fence of a core. A guest's SFENCE.VMA acts on the translations of its VMID. -/
def CoreState.fence (x : CoreState) (mode : CoreMode) (k : CoreFence) (addr id : Option (BitVec 64)) : CoreState :=
  let hit : CoreTlb → Bool := match k with
    | .sfenceVma => vmaHits (x.vmidOf mode) addr id
    | .hfenceVvma => vmaHits (some x.vmid) addr id
    | .hfenceGvma => gvmaHits addr id
  { x with tlb := x.tlb.filter (fun t => !hit t), pc := x.pc + 4 }

/-! ### The CSRs and fences as commands -/

/-- A core's command shows the mode that the core is in. -/
def State.inMode (s : State) (n : Nat) (mode : CoreMode) : State := s.setCore n { s.core n with mode := mode }

/-- MWORLD_WRITE: outside M mode an illegal-instruction exception; reserved bits stay 0. -/
def State.mworldWrite (s : State) (n : Nat) (mode : CoreMode) (v : BitVec 64) : State :=
  if s.coreRuns n then
    let s := (s.inMode n mode).warm n
    if mode = .m then
      (s.setCore n { s.core n with pworld := v.getLsbD 1, pc := (s.core n).pc + 4 }).setWorld n (v.getLsbD 0)
    else s.illegal n 0
  else s

/-- A write of a CSR of a core. -/
def State.csrPut (s : State) (n : Nat) (mode : CoreMode) (num : Nat) (v : BitVec 64) : State :=
  if s.coreRuns n then
    let s := (s.inMode n mode).warm n
    match csrReach mode num true with
    | .inr cause => s.coreTrap n (.plain cause 0)
    | .inl num =>
      if num = 0x7C0 then s.mworldWrite n mode v
      else
        let x := (s.core n).csrWrite num v
        s.setCore n { x with pc := x.pc + 4 }
  else s

/-- A read of a CSR of a core. -/
def State.csrGet (s : State) (n : Nat) (mode : CoreMode) (num : Nat) : State :=
  if s.coreRuns n then
    let s := (s.inMode n mode).warm n
    match csrReach mode num false with
    | .inr cause => s.coreTrap n (.plain cause 0)
    | .inl num =>
      let v := s.csrRead n num
      (s.setCore n { s.core n with pc := (s.core n).pc + 4 }).emit (.csr n num v)
  else s

/-- A fence of a core's translations. -/
def State.fencePut (s : State) (n : Nat) (mode : CoreMode) (k : CoreFence) (addr id : Option (BitVec 64)) : State :=
  if s.coreRuns n then
    let s := (s.inMode n mode).warm n
    match fenceTrap mode k with
    | some cause => s.coreTrap n (.plain cause 0)
    | none => s.setCore n ((s.core n).fence mode k addr id)
  else s

/-! ### The words that a core does not execute (R267, R273) -/

/-- R273: the custom-0 opcode. -/
def isCustom0 (w : W32) : Bool := w.toNat % 128 == 0b0001011

/-- R273: the word is WCALL: the service stands in bits [31:20], every other field is 0. -/
def isWcall (w : W32) : Bool := w.toNat % 2 ^ 20 == 0b0001011

/-- R267: an encoding of Zfh (a half-precision format, load or store), which is absent. -/
def isZfh (w : W32) : Bool :=
  let op := w.toNat % 128
  let f3 := w.toNat / 4096 % 8
  ((op == 0b0000111 || op == 0b0100111) && f3 == 1) ||
    (op == 0b1010011 && (w.toNat / 2 ^ 25 % 4 == 2 || (w.toNat / 2 ^ 27 == 0b01000 && w.toNat / 2 ^ 20 % 32 == 2))) ||
    ([0b1000011, 0b1000111, 0b1001011, 0b1001111].contains op && w.toNat / 2 ^ 25 % 4 == 2)

/-- R267: a Zicbop prefetch: an ORI with x0 as destination, which has no effect. -/
def isPrefetch (w : W32) : Bool :=
  w.toNat % 128 == 0b0010011 && w.toNat / 128 % 32 == 0 && w.toNat / 4096 % 8 == 6 && [0, 1, 3].contains (w.toNat / 2 ^ 20 % 32)

/-! ### Copies of lines (R281) -/

/-- The cores that hold a copy of the line of an address, as the directory tracks them. -/
def State.copiesOf (s : State) (addr : Nat) : List Nat := Tbl.get [] s.cpx.copies (addr / 64)

/-- Change the copies of a line. -/
def State.setCopies (s : State) (addr : Nat) (l : List Nat) : State :=
  { s with cpx := { s.cpx with copies := Tbl.set [] s.cpx.copies (addr / 64) l } }

/-- The lines of 64 bytes of a range. -/
def linesOf (addr len : Nat) : List Nat := (List.range ((addr % 64 + len + 63) / 64)).map (fun k => (addr / 64 + k) * 64)

/-- R281: an access passes the directory: a core's read adds a copy, its write leaves its own alone; a write of DMA (unit 16) or of
PCIe inbound traffic (unit 18) invalidates every core's. -/
def State.throughDirectory (s : State) (unit addr : Nat) (write : Bool) : State :=
  if unit < 8 then s.setCopies addr (if write then [unit] else NSet.insert (s.copiesOf addr) unit)
  else if write && (unit == 16 || unit == 18) then s.setCopies addr []
  else s

end Sys2Proof.Machine
end

