-- ==== Sys2Proof/Machine/TimeOps.lean ====
section
/-! DEFINITION. Show time (R79 to R91, R118, R397, R400): the reference grids, loads of ST, phase measurements, the discipline
loop and the states of TIME. -/

namespace Sys2Proof.Machine

/-- The states of TIME (R88). -/
def timeUnset : Nat := 0
/-- ACQUIRING. -/
def timeAcquiring : Nat := 1
/-- LOCKED. -/
def timeLocked : Nat := 2
/-- HOLDOVER. -/
def timeHoldover : Nat := 3
/-- FREE. -/
def timeFree : Nat := 4

/-- The sources (R83). -/
def srcFree : Nat := 0
/-- PTP_FAB. -/
def srcFab : Nat := 1
/-- PTP_ETH. -/
def srcEth : Nat := 2
/-- GENLOCK. -/
def srcGenlock : Nat := 3
/-- LTC. -/
def srcLtc : Nat := 4
/-- MAINS. -/
def srcMains : Nat := 5

/-- The state of TIME. -/
def State.timeState (s : State) : Nat := s.fget F.TIME_STATUS.state

/-- The effective source in force (R84). -/
def State.timeSource (s : State) : Nat := s.fget F.TIME_STATUS.source

/-- TIME runs and knows its source: main domain out of reset, Day, Dusk or Twilight, recipe admitted (R66). -/
def State.timeRuns (s : State) : Bool := s.dom.mainUp && decide (s.pwr.state ≤ 2) && s.admitted

/-- R83: the lock threshold of a source in ns. -/
def lockThreshold (src : Nat) : Nat :=
  if src = srcFab then 50 else if src = srcEth then 1000 else if src = srcGenlock then 20 else if src = srcLtc then 2000
  else 200000

/-! ### Reference grids (R85 to R87) -/

/-- A reference grid: point k lies at anchor + k × num / den ns. -/
structure Grid where
  anchor : ST
  num : Nat
  den : Nat
  deriving DecidableEq, Repr

/-- Division to the nearest whole number; exactly halfway takes the lower (R85, R87, R400). -/
def nearestLow (n : Int) (d : Nat) : Int := -((-(2 * n - d)) / (2 * (d : Int)))

/-- The grid point nearest an ST. -/
def Grid.nearest (g : Grid) (t : ST) : Int := nearestLow (stDiff t g.anchor * g.den) g.num

/-- The distance of an ST from point k, in 2^-32 ns. -/
def Grid.error32 (g : Grid) (t : ST) (k : Int) : Int :=
  stDiff t g.anchor * 2 ^ 32 - k * g.num * 2 ^ 32 / (g.den : Int)

/-- A distance in 2^-32 ns, rounded to whole ns. -/
def wholeNs (e : Int) : Int := roundDiv e (2 ^ 32)

/-- The frame grid of GENLOCK (R85). -/
def Recipe.genlockGrid (r : Recipe) : Grid :=
  ⟨BitVec.ofNat 64 r.timeAnchor, r.frameDen * 1000000000, max 1 r.frameNum⟩

/-- Frames per second in the numbering of an LTC rate, and the frame period as a fraction of ns (R86, R352). -/
def ltcFps (rate : Nat) : Nat := if rate = 0 then 24 else if rate = 1 then 25 else 30
/-- Numerator of the LTC frame period. -/
def ltcNum (rate : Nat) : Nat := if rate = 2 then 1001000000000 else 1000000000
/-- Denominator of the LTC frame period. -/
def ltcDen (rate : Nat) : Nat := if rate = 2 then 30000 else ltcFps rate
/-- Frames in 24 hours (R86): drop-frame numbering leaves out 2 numbers a minute but every tenth. -/
def ltcDayFrames (rate : Nat) : Nat := if rate = 2 then 2589408 else ltcFps rate * 86400

/-- The frame grid of LTC (R86). -/
def Recipe.ltcGrid (r : Recipe) : Grid := ⟨BitVec.ofNat 64 r.timeAnchor, ltcNum r.ltcRate, ltcDen r.ltcRate⟩

/-- The cycle grid of MAINS (R87). -/
def Recipe.mainsGrid (r : Recipe) : Grid := ⟨BitVec.ofNat 64 r.timeAnchor, 1000000000, max 1 r.mainsHz⟩

/-- The frame number of a timecode, from 00:00:00:00 (R86). -/
def ltcNumber (rate : Nat) (f : LtcFrame) : Nat :=
  let minutes := f.hours * 60 + f.minutes
  let n := (minutes * 60 + f.seconds) * ltcFps rate + f.frames
  if rate = 2 then n - 2 * (minutes - minutes / 10) else n

/-- Two decimal digits as BCD. -/
def bcd (n : Nat) : Nat := n / 10 * 16 + n % 10

/-- A timecode word (TIME_LTC_TC). -/
def ltcWord (f : LtcFrame) : W32 :=
  BitVec.ofNat 32 (bcd f.frames % 64 + f.drop.toNat * 64 + bcd f.seconds % 128 * 256 + bcd f.minutes % 128 * 65536
    + bcd f.hours % 64 * 16777216)

/-! ### Loads of ST (R82) -/

/-- The start of the first launch window at or after an ST (R118, log entry 33). -/
def nextWindow (t : ST) : ST := BitVec.ofNat 64 (ceilDiv t.toNat 1000 * 1000)

/-- R118: a cue whose point a forward step passed over is due at the first window after the load. -/
def CueSlot.stepped (old new : ST) (c : CueSlot) : CueSlot :=
  let point := if c.staged then c.due else c.entry.key
  if (c.staged || !c.entry.axisKeyed) && !earlier point old && earlier point new then
    { c with
      staged := true, due := nextWindow new, key := if c.staged then c.key else c.entry.key, deferred := false, late := true }
  else c

/-- R92: the stamps of an axis move by the size of a step, and the next read starts at the first multiple of the period at or after
the new ST. -/
def AxisState.stepped (new : ST) (d : Int) (x : AxisState) : AxisState :=
  { x with
    lastInstant := new - 1
    window := x.window.map (fun e => (stAdd e.1 d, e.2))
    deadline := stAdd x.deadline d
    reading := x.reading.map (fun t => stAdd t d) }

/-- R82: ST is loaded in one step. The island time copy follows (R14); axes, cues, outputs, DMA timers, audio ports and the
bandwidth window take the step as their chapters say (R92, R118, R212, R310, R363, R385). -/
def State.loadSt (s : State) (v : ST) : State :=
  let old := s.gridTime
  let forward := s.stValid && earlier old v
  let s := { s with
    tim := { s.tim with st := v, islandCopy := v, frac := 0 }
    axes := s.axes.map (fun (e : Nat × AxisState) => (e.1, e.2.stepped v (stDiff v old)))
    genlock := s.genlock.map (fun (e : Nat × GenlockIn) => (e.1, { e.2 with lastV := e.2.lastV.map (fun t => stAdd t (stDiff v old)) }))
    cue := { s.cue with
      slots := if forward then s.cue.slots.map (fun (e : Nat × CueSlot) => (e.1, e.2.stepped old v)) else s.cue.slots
      winStart := 0, winCount := 0 }
    dma := { s.dma with timerFrom := (List.range 64).map (fun k => (k, some (v + 1))) } }
  let s := ((s.fset F.TIME_STATUS.valid 1).outsAlign).audStep old v
  let s := onlyIf (s.flag F.BW_CTRL.enable) (fun s => s.bwClose true) s
  s.raise 22

/-- R82, R101: the first load after an island reset. -/
def State.firstLoad (s : State) (v : ST) : State := (s.raise 16).loadSt v

/-! ### States (R88) -/

/-- Enter a state of TIME other than HOLDOVER. -/
def State.enterTime (s : State) (st : Nat) : State := s.fset F.TIME_STATUS.state st

/-- The rate adjustment in force, as TIME_FREQ_ADJ shows it. -/
def State.setAdjust (s : State) (a : Int) : State :=
  { s with tim := { s.tim with adjust := a } }.put .TIME_FREQ_ADJ (BitVec.ofInt 32 a)

/-- The slew limit in ppb (R89). -/
def State.slewPpb (s : State) : Int := (s.recipe.slewPpm : Int) * 1000

/-- A rate held within the slew limit. -/
def limited (limit a : Int) : Int := max (-limit) (min limit a)

/-- R88, R90: HOLDOVER keeps the last frequency estimate, which is a free value of the loop. -/
def State.toHoldover (s : State) : State :=
  let s' := s.fset F.TIME_STATUS.state timeHoldover
  let s' := (s'.bumpSat F.TIME_STATUS.holdover_count).fset F.TIME_STATUS.slewing 0
  let s' := s'.setAdjust (limited s.slewPpb (Config.holdEstimate s.draws))
  let s' := { s' with tim := { s'.tim with holdSince := s.gridTime, goodCount := 0 } }
  s'.drawn.raise 18

/-- R83: the loss of the source: HOLDOVER from ACQUIRING and LOCKED; in HOLDOVER the count of measurements starts again. -/
def State.sourceLost (s : State) : State :=
  let s := { s with tim := { s.tim with genLine := none, hOff := 0, goodCount := 0 } }
  if s.timeState = timeAcquiring ∨ s.timeState = timeLocked then s.toHoldover else s

/-- R77, R83: the source is lost, and whether its edges or messages still arrive is shown. -/
def State.sourceStopped (s : State) (edges : Bool) : State := s.sourceLost.fflag F.TIME_STATUS.clk_present edges

/-- R84, R88: the effective source or the time master changes: HOLDOVER with ST kept, and FREE at once when the source in
force is FREE. -/
def State.sourceChange (s : State) (src : Nat) : State :=
  let s := s.fset F.TIME_STATUS.source src
  let s := { s with tim := { s.tim with genLine := none, hOff := 0, goodCount := 0, resetPending := false } }
  if s.timeState = timeUnset then
    if src = srcFree then (s.firstLoad s.tim.islandCopy).enterTime timeFree else s
  else
    let s := if s.timeState = timeHoldover then s else s.toHoldover
    if src = srcFree then (s.setAdjust 0).enterTime timeFree
    else { s with tim := { s.tim with changePending := true } }

/-! ### Phase measurements (R83, R89, R400) -/

/-- R89: one run of the discipline loop. Its law is open, so the adjustment is a free value within the slew limit. -/
def State.discipline (s : State) (err : Int) : State :=
  let a := limited s.slewPpb (Config.loopAdjust s.draws err)
  let now := decide (a.natAbs = s.slewPpb.natAbs)
  let was := s.flag F.TIME_STATUS.slewing
  let s := ((s.setAdjust a).fflag F.TIME_STATUS.slewing now).drawn
  if now && !was then s.raise 19 else s

/-- TIME_PHASE_ERR (R83): ST minus source, saturating. -/
def State.setPhase (s : State) (err : Int) : State := s.put .TIME_PHASE_ERR (BitVec.ofInt 32 (saturate 32 err))

/-- The phase error last measured. -/
def State.phase (s : State) : Int := (s.get .TIME_PHASE_ERR).toInt

/-- R82, R84: the value that the source gives takes effect, by a step when it lies more than 1,000,000 ns away. -/
def State.takeUp (s : State) (err : Int) : State :=
  if 1000000 < err.natAbs then (s.loadSt (stAdd s.tim.st (-err))).setPhase 0 else s.setPhase err

/-- A measurement in HOLDOVER: the first after a change of source settles the change and raises EV_TIME_SOURCE_CHANGE (R84), the
first after a main-domain reset settles what it left (R82, R400); the third leads to ACQUIRING. -/
def State.measureHoldover (s : State) (err : Int) : State :=
  let n := s.tim.goodCount + 1
  let s := { s with tim := { s.tim with goodCount := n } }
  let change := s.tim.changePending
  let s :=
    if change || s.tim.resetPending then
      onlyIf change (fun s => s.raise 21)
        ({ s with tim := { s.tim with changePending := false, resetPending := false } }.takeUp err)
    else s.setPhase err
  if 3 ≤ n then s.enterTime timeAcquiring else s

/-- R83, R88: one phase measurement with error err: the first load in UNSET, a count in HOLDOVER, the loop otherwise. -/
def State.measure (s : State) (err : Int) : State :=
  let s := s.fset F.TIME_STATUS.clk_present 1
  if s.timeState = timeUnset then ((s.firstLoad (stAdd s.tim.islandCopy (-err))).setPhase 0).enterTime timeAcquiring
  else if s.timeState = timeHoldover then s.measureHoldover err
  else if s.timeState = timeFree then s
  else (s.setPhase err).discipline err

/-- The ST of a reference event: measured at the pin, less the delay to it (R83); the island time copy before the first
load. -/
def State.eventSt (s : State) : ST := stAdd s.gridTime (-s.recipe.inputDelay)

/-- The grid point that a reference event at t stands for: in ACQUIRING and LOCKED the one nearest the error followed so far
(so that the count of events goes on), else the nearest (R85, R87, R400). -/
def State.gridPoint (s : State) (g : Grid) (t : ST) : Int :=
  if s.timeState = timeAcquiring ∨ s.timeState = timeLocked then g.nearest (stAdd t (-s.phase)) else g.nearest t

/-- A measurement against a grid point. -/
def State.measureGrid (s : State) (g : Grid) (t : ST) (k : Int) : State :=
  { s with tim := { s.tim with genFrame := k } }.measure (wholeNs (g.error32 t k))

end Sys2Proof.Machine
end

