-- ==== Sys2Proof/Machine/FabFrame.lean ====
section
/-! DEFINITION. Weahar frames (06_fabric.md): ports, the bytes of a frame on the wire, its sending under the keys of the link,
and the checks on a frame received. -/

namespace Sys2Proof.Machine

/-! ### Ports (R120, R131) -/

/-- The states of a port (FAB_PORT_STATUS.state): DISABLED is 0. -/
def portDown : Nat := 1
/-- VERIFY. -/
def portVerify : Nat := 2
/-- HELLO. -/
def portHello : Nat := 3
/-- AUTH. -/
def portAuth : Nat := 4
/-- UP. -/
def portUp : Nat := 5
/-- BLOCKED. -/
def portBlocked : Nat := 6
/-- REKEY_STALL. -/
def portStall : Nat := 7
/-- REFUSED. -/
def portRefused : Nat := 8

/-- The state of a port. -/
def State.portState (s : State) (p : Nat) : Nat := s.fget F.FAB_PORT_STATUS.state p

/-- Enter a port state. -/
def State.setPort (s : State) (p st : Nat) : State := s.fset F.FAB_PORT_STATUS.state st p

/-- The hidden part of a port. -/
def State.fport (s : State) (p : Nat) : PortState := Tbl.get PortState.initial s.fab.ports p

/-- Change the hidden part of a port. -/
def State.updPort (s : State) (p : Nat) (f : PortState → PortState) : State :=
  { s with fab := { s.fab with ports := Tbl.upd PortState.initial s.fab.ports p f } }

/-- FAB runs: Day, Dusk or Twilight (R66), recipe admitted, own certificate found (R123). -/
def State.fabRuns (s : State) : Bool := s.timeRuns && s.fab.enabled

/-- Cue and bulk traffic runs: the one link of Twilight is idle (R66, log entry 96). -/
def State.fabCarries (s : State) : Bool := s.fabRuns && s.awake

/-- A port that the recipe and FAB_CTRL enable (R120, R131). -/
def State.portEnabled (s : State) (p : Nat) : Bool := s.recipe.portRate p != 0 && s.hasBit .FAB_CTRL p

/-- The link of a port is UP or BLOCKED. -/
def State.linked (s : State) (p : Nat) : Bool := s.portState p == portUp || s.portState p == portBlocked

/-- The ports whose link is UP and not blocked. -/
def State.openPorts (s : State) : List Nat := (List.range 8).filter (fun p => s.portState p == portUp)

/-- Joined to another star (R84). -/
def State.joined (s : State) : Bool := (List.range 8).any s.linked

/-- The own star number holds. -/
def State.numbered (s : State) : Bool := s.flag F.FAB_STATUS.numbered
/-- The own star number; 0xFFF while none is held. -/
def State.star (s : State) : BitVec 12 := BitVec.ofNat 12 (s.fget F.FAB_STATUS.star)
/-- Security mode 1 is in force. -/
def State.secure (s : State) : Bool := s.flag F.FAB_STATUS.secure

/-- The number of the star at the other end of a port, as its HELLO gave it. -/
def State.peerStar (s : State) (p : Nat) : BitVec 12 := BitVec.ofNat 12 (s.fget F.FAB_PORT_STATUS.peer_star p)

/-- The line rate of a rate code in Gb/s (R120). -/
def rateGbps (code : Nat) : Nat := if code = 1 then 1 else if code = 2 then 10 else 25

/-! ### Classes, types and payloads (R125, R127, R130, R137) -/

/-- The traffic class (R125): 0 time, 1 express, 2 cue, 3 bulk, 4 link control. -/
def Frame.cls : Frame → Nat
  | .pdelayReq | .pdelayResp | .sync _ | .announce .. => 0
  | .indication .. | .heartbeat | .ringFault _ | .ringHealed .. => 1
  | .data _ | .reply _ => 2
  | .bulk .. => 3
  | .hello .. | .key .. | .finish _ | .linkAck _ | .enum _ | .topo _ | .rekey => 4

/-- The type within the class (R125). -/
def Frame.type : Frame → Nat
  | .pdelayReq | .pdelayResp | .sync _ | .announce .. => 0
  | .indication .. => 1
  | .heartbeat => 2
  | .ringFault _ => 3
  | .ringHealed .. => 4
  | .data _ => 1
  | .reply _ => 2
  | .bulk .. => 1
  | .hello .. => 1
  | .key .. => 2
  | .finish _ => 3
  | .linkAck _ => 4
  | .enum _ => 5
  | .topo _ => 6
  | .rekey => 7

/-- The subtype field: version 2, class, type (R125). -/
def Frame.subtype (f : Frame) : Nat := 2 * 4096 + f.cls * 256 + f.type

/-- R127: time and express frames take the express MAC. -/
def Frame.express (f : Frame) : Bool := decide (f.cls ≤ 1)

/-- R127: the priority on the preemptable MAC: link control 2, cue 1, bulk 0. -/
def Frame.priority (f : Frame) : Nat := if f.cls = 4 then 2 else if f.cls = 2 then 1 else 0

/-- Cue and bulk frames are acknowledged on the link (R127, R135). -/
def Frame.acknowledged (f : Frame) : Bool := f.cls == 2 || f.cls == 3

/-- The 64 bytes of a DATA payload (R137), most significant byte first (R5). -/
def dataPayload (m : DataMsg) : List Byte :=
  beBytes 4 m.seq.toNat ++ beBytes 2 m.epoch.toNat ++ beBytes 1 m.isOpen.toNat
    ++ beBytes 1 (match m.kind with | .deliver => 0 | .arm => 1) ++ beBytes 8 m.voidAfter.toNat ++ beBytes 1 m.appPort.val
    ++ List.replicate 7 0 ++ fitBytes 40 m.bytes

/-- The 16 bytes of a REPLY payload (R137). -/
def replyPayload (m : ReplyMsg) : List Byte :=
  beBytes 4 m.seq.toNat ++ beBytes 2 m.epoch.toNat ++ beBytes 1 m.outcome ++ beBytes 1 m.detail ++ beBytes 8 m.result.toNat

/-- The payload of a frame: R130 and R137 lay out INDICATION, DATA and REPLY; a bulk payload is its bytes; every other layout is
open, within the sizes of R127 (log entry 97). -/
def Frame.payload (f : Frame) : List Byte :=
  let other (v : List Nat) : List Byte := Config.framePayload f.subtype v
  match f with
  | .indication i c t b => beBytes 2 i.toNat ++ beBytes 4 c.toNat ++ beBytes 8 t.toNat ++ fitBytes 62 b
  | .data m => dataPayload m
  | .reply m => replyPayload m
  | .bulk _ b => b.take 1466
  | .heartbeat => fitBytes 12 (other [])
  | .hello v m r n u => (other [v, m.toNat, r, n.toNat, u.toNat]).take 1466
  | .key c n e g => (other [c, n.toNat, e.toNat, g.toNat]).take 1466
  | .finish h => (other [h.toNat]).take 1466
  | .linkAck c => (other [c]).take 1466
  | .rekey => (other []).take 1466
  | .enum n => (other [n.toNat]).take 1466
  | .topo l => (other (l.flatMap (fun x => [x.port.val, x.neighbour.toNat]))).take 1466
  | .ringFault b => (other [b.toNat]).take 1466
  | .ringHealed a b => (other [a.toNat, b.toNat]).take 1466
  | .pdelayReq => (other [0]).take 58
  | .pdelayResp => (other [1]).take 58
  | .sync t => (other [2, t.toNat]).take 58
  | .announce p n h => (other [3, p, n.toNat, h]).take 58

/-! ### Frames sent (R124 to R126, R135) -/

/-- A frame for the neighbour only; no rule gives its dst (log entry 98). -/
def State.toNeighbour (s : State) (f : Frame) : FabPacket := ⟨Config.linkDst f.subtype, false, s.star, !s.numbered, 0, f⟩

/-- A frame of this star for every star (log entry 98). -/
def State.toAll (s : State) (f : Frame) : FabPacket := ⟨0xFFF#12, true, s.star, !s.numbered, 0, f⟩

/-- A frame of this star for one star. -/
def State.toStar (s : State) (d : BitVec 12) (f : Frame) : FabPacket := ⟨d, false, s.star, !s.numbered, 0, f⟩

/-- The Weahar header (R126): 16 bytes, with the payload length n. -/
def FabPacket.header (k : FabPacket) (phase : Bool) (ctr n : Nat) : List Byte :=
  beBytes 2 (k.dst.toNat + 4096 * k.broadcast.toNat) ++ beBytes 2 (k.src.toNat + 4096 * k.unnumbered.toNat)
    ++ beBytes 1 k.hops ++ beBytes 1 phase.toNat ++ beBytes 2 n ++ beBytes 8 ctr

/-- R126: the additional authenticated data, subtype and header. -/
def FabPacket.aad (k : FabPacket) (phase : Bool) (ctr : Nat) : List Byte :=
  beBytes 2 k.body.subtype ++ k.header phase ctr k.body.payload.length

/-- R126: the IV of a counter. -/
def LinkKey.iv (k : LinkKey) (ctr : Nat) : List Byte := k.salt ++ beBytes 8 ctr

/-- The tag that a key gives a frame. -/
def LinkKey.tag (x : LinkKey) (k : FabPacket) (phase : Bool) (ctr : Nat) : BitVec 128 :=
  Config.gcmTag x.key (x.iv ctr) (k.aad phase ctr) k.body.payload

/-- R124: the source MAC of a port. -/
def State.sourceMac (s : State) (p : Nat) : List Byte :=
  [0x02#8, 0x44#8, 0x56#8, if s.numbered then 0x00#8 else 0x01#8] ++ beBytes 2 (s.star.toNat * 16 + p)

/-- R124: the bytes of a frame on a port, from its destination MAC to the FCS (log entry 99). -/
def State.wire (s : State) (p : Nat) (k : FabPacket) (phase : Bool) (ctr : Nat) (payload : List Byte) (tag : BitVec 128) :
    List Byte :=
  let b := [0x01#8, 0x80#8, 0xC2#8, 0x00#8, 0x00#8, 0x0E#8] ++ s.sourceMac p ++ [0x88#8, 0xB5#8] ++ k.aad phase ctr ++ payload
    ++ beBytes 16 tag.toNat
  b ++ leBytes 4 (crc32 b)

/-- The bytes of a protected frame: under the key of the direction in mode 1; plain with a zero tag in mode 0 (R126, R134). -/
def State.protectedBytes (s : State) (p : Nat) (k : FabPacket) (ctr : Nat) : List Byte :=
  let x := s.fport p
  if s.secure then
    s.wire p k x.phaseTx ctr (Config.gcmCipher x.txKey.key (x.txKey.iv ctr) (k.aad x.phaseTx ctr) k.body.payload)
      (x.txKey.tag k x.phaseTx ctr)
  else s.wire p k x.phaseTx ctr k.body.payload 0

/-- The transmit counter of a port. -/
def State.txCtr (s : State) (p : Nat) : Nat := (s.get64 .FAB_PORT_TXCTR_LO .FAB_PORT_TXCTR_HI p).toNat

/-- The next transmit counter is taken. -/
def State.nextCtr (s : State) (p : Nat) : State :=
  s.put64 .FAB_PORT_TXCTR_LO .FAB_PORT_TXCTR_HI (BitVec.ofNat 64 (s.txCtr p + 1)) p

/-- Put frame bytes on a port. -/
def State.transmit (s : State) (p : Nat) (f : Frame) (bytes : List Byte) : State :=
  s.emit (.frame p f.express f.priority f bytes)

/-- HELLO and KEY of a bring-up: counter 0, a zero tag, no protection (R126). -/
def State.sendPlain (s : State) (p : Nat) (f : Frame) : State :=
  s.transmit p f (s.wire p (s.toNeighbour f) false 0 f.payload 0)

/-- Send a frame: the counter of the direction advances, and a cue or bulk frame stays outstanding until its LINK_ACK (R126,
R135). -/
def State.sendPacket (s : State) (p : Nat) (k : FabPacket) : State :=
  let c := s.txCtr p + 1
  let s := s.nextCtr p
  let b := s.protectedBytes p k c
  let s := onlyIf k.body.acknowledged (fun s => s.updPort p (fun x => { x with outstanding := x.outstanding ++ [⟨c, 1, k, b⟩] })) s
  s.transmit p k.body b

/-- Send a frame of this star to the neighbour. -/
def State.sendLink (s : State) (p : Nat) (f : Frame) : State := s.sendPacket p (s.toNeighbour f)

/-- Pass a frame on: `hops` counts up, and a frame that would leave with more than 32 is discarded (R126). -/
def State.forwardPacket (s : State) (p : Nat) (k : FabPacket) : State :=
  if 32 < k.hops + 1 then s.raise 83 else s.sendPacket p { k with hops := k.hops + 1 }

/-- R128: a frame already leaving when its tag fails leaves with an all-ones tag. -/
def State.forwardSpoilt (s : State) (p : Nat) (k : FabPacket) : State :=
  if 32 < k.hops + 1 then s.raise 83
  else
    let k := { k with hops := k.hops + 1 }
    let c := s.txCtr p + 1
    let s := s.nextCtr p
    let x := s.fport p
    s.transmit p k.body
      (s.wire p k x.phaseTx c (Config.gcmCipher x.txKey.key (x.txKey.iv c) (k.aad x.phaseTx c) k.body.payload) (BitVec.allOnes 128))

/-- Send a frame of this star on every unblocked port. -/
def State.flood (s : State) (f : Frame) : State := forEach s.openPorts (fun p s => s.sendPacket p (s.toAll f)) s

/-- The ports by which a frame that arrived on p goes on to all: a blocked port forwards nothing (R144). -/
def State.onwardPorts (s : State) (p : Nat) : List Nat :=
  if s.portState p = portUp then s.openPorts.filter (· != p) else []

/-- Pass a frame on to every unblocked port but that of its arrival. -/
def State.floodOn (s : State) (p : Nat) (k : FabPacket) : State :=
  forEach (s.onwardPorts p) (fun q s => s.forwardPacket q k) s

/-! ### Frames received (R126, R128, R133, R134, R136) -/

/-- An `auth_fail` increment (R148). -/
def State.authFail (s : State) (p : Nat) : State := (s.bump F.FAB_PORT_AUTH_FAIL.count p).raise 80

/-- The packet that a received header and body stand for. -/
def packetOf (h : FabHdr) (f : Frame) : FabPacket := ⟨h.dst, h.broadcast, h.src, h.unnumbered, h.hops, f⟩

/-- A frame of the new phase is the first one (R133). -/
def PortState.turns (x : PortState) (ph : Bool) : Bool := ph != x.phaseRx && x.newRxKey.isSome

/-- The key of the direction for a phase, where the port accepts it (R133): its own phase, the new one once keys are derived, or
the old one for 1 ms. -/
def PortState.keyOf (x : PortState) (ph : Bool) : Option LinkKey :=
  if ph = x.phaseRx then some x.rxKey else if x.newRxKey.isSome then x.newRxKey else x.oldRxKey

/-- The window that a frame meets: a fresh one for the first frame of a new phase. -/
def PortState.windowOf (x : PortState) (ph : Bool) : RxWindow :=
  if ph = x.phaseRx then x.window else if x.newRxKey.isSome then RxWindow.initial else x.oldWindow

/-- R136: the counter was accepted already or lies below the window of 256. -/
def RxWindow.replayed (w : RxWindow) (ctr : Nat) : Bool := w.seen.contains ctr || decide (ctr + 256 ≤ w.high)

/-- R136: the window after a counter is accepted. -/
def RxWindow.accept (w : RxWindow) (ctr : Nat) : RxWindow :=
  let high := max w.high ctr
  ⟨high, ctr :: w.seen.filter (fun c => decide (high < c + 256))⟩

/-- A port after an accepted frame: the first frame of a new phase turns its keys and starts a new window (R133). -/
def PortState.received (x : PortState) (ph : Bool) (ctr : Nat) : PortState :=
  if ph = x.phaseRx then { x with window := x.window.accept ctr }
  else
    match x.newRxKey with
    | some k =>
      { x with
        phaseRx := ph, rxKey := k, newRxKey := none, oldRxKey := some x.rxKey, oldWindow := x.window
        window := RxWindow.initial.accept ctr }
    | none => { x with oldWindow := x.oldWindow.accept ctr }

/-- The outcomes of the checks on a received frame. -/
inductive RxVerdict where
  | accepted | replay | badTag | noLink
  deriving DecidableEq, Repr

/-- R126: the tag verifies under the key of the phase; R134: a zero tag is not checked in mode 0. An all-ones tag never passes
(R128). -/
def State.tagOk (s : State) (p : Nat) (h : FabHdr) (f : Frame) : Bool :=
  !s.secure ||
    (h.tag != BitVec.allOnes 128 &&
      (match (s.fport p).keyOf h.keyPhase with
      | some k => k.tag (packetOf h f) h.keyPhase h.ctr == h.tag
      | none => false))

/-- The checks on a protected frame at a port that can receive it: its tag verifies, and it is no replay. -/
def State.frameCheck (s : State) (p : Nat) (h : FabHdr) (f : Frame) : RxVerdict :=
  if !s.tagOk p h f then .badTag
  else if ((s.fport p).windowOf h.keyPhase).replayed h.ctr then .replay
  else .accepted

/-- The checks on a protected frame at a port. -/
def State.rxVerdict (s : State) (p : Nat) (h : FabHdr) (f : Frame) : RxVerdict :=
  if s.fabRuns && s.linked p then s.frameCheck p h f else .noLink

/-- The port records an accepted frame. -/
def State.recordRx (s : State) (p : Nat) (h : FabHdr) : State := s.updPort p (fun x => x.received h.keyPhase h.ctr)

/-- A protected frame that no acknowledgement answers: what the checks leave of it. -/
def State.receive (s : State) (p : Nat) (h : FabHdr) (f : Frame) (g : State → State) : State :=
  match s.rxVerdict p h f with
  | .accepted => g (s.recordRx p h)
  | .badTag => s.authFail p
  | _ => s

/-- A cue or bulk frame: acknowledged on the link when accepted, and again when it is a resent frame (R135, R136). -/
def State.receiveAcked (s : State) (p : Nat) (h : FabHdr) (f : Frame) (g : State → State) : State :=
  if s.fabCarries then
    match s.rxVerdict p h f with
    | .accepted => g ((s.recordRx p h).sendLink p (.linkAck h.ctr))
    | .replay => if h.resent then s.sendLink p (.linkAck h.ctr) else s
    | .badTag => s.authFail p
    | .noLink => s
  else s

/-- R128: an outgoing port takes an express frame by cut-through when its rate is at least that of the incoming one. -/
def State.cutsThrough (s : State) (p q : Nat) : Bool :=
  decide (rateGbps (s.recipe.portRate p) ≤ rateGbps (s.recipe.portRate q))

/-- An express frame that is passed on (R128): when its tag fails, the ports that it is already leaving by send it on with an
all-ones tag. `ways` are the ports by which it goes on. -/
def State.receiveExpress (s : State) (p : Nat) (h : FabHdr) (f : Frame) (ways : List Nat) (g : State → State) : State :=
  match s.rxVerdict p h f with
  | .accepted => g (s.recordRx p h)
  | .badTag => (forEach (ways.filter (s.cutsThrough p)) (fun q s => s.forwardSpoilt q (packetOf h f)) s).authFail p
  | _ => s

end Sys2Proof.Machine
end

