-- ==== Sys2Proof/Machine/FabOps.lean ====
section
/-! DEFINITION. Weahar links (06_fabric.md): routes, rings, the master election, enumeration, links coming up and going down, and
the sending of message slots. -/

namespace Sys2Proof.Machine

/-! ### Routes (R145) -/

/-- The neighbours of a star as its TOPO gave them. -/
def FabState.neighbours (x : FabState) (a : BitVec 12) : List (BitVec 12) :=
  ((x.topology.filter (fun e => e.1 == a)).flatMap (fun e => e.2)).map (·.neighbour)

/-- The number of hops from a set of stars to a star, not through `own`. -/
def FabState.hopsFrom (x : FabState) (own dst : BitVec 12) : List (BitVec 12) → List (BitVec 12) → Nat → Option Nat
  | _, _, 0 => none
  | frontier, seen, n + 1 =>
    if frontier.contains dst then some 0
    else
      let next := ((frontier.flatMap x.neighbours).filter (fun a => a != own && !seen.contains a && !frontier.contains a)).dedup
      if next.isEmpty then none else (x.hopsFrom own dst next (frontier ++ seen) n).map (· + 1)

/-- The hops to a star through a port whose neighbour is known. -/
def State.hopsVia (s : State) (p : Nat) (dst : BitVec 12) : Option Nat :=
  ((s.fport p).neighbour).bind (fun n => (s.fab.hopsFrom s.star dst [n] [] 32).map (· + 1))

/-- Of the ports that a measure reaches, the one with the fewest hops, then the lowest. -/
def leastHops (ports : List Nat) (hops : Nat → Option Nat) : Option (Nat × Nat) :=
  ports.foldl (fun best p =>
    match hops p, best with
    | none, b => b
    | some n, none => some (p, n)
    | some n, some b => if n < b.2 then some (p, n) else some b) none

/-- The port and hops of the route by which frames are forwarded to a star: unblocked ports only (R144). -/
def State.route (s : State) (dst : BitVec 12) : Option (Nat × Nat) := leastHops s.openPorts (fun p => s.hopsVia p dst)

/-- The route of this star's own traffic, which a blocked port carries to its neighbour too (R144, log entry 100). -/
def State.ownRoute (s : State) (dst : BitVec 12) : Option (Nat × Nat) :=
  leastHops ((List.range 8).filter s.linked) (fun p =>
    if s.portState p = portUp then s.hopsVia p dst else if (s.fport p).neighbour = some dst then some 1 else none)

/-- The links that this star's TOPO names. -/
def State.ownLinks (s : State) : List TopoLink :=
  (List.range 8).filterMap (fun p =>
    if h : p < 8 then if s.linked p then ((s.fport p).neighbour).map (fun n => ⟨⟨p, h⟩, n⟩) else none else none)

/-- R145: this star floods its TOPO while it holds a number, and remembers what it said. -/
def State.floodTopo (s : State) : State :=
  if s.numbered then
    let l := s.ownLinks
    { s with fab := { s.fab with ownTopo := s.fab.ownTopo.filter (· != l) ++ [l] } }.flood (.topo l)
  else s

/-- TOPO again when the own links are not those last told (log entry 104). -/
def State.retellTopo (s : State) : State := if s.fab.ownTopo.getLast? = some s.ownLinks then s else s.floodTopo

/-! ### Rings (R144) -/

/-- The ports of a ring, in order. -/
def Recipe.ringPorts (r : Recipe) (g : Nat) : List Nat := (List.range 8).filter (fun p => r.portRing p == g)

/-- The other port of the ring of a port. -/
def Recipe.ringMate (r : Recipe) (p : Nat) : Option Nat :=
  if r.portRing p = 255 then none else (r.ringPorts (r.portRing p)).find? (· != p)

/-- The time port. -/
def State.timePortOf (s : State) : Option Nat := (List.range 8).find? (fun p => s.flag F.FAB_PORT_STATUS.time_port p)

/-- This star is time master. -/
def State.isMaster (s : State) : Bool := s.flag F.FAB_STATUS.master

/-- The master that this star knows. -/
def State.masterStar (s : State) : BitVec 12 := BitVec.ofNat 12 (s.fget F.FAB_STATUS.master_star)

/-- R144: the ring manager is the master, or the star whose time port lies outside the ring. -/
def State.ringManager (s : State) (g : Nat) : Bool :=
  !(s.recipe.ringPorts g).isEmpty &&
    (s.isMaster ||
      (match s.timePortOf with
      | some p => s.recipe.portRing p != g
      | none => false))

/-- The ring is whole as far as TOPO tells: the neighbours of its two ports reach each other past this star. -/
def State.ringClosed (s : State) (g : Nat) : Bool :=
  match s.recipe.ringPorts g with
  | [p, q] =>
    s.linked p && s.linked q &&
      (match (s.fport p).neighbour, (s.fport q).neighbour with
      | some a, some b => (s.fab.hopsFrom s.star b [a] [] 32).isSome
      | _, _ => false)
  | _ => false

/-- R144: the port that a manager blocks: the higher-numbered ring port, unless a heal opened the ring. -/
def State.blocks (s : State) (p : Nat) : Bool :=
  let g := s.recipe.portRing p
  g != 255 && s.ringManager g && (s.recipe.ringPorts g).getLast? == some p && decide (2 ≤ (s.recipe.ringPorts g).length)
    && !s.fab.openRings.contains g

/-- R144: every link that is UP or BLOCKED is blocked or not as the rule says. A ring that a heal opened and that is whole again
is blocked anew (log entry 101). -/
def State.refreshBlocks (s : State) : State :=
  let s := { s with fab := { s.fab with openRings := s.fab.openRings.filter (fun g => !s.ringClosed g) } }
  forEach ((List.range 8).filter s.linked) (fun p s => s.setPort p (if s.blocks p then portBlocked else portUp)) s

/-! ### The master (R80, R84, R143) -/

/-- R143: candidate (priority a, star b) is better than (c, d). -/
def betterMaster (a : Nat) (b : BitVec 12) (c : Nat) (d : BitVec 12) : Bool :=
  decide (c < a) || (a == c && decide (b.toNat < d.toNat))

/-- What the Announce of an unblocked port names. -/
def State.heardOn (s : State) (p : Nat) : Option Heard := if s.portState p = portUp then (s.fport p).heard else none

/-- The best candidate heard on any port. -/
def State.bestHeard (s : State) : Option Heard :=
  (List.range 8).foldl (fun best p =>
    match s.heardOn p, best with
    | none, b => b
    | some h, none => some h
    | some h, some b => if betterMaster h.priority h.star b.priority b.star then some h else some b) none

/-- Some port announces the master known. -/
def State.masterHeard (s : State) : Bool :=
  (List.range 8).any (fun p => match s.heardOn p with | some h => h.star == s.masterStar | none => false)

/-- The own Announce intervals after which a master that is heard no more is given up (log entry 102). -/
def silentLimit : Nat := 2

/-- Who is master, without a better candidate: whether this star is, the number and the priority; none while this star, joined and
with priority 0, knows of none. -/
def State.standing (s : State) : Option (Bool × BitVec 12 × Nat) :=
  let own := if s.recipe.masterPriority = 0 then none else some (true, s.star, s.recipe.masterPriority)
  if s.isMaster then own
  else if s.masterHeard || decide (s.fab.masterSilent < silentLimit) then some (false, s.masterStar, s.fab.masterPriority)
  else own

/-- R143: the result of the election. A star that is joined to no other is its own master (R80). -/
def State.elect (s : State) : Bool × BitVec 12 × Nat :=
  if !s.joined then (true, s.star, s.recipe.masterPriority)
  else
    match s.bestHeard, s.standing with
    | some h, some c => if betterMaster h.priority h.star c.2.2 c.2.1 then (false, h.star, h.priority) else c
    | some h, none => (false, h.star, h.priority)
    | none, some c => c
    | none, none => (false, s.masterStar, s.fab.masterPriority)

/-- The hops to the master by a port: by the routes, or as its Announce gives them while they do not reach it. -/
def State.masterHopsVia (s : State) (p : Nat) : Option Nat :=
  (s.hopsVia p s.masterStar).orElse (fun _ =>
    (s.heardOn p).bind (fun h => if h.star = s.masterStar then some (h.hops + 1) else none))

/-- R143: the time port is the unblocked port with the fewest hops to the master, on a tie the lower. -/
def State.bestTimePort (s : State) : Option Nat :=
  if s.isMaster then none else (leastHops s.openPorts s.masterHopsVia).map (·.1)

/-- Choose the time port. -/
def State.refreshTimePort (s : State) : State :=
  let best := s.bestTimePort
  forEach (List.range 8) (fun p s => s.fflag F.FAB_PORT_STATUS.time_port (best == some p) p) s

/-- R141, R143: Announce on unblocked ports: a master with a priority names itself; any other star passes on the master that it
hears, away from its time port, with its own distance (R127). -/
def State.announceOut (s : State) : State :=
  if s.isMaster then
    if s.recipe.masterPriority = 0 then s
    else forEach s.openPorts (fun p s => s.sendLink p (.announce s.recipe.masterPriority s.star 0)) s
  else if s.masterHeard then
    let hops := ((leastHops s.openPorts s.masterHopsVia).map (·.2)).getD 0
    let t := s.timePortOf
    forEach (s.openPorts.filter (fun p => t != some p)) (fun p s =>
      s.sendLink p (.announce s.fab.masterPriority s.masterStar hops)) s
  else s

/-- R84, R143: settle the election: the result shows, ports are blocked and the time port chosen by it. A change of master raises
EV_FAB_MASTER_CHANGE, moves TIME to its new source, and is announced at once (log entry 102). -/
def State.settleMaster (s : State) : State :=
  let was := (s.isMaster, s.masterStar)
  let e := s.elect
  let s := (s.fflag F.FAB_STATUS.master e.1).fset F.FAB_STATUS.master_star e.2.1.toNat
  let s := { s with fab := { s.fab with masterPriority := e.2.2 } }
  let s := s.refreshTimePort.refreshBlocks.refreshTimePort
  if e.1 = was.1 ∧ (e.1 ∨ e.2.1 = was.2) then s
  else
    ({ s with fab := { s.fab with masterSilent := 0 } }.raise 75).sourceChange (if e.1 then s.recipe.timeSource else srcFab)
      |>.announceOut

/-! ### Enumeration (R145) -/

/-- ENUM leaves by a port, or waits for its link (log entry 103). -/
def State.enumOut (s : State) (q : Nat) (k : FabPacket) : State :=
  if s.linked q then s.sendPacket q k
  else { s with fab := { s.fab with walk := { s.fab.walk with held := some (q, k) } } }

/-- ENUM of this star. -/
def State.enumSend (s : State) (q : Nat) (n : BitVec 12) : State := s.enumOut q (s.toAll (.enum n))

/-- How often ENUM passed a ring through this star. -/
def State.enumPasses (s : State) (g : Nat) : Nat := Tbl.get 0 s.fab.walk.passes g

/-- ENUM passes a ring once more. -/
def State.enumPass (s : State) (g : Nat) : State :=
  { s with fab := { s.fab with walk := { s.fab.walk with passes := Tbl.upd 0 s.fab.walk.passes g (· + 1) } } }

/-- The next own ring that ENUM has not entered, one whose link is there first, and its lower port. -/
def State.nextRing (s : State) : Option (Nat × Nat) :=
  let l := (List.range 4).filterMap (fun g =>
    if s.enumPasses g = 0 then ((s.recipe.ringPorts g).head?).map (fun q => (g, q)) else none)
  (l.find? (fun e => s.linked e.2)).orElse (fun _ => l.head?)

/-- R145: ENUM goes into the next own ring by its lower port, or, when none is left, on along the ring that it came by. -/
def State.enumDescend (s : State) (n : BitVec 12) : State :=
  match s.nextRing with
  | some (g, q) =>
    let s := s.enumPass g
    { s with fab := { s.fab with walk := { s.fab.walk with entered := NSet.insert s.fab.walk.entered g } } }.enumSend q n
  | none =>
    match s.fab.walk.onward with
    | some (_, q) => s.enumSend q n
    | none => s

/-- ENUM is passed on along its ring. -/
def State.enumAlong (s : State) (q : Nat) (k : FabPacket) (n : BitVec 12) : State :=
  if 32 < k.hops + 1 then s.raise 83 else s.enumOut q { k with hops := k.hops + 1, body := .enum n }

/-- R145: the walk of ENUM from a port. Its first pass of a ring gives numbers along the ring; its second enters the own other
rings of each member, depth first (log entry 103). -/
def State.enumWalk (s : State) (p : Nat) (k : FabPacket) (n : BitVec 12) : State :=
  let g := s.recipe.portRing p
  if s.fab.walk.entered.contains g then
    if s.enumPasses g = 1 then
      match (s.recipe.ringPorts g).head? with
      | some q => (s.enumPass g).enumSend q n
      | none => s
    else s.enumDescend n
  else
    match s.recipe.ringMate p with
    | none => s.enumDescend n
    | some q =>
      if s.enumPasses g = 0 then
        let s := s.enumPass g
        { s with fab := { s.fab with walk := { s.fab.walk with
          onward := if s.fab.walk.onward.isNone then some (g, q) else s.fab.walk.onward } } }.enumAlong q k n
      else s.enumDescend n

/-- R145: the root starts ENUM when the first lower ring port of it comes up, and an ENUM that waits for a port leaves by it. -/
def State.enumStart (s : State) (p : Nat) : State :=
  let g := s.recipe.portRing p
  if s.recipe.enumRoot && s.numbered && g != 255 && (s.recipe.ringPorts g).head? == some p && s.fab.walk.entered.isEmpty then
    s.enumDescend (s.star + 1)
  else
    match s.fab.walk.held with
    | some (q, k) => if q = p then { s with fab := { s.fab with walk := { s.fab.walk with held := none } } }.enumOut p k else s
    | none => s

/-! ### Link bring-up and loss (R131, R146) -/

/-- A link is refused, and stays so until the port is disabled and enabled again (R131). -/
def State.refuseLink (s : State) (p reason : Nat) : State :=
  (s.setPort p portRefused).fset F.FAB_PORT_STATUS.reason reason p

/-- R131 step 2: HELLO with version 2, security mode, rate code and star number. -/
def State.sendHello (s : State) (p : Nat) : State :=
  let f : Frame := .hello 2 s.secure (s.recipe.portRate p) s.star (!s.numbered)
  (s.updPort p (fun x => { x with myHello := f.payload })).sendPlain p f

/-- A port that comes up tells its neighbour what TOPO told this star (log entry 104). -/
def State.shareTopo (s : State) (p : Nat) : State :=
  forEach s.fab.topology (fun e s => s.forwardPacket p ⟨0xFFF#12, true, e.1, false, 0, .topo e.2⟩) s

/-- R131 step 5: the link carries traffic. -/
def State.linkUp (s : State) (p : Nat) : State :=
  let s := s.updPort p (fun x =>
    { x with
      missed := 0, rekeying := false, rekeyIn := false, keyIn := false, oldRxKey := none, delayKnown := false, heard := none
      neighbour := if s.flag F.FAB_PORT_STATUS.peer_numbered p then some (s.peerStar p) else none })
  let s := (s.setPort p portUp).raise 72
  (s.settleMaster.floodTopo.shareTopo p).enumStart p

/-- R146 step 1: RING_FAULT goes out on the remaining port of the ring, naming the star at the other end of the failed link. -/
def State.sendRingFault (s : State) (p : Nat) : State :=
  match s.recipe.ringMate p with
  | some q => if s.linked q then s.sendPacket q (s.toAll (.ringFault (((s.fport p).neighbour).getD 0xFFF#12))) else s
  | none => s

/-- The link between two stars leaves the topology. -/
def cutLink (a b : BitVec 12) (e : BitVec 12 × List TopoLink) : BitVec 12 × List TopoLink :=
  if e.1 = a then (e.1, e.2.filter (fun l => l.neighbour != b))
  else if e.1 = b then (e.1, e.2.filter (fun l => l.neighbour != a)) else e

/-- R146 step 5: cue and bulk frames queued on ports whose link is gone are sent again on the new route, cue frames first. -/
def State.resendQueued (s : State) : State :=
  let gone := (List.range 8).filter (fun p => !s.linked p)
  let out := gone.flatMap (fun p => (s.fport p).outstanding)
  let s := forEach gone (fun p s => s.updPort p (fun x => { x with outstanding := [] })) s
  forEach (out.filter (fun o => o.packet.body.cls == 2) ++ out.filter (fun o => o.packet.body.cls == 3)) (fun o s =>
    match s.ownRoute o.packet.dst with
    | some r => s.sendPacket r.1 o.packet
    | none => s) s

/-- R146 steps 3 to 5 at a star that learns of a heal: the failed link leaves the routes, the time port is chosen anew with TIME
in HOLDOVER where it follows a link (R83, R84), queued frames go out again, TOPO is flooded, EV_FAB_RING_HEALED. -/
def State.healed (s : State) (a b : BitVec 12) : State :=
  let s := { s with fab := { s.fab with topology := s.fab.topology.map (cutLink a b) } }
  let s := s.settleMaster
  let s := if s.timeSource = srcFab then s.sourceChange srcFab else s
  s.resendQueued.floodTopo.raise 74

/-- R146 steps 2 to 5 at a ring manager: its blocked port is opened, RING_HEALED flooded, and an unscheduled Sync sent over the
opened port. A failed link that is the blocked one re-routes nothing. -/
def State.openRing (s : State) (g : Nat) (a b : BitVec 12) : State :=
  match (s.recipe.ringPorts g).find? (fun q => s.portState q == portBlocked) with
  | none => s
  | some q =>
    if (a = s.star ∧ (s.fport q).neighbour = some b) ∨ (b = s.star ∧ (s.fport q).neighbour = some a) then s
    else
      let s := { s with fab := { s.fab with openRings := NSet.insert s.fab.openRings g } }
      let s := (s.setPort q portUp).flood (.ringHealed a b)
      onlyIf s.stValid (fun s => s.sendLink q (.sync s.tim.st)) (s.healed a b)

/-- R83, R146: a link counts as down: RING_FAULT is sent, the time source is lost with the time port, and the routes are without
it. A manager whose own ring link fails opens its blocked port; if the failed link is the blocked one, nothing is re-routed.
The master known stays so until it is found silent (R143), unless no link is left (R80). -/
def State.linkGone (s : State) (p st : Nat) : State :=
  let blocked := s.portState p == portBlocked
  let wasTime := s.flag F.FAB_PORT_STATUS.time_port p
  let s := (s.setPort p st).updPort p (fun x => { x with heard := none, missed := 0, delayKnown := false })
  let s := (s.fset F.FAB_PORT_STATUS.time_port 0 p).sendRingFault p
  let s := if wasTime && s.timeSource == srcFab then s.sourceStopped false else s
  let g := s.recipe.portRing p
  let s :=
    if !blocked && g != 255 && s.ringManager g then s.openRing g s.star (((s.fport p).neighbour).getD 0xFFF#12) else s
  s.settleMaster.retellTopo

/-- R146: a link is declared down. -/
def State.linkDown (s : State) (p : Nat) : State := (s.linkGone p portDown).raise 73

/-! ### Message slots (R137, R138, R147) -/

/-- The sender's entry of a peer. -/
def FabState.txPeer (x : FabState) (d : BitVec 12) : Option TxPeer := x.txPeers.find? (fun e => e.star == d)

/-- Change the sender's entry of a peer. -/
def State.updTx (s : State) (d : BitVec 12) (f : TxPeer → TxPeer) : State :=
  { s with fab := { s.fab with txPeers := s.fab.txPeers.map (fun e => if e.star = d then f e else e) } }

/-- The number of peer entries in FAB_PEER_COUNT. -/
def State.countPeers (s : State) : State :=
  (s.fset F.FAB_PEER_COUNT.tx s.fab.txPeers.length).fset F.FAB_PEER_COUNT.rx s.fab.rxPeers.length

/-- The state of a slot: 0 IDLE, 1 WAITING, 2 SENT, 3 ENDED. -/
def State.slotState (s : State) (n : Nat) : Nat := s.fget F.FAB_SLOT_STATUS.state n

/-- What a slot holds of its message. -/
def State.slotOf (s : State) (n : Nat) : SlotState := Tbl.get SlotState.initial s.fab.slots n

/-- Store what a slot holds. -/
def State.setSlot (s : State) (n : Nat) (x : SlotState) : State :=
  { s with fab := { s.fab with slots := Tbl.set SlotState.initial s.fab.slots n x } }

/-- The destination of a slot. -/
def State.slotDst (s : State) (n : Nat) : BitVec 12 := BitVec.ofNat 12 (s.fget F.FAB_SLOT_CFG.dst n)

/-- The 40 data bytes of a slot: its 32 data bytes and the payload word of a FAB_SEND cue (R104). -/
def State.slotBytes (s : State) (n : Nat) (payload : BitVec 64) : List Byte :=
  (List.range 8).flatMap (fun k => leBytes 4 (s.get .FAB_SLOT_DATA n k).toNat) ++ leBytes 8 payload.toNat

/-- R138: the path bound D of a peer in ns: 100 µs a hop. -/
def State.pathBound (s : State) (d : BitVec 12) : Nat := ((s.ownRoute d).map (·.2)).getD 0 * 100000

/-- R138: the sender's timeout of a slot's message, `void_after` + 2 D. -/
def SlotState.timeout (x : SlotState) : ST := ((x.msg.map (·.voidAfter)).getD 0) + BitVec.ofNat 64 (2 * x.bound)

/-- R138: when the message of a slot is repeated next: every 2 D after its first send. -/
def SlotState.nextRepeat (x : SlotState) : ST := x.sentSt + BitVec.ofNat 64 (2 * x.bound * (x.repeats + 1))

/-- R147: the route to a star lies through a link in REKEY_STALL. -/
def State.routeStalled (s : State) (d : BitVec 12) : Bool :=
  (s.ownRoute d).isNone && (List.range 8).any (fun p => s.portState p == portStall && (s.hopsVia p d).isSome)

/-- R147, R138: why a send of a slot is refused, 0 if it is not (log entry 105). `void` is its void_after. -/
def State.fabSlotError (s : State) (n : Nat) (void : ST) : Nat :=
  let d := s.slotDst n
  let bulk := s.flag F.FAB_SLOT_CFG.bulk n
  let all := bulk && s.flag F.FAB_SLOT_CFG.broadcast n
  if s.slotState n = 1 ∨ s.slotState n = 2 then 2
  else if !all && s.routeStalled d then 6
  else if !all && (s.ownRoute d).isNone then 3
  else if !bulk && earlier (s.tim.st + 1000000000#64) void then 4
  else if !bulk && (s.fab.txPeer d).isNone && decide (256 ≤ s.fab.txPeers.length) then 1
  else 0

/-- Send a cue message on its route. -/
def State.sendMessage (s : State) (d : BitVec 12) (m : DataMsg) : State :=
  match s.ownRoute d with
  | some r => s.sendPacket r.1 (s.toStar d (.data m))
  | none => s

/-- R137: a new peer entry draws its epoch and first `seq` from the TRNG. -/
def State.ensurePeer (s : State) (d : BitVec 12) : State :=
  match s.fab.txPeer d with
  | some _ => s
  | none =>
    let e : TxPeer :=
      { star := d, epoch := (Config.freeWord s.draws).truncate 16, next := Config.freeWord (s.draws + 1), opened := false,
        unanswered := [], waiting := [] }
    { s with fab := { s.fab with txPeers := s.fab.txPeers ++ [e] } }.drawn.drawn.countPeers

/-- R137: a slot's message takes the next `seq` of its peer and leaves. -/
def State.launchSlot (s : State) (n : Nat) : State :=
  let x := s.slotOf n
  match x.msg, s.fab.txPeer x.dst with
  | some m, some e =>
    let m := { m with seq := e.next, epoch := e.epoch, isOpen := !e.opened }
    let s := s.updTx x.dst (fun e => { e with next := e.next + 1, opened := true, unanswered := e.unanswered ++ [n] })
    ((s.setSlot n { x with msg := some m, sentSt := s.gridTime, repeats := 0 }).fset F.FAB_SLOT_STATUS.state 2 n).sendMessage
      x.dst m
  | _, _ => s

/-- R138: a message leaves at once, or waits in its slot while 64 messages to its peer are unanswered. -/
def State.queueSlot (s : State) (n : Nat) (d : BitVec 12) : State :=
  let busy := ((s.fab.txPeer d).map (fun e => decide (64 ≤ e.unanswered.length))).getD false
  if busy then
    (s.updTx d (fun e => { e with waiting := e.waiting ++ [n] })).fset F.FAB_SLOT_STATUS.state 1 n
  else s.launchSlot n

/-- A slot has ENDED with an outcome: its done bit is set and EV_FAB_SLOT_DONE raised. -/
def State.endSlot (s : State) (n outcome detail : Nat) : State :=
  let s := (s.fset F.FAB_SLOT_STATUS.state 3 n).fset F.FAB_SLOT_STATUS.outcome outcome n
  ((s.fset F.FAB_SLOT_STATUS.detail detail n).setBit .FAB_SLOT_DONE (n % 32) 0 (n / 32)).raise 84

/-- A run of free bytes. -/
def State.freeRun (s : State) (n : Nat) : List Byte := (List.range n).map (fun i => Config.freeByte (s.draws + i))

/-- R140: the bulk frame of a slot: its 40 data bytes, and what fills the payload up to 1,466 bytes, which no rule gives (log
entry 106). -/
def State.sendBulk (s : State) (n : Nat) (d : BitVec 12) (port : Nat) (payload : BitVec 64) : State :=
  let f : Frame := .bulk port (s.slotBytes n payload ++ s.freeRun 1426)
  let s := { s with draws := s.draws + 1426 }
  if s.flag F.FAB_SLOT_CFG.broadcast n then s.flood f
  else
    match s.ownRoute d with
    | some r => s.sendPacket r.1 (s.toStar d f)
    | none => s

/-- R147: send a slot now with a void_after and a payload word. A refusal leaves only its code (and EV_FAB_PEERS). -/
def State.sendSlot (s : State) (n : Nat) (void : ST) (payload : BitVec 64) : State :=
  let err := s.fabSlotError n void
  if err ≠ 0 then
    let s := s.fset F.FAB_SLOT_STATUS.err err n
    if err = 1 then s.raise 82 else s
  else
    let d := s.slotDst n
    let port := s.fget F.FAB_SLOT_CFG.app_port n
    let s := (s.put .FAB_SLOT_STATUS 0 n).put64 .FAB_SLOT_RESULT_LO .FAB_SLOT_RESULT_HI 0 n
    if s.flag F.FAB_SLOT_CFG.bulk n then (s.sendBulk n d port payload).endSlot n 0 0
    else
      let m : DataMsg :=
        { seq := 0, epoch := 0, isOpen := false, kind := if s.flag F.FAB_SLOT_CFG.arm n then .arm else .deliver
          voidAfter := void, appPort := ⟨port % 32, Nat.mod_lt _ (by decide)⟩, bytes := s.slotBytes n payload }
      ((s.setSlot n ⟨d, some m, s.pathBound d, s.gridTime, 0⟩).ensurePeer d).queueSlot n d

/-- R138: an answered or timed-out message leaves the window, and the next waiting message of the peer goes out. -/
def State.freeWindow (s : State) (n : Nat) (d : BitVec 12) : State :=
  let s := s.updTx d (fun e => { e with unanswered := e.unanswered.filter (· != n) })
  match s.fab.txPeer d with
  | some e =>
    match e.waiting with
    | k :: t => (s.updTx d (fun e => { e with waiting := t })).launchSlot k
    | [] => s
  | none => s

/-- void_after of a slot whose launch is keyed at an ST (FAB_SLOT_VOID). -/
def State.slotVoid (s : State) (n : Nat) (key : ST) : ST :=
  key + BitVec.ofNat 64 (s.fget F.FAB_SLOT_VOID.void_us n * 1000)

end Sys2Proof.Machine
end

