-- ==== Sys2Proof/Machine/RecipeFormat.lean ====
section
/-! DEFINITION. The format checks of a recipe image (order 1 of R47): container (R28 to R31, R399), and each section's
own format. A check answers the offset of the first failing byte within its section. -/

namespace Sys2Proof.Machine

/-- Position of a failure: section and image offset, as SYS_RCP_ERR_DETAIL reports it. -/
structure FormatError where
  section_ : Nat
  offset : Nat
  deriving DecidableEq, Repr

/-- A check over one section: the offset in the section of the first failing byte, or none. -/
abbrev Chk := Option Nat

/-- The field at an offset must satisfy a condition. -/
def need (ok : Bool) (o : Nat) : Chk := if ok then none else some o

/-- Reserved bytes from lo up to hi, exclusive, must be 0. -/
def zeros (b : List Byte) (lo hi : Nat) : Chk :=
  if allZero b lo hi then none else some (firstNonZero b lo (hi - lo))

/-- R47: of the checks of a list that fail, the offset of the first byte. -/
def firstOf (l : List Chk) : Chk := l.foldl (fun a c => match a, c with
  | some x, some y => some (min x y)
  | some x, none => some x
  | none, c => c) none

/-- The first failing byte over n entries. -/
def perEntry (n : Nat) (f : Nat → Chk) : Chk := firstOf ((List.range n).map f)

/-- A section must end where its layout ends: the first missing or first extra byte fails. -/
def withLength (b : List Byte) (layout : Nat) (c : Chk) : Chk :=
  if b.length < layout then some (min (c.getD b.length) b.length)
  else firstOf [c, if layout < b.length then some layout else none]

/-- The value lies in a range, both ends included. -/
def within (lo v hi : Nat) : Bool := decide (lo ≤ v) && decide (v ≤ hi)

/-- R32. A section of another length is a format error (log entry 71). -/
def checkIdent (b : List Byte) : Chk := withLength b 64 (zeros b 52 64)

/-- R34. -/
def checkCompat (b : List Byte) : Chk :=
  withLength b 32 (firstOf
    [need (u8 b 0 < 8) 0, need (1 ≤ u8 b 1) 1, need (u8 b 6 ≤ 2) 6, need (u8 b 7 = 0) 7,
     need (within 16 (u16 b 8) 128) 8, zeros b 12 32])

/-- R35. -/
def checkPart (b : List Byte) : Chk :=
  let n := u16 b 0
  if 8 < n then some 0 else
  withLength b (16 + 32 * n) (firstOf
    [need (u16 b 2 ≤ 63) 2, zeros b 9 16,
     perEntry n (fun e =>
       let o := 16 + 32 * e
       firstOf
         [need (u8 b o ≤ 7 && (List.range e).all (fun e' => u8 b (16 + 32 * e') != u8 b o)) o,
          need (u8 b (o + 2) ≤ 1) (o + 2), need (u8 b (o + 3) ≤ 64) (o + 3), need (u16 b (o + 4) ≤ 255) (o + 4),
          need (u8 b (o + 9) ≤ 23) (o + 9), zeros b (o + 24) (o + 32)])])

/-- R36, R249. -/
def checkMem (b : List Byte) : Chk :=
  let n := u16 b 4
  let m := u16 b 6
  withLength b (16 + 16 * n + m) (firstOf
    [need (u16 b 0 ≤ 2) 0, need (within 64 (u16 b 2) 1024) 2, zeros b 8 16,
     perEntry n (fun e =>
       let o := 16 + 16 * e
       firstOf
         [need (u8 b (o + 8) ≤ 1) (o + 8), need (u8 b (o + 9) ≤ 7 || u8 b (o + 9) = 255) (o + 9),
          zeros b (o + 10) (o + 16)]),
     perEntry m (fun e => need (u8 b (16 + 16 * n + e) ≤ 47) (16 + 16 * n + e))])

/-- The lanes and link rates that R205 gives for a standard. -/
def linkAllowed (standard lanes rate : Nat) : Bool :=
  match standard with
  | 0 | 4 => [1, 2, 4].contains lanes && [162, 270, 540, 810].contains rate
  | 1 => [1, 2, 4].contains lanes && [1000, 1350, 2000].contains rate
  | 2 => lanes == 3 && rate == 0
  | 3 => (lanes == 3 && [300, 600].contains rate) || (lanes == 4 && [600, 800, 1000, 1200].contains rate)
  | 5 => lanes == 0 && rate == 0
  | _ => false

/-- The lanes that R204 gives for a standard. -/
def lanesAllowed (standard lanes : Nat) : Bool :=
  match standard with
  | 0 | 1 | 4 => [1, 2, 4].contains lanes
  | 2 => lanes == 3
  | 3 => lanes == 3 || lanes == 4
  | _ => lanes == 0

/-- Total line length from the eight boot timing fields at an offset. -/
def sum4 (b : List Byte) (o : Nat) : Nat := u16 b o + u16 b (o + 2) + u16 b (o + 4) + u16 b (o + 6)

/-- R204, R205: one enabled entry at offset o of the section. -/
def checkOutEntry (b : List Byte) (o : Nat) : Chk :=
  let std := u8 b (o + 2)
  let lock := u8 b (o + 7)
  firstOf
    [need (u8 b (o + 1) ≤ 1) (o + 1), need (std ≤ 5) (o + 2), need (lanesAllowed std (u8 b (o + 3))) (o + 3),
     need (linkAllowed std (u8 b (o + 3)) (u16 b (o + 4))) (o + 4), need (u8 b (o + 6) ≤ 1) (o + 6),
     need (lock ≤ 2) (o + 7), need (if lock = 2 then decide (u8 b (o + 8) ≤ 1) else u8 b (o + 8) = 255) (o + 8),
     need (if lock = 2 then within 1 (u8 b (o + 9)) 4 else u8 b (o + 9) = 1) (o + 9),
     need ([6, 8, 10].contains (u8 b (o + 10))) (o + 10),
     need (if std = 5 then decide (u8 b (o + 11) ≤ 1) else u8 b (o + 11) = 0) (o + 11),
     need (u16 b (o + 12) = 0 || within 128 (u16 b (o + 12)) 256) (o + 12), zeros b (o + 14) (o + 16),
     need (u16 b (o + 16) ≤ u16 b (o + 40)) (o + 16), need (u16 b (o + 24) ≤ u16 b (o + 42)) (o + 24),
     need (u32 b (o + 32) ≤ u32 b (o + 44) &&
       u32 b (o + 32) * 1000000 ≤ u32 b (o + 48) * sum4 b (o + 16) * sum4 b (o + 24)) (o + 32),
     need (u8 b (o + 36) ≤ 3) (o + 36), zeros b (o + 37) (o + 40),
     need (u32 b (o + 64) < 2 ^ 30) (o + 64),
     zeros b (o + 68) (o + 80)]

/-- R204. -/
def checkOut (b : List Byte) : Chk :=
  withLength b 640 (perEntry 8 (fun n =>
    let o := 80 * n
    if u8 b o = 0 then zeros b (o + 1) (o + 80)
    else firstOf [need (u8 b o ≤ 1) o, checkOutEntry b o]))

/-- R182, R183: kinds are cursor (0 to 7), graphic (8 to 31) and video (32 to 47). -/
def checkLayer (b : List Byte) : Chk :=
  withLength b 768 (perEntry 48 (fun n =>
    let o := 16 * n
    let size := if n < 8 then 256 else 7680
    let formats := if n < 8 then 1 else if n < 32 then 0xF else 0x7FF
    let fm := u16 b (o + 8)
    if u8 b o = 255 then zeros b (o + 1) (o + 16)
    else firstOf
      [need (u8 b o ≤ 7) o, need (n < 8 || u8 b (o + 1) ≤ 7) (o + 1),
       need (u8 b (o + 2) = 0 || u8 b (o + 2) = 254 || within 64 (u8 b (o + 2)) 71) (o + 2),
       need (u8 b (o + 3) ≤ 7 || u8 b (o + 3) = 255) (o + 3),
       need (within 1 (u16 b (o + 4)) size) (o + 4), need (within 1 (u16 b (o + 6)) (min size 4320)) (o + 6),
       need (fm ≠ 0 && fm ||| formats = formats) (o + 8),
       need (if u8 b (o + 3) = 255 then u8 b (o + 10) = 0 else decide (u8 b (o + 10) ≤ 64)) (o + 10),
       zeros b (o + 11) (o + 16)]))

/-- R227: one palette of 256 entries of 8 bytes. -/
def checkPalette (b : List Byte) (o : Nat) : Chk :=
  let p := slice b o 2048
  (perEntry 256 (fun e =>
    firstOf [need (u32 p (8 * e) < 2 ^ 30) (8 * e + 3), zeros p (8 * e + 5) (8 * e + 8)])).map (o + ·)

/-- R227: one atlas directory entry and the atlas data it names. -/
def checkAtlas (b : List Byte) (o : Nat) : Chk :=
  let off := u32 b o
  let len := u32 b (o + 4)
  let bpp := u8 b (o + 8)
  let glyphs := u16 b (o + 10)
  firstOf
    [need (off ≤ b.length) o, need (off + len ≤ b.length && 8 * glyphs ≤ len) (o + 4),
     need (bpp = 1 || bpp = 4) (o + 8), need (u8 b (o + 9) = 0) (o + 9), need (within 1 glyphs 1024) (o + 10),
     zeros b (o + 12) (o + 16),
     let a := slice b off len
     (perEntry glyphs (fun g =>
       let w := u8 a (8 * g)
       let h := u8 a (8 * g + 1)
       firstOf
         [need (within 1 w 64) (8 * g), need (within 1 h 64) (8 * g + 1),
          need (u32 a (8 * g + 4) + h * ceilDiv (w * bpp) 8 ≤ len) (8 * g + 4)])).map (off + ·)]

/-- Number of glyphs of atlas a. -/
def atlasGlyphs (b : List Byte) (a : Nat) : Nat := u16 b (u32 b 8 + 16 * a + 10)

/-- R228, R229: one primitive record at offset o of the list l; mh and mv are the output's largest active size. -/
def checkPrim (sect l : List Byte) (o mh mv : Nat) : Chk :=
  let x (k : Nat) : Chk := need (u16 l (o + k) < mh) (o + k)
  let units := u8 l (o + 1)
  firstOf
    [need (within 1 (u8 l o) 5) o,
     need (match u8 l o with
       | 4 => units = 1 + ceilDiv (u8 l (o + 8)) 4
       | 5 => units = 1 + ceilDiv (u8 l (o + 9)) 8
       | _ => units = 1) (o + 1),
     need (u8 l (o + 3) < 8) (o + 3), need (u16 l (o + 4) ≤ u16 l (o + 6)) (o + 4), need (u16 l (o + 6) < mv) (o + 6),
     match u8 l o with
     | 1 => firstOf [x 8, x 10, zeros l (o + 12) (o + 16)]
     | 2 =>
       let w : Int := (u16 l (o + 10) : Int) - u16 l (o + 8) + 1
       let h : Int := (u16 l (o + 6) : Int) - u16 l (o + 4) + 1
       firstOf [x 8, x 10, need (decide (2 * (u16 l (o + 12) : Int) ≤ min w h)) (o + 12), zeros l (o + 14) (o + 16)]
     | 3 => firstOf [x 8, x 10, need (within 1 (u8 l (o + 12)) 16) (o + 12), zeros l (o + 13) (o + 16)]
     | 4 =>
       let n := u8 l (o + 8)
       firstOf
         [need (within 3 n 16) (o + 8), need (u8 l (o + 9) ≤ 1) (o + 9), zeros l (o + 10) (o + 16),
          perEntry n (fun v => x (16 + 4 * v)), zeros l (o + 16 + 4 * n) (o + 16 * units)]
     | _ =>
       let n := u8 l (o + 9)
       firstOf
         [need (u8 l (o + 8) < u8 sect 1) (o + 8), need (within 1 n 56) (o + 9), x 10, zeros l (o + 14) (o + 16),
          perEntry n (fun g => need (u16 l (o + 16 + 2 * g) < atlasGlyphs sect (u8 l (o + 8))) (o + 16 + 2 * g)),
          zeros l (o + 16 + 2 * n) (o + 16 * units)]]

/-- R228: one list of an output, at offset o and of length len in the section. -/
def checkList (b : List Byte) (o len mh mv : Nat) : Chk :=
  let l := slice b o len
  (firstOf
    [need (within 1 (u16 l 0) 4096) 0, zeros l 6 16,
     firstOf ((listRecords l).map (fun r => if len < r.1 + 16 then some (min r.1 (len - 1)) else checkPrim b l r.1 mh mv)),
     need (16 + ((listRecords l).map (fun r => 16 * u8 l (r.1 + 1))).sum = len) 0]).map (o + ·)

/-- R235: one binding entry at offset o. -/
def checkBinding (r : Recipe) (b : List Byte) (o : Nat) : Chk :=
  let out := u8 b (o + 3)
  let l := r.glazeList out false
  let rec_ := ((listRecords l).map (·.2)).getD (u16 b (o + 4)) []
  firstOf
    [need (u8 b (o + 2) ≤ 61) (o + 2), need (out < 8 && bit (u8 b 0) out = 1) (o + 3),
     need (u16 b (o + 4) < u16 l 0) (o + 4),
     need (within 1 (u8 b (o + 6)) 3 && (u8 b (o + 6) ≠ 3 || u8 rec_ 0 = 5)) (o + 6),
     need (u8 b (o + 6) ≠ 3 || u8 b (o + 7) < u8 rec_ 9) (o + 7), zeros b (o + 8) (o + 16)]

/-- R226 to R229 and R235. The OUT section gives the enabled outputs and the largest active sizes. -/
def checkGlaze (r : Recipe) : Chk :=
  let b := r.sec 7
  let n := b.length
  let mask := ((List.range 8).map (fun k => if r.outEnabled k then 2 ^ k else 0)).sum
  if n < 160 then some n else
  firstOf
    [need (u8 b 0 = mask) 0, need (u8 b 1 ≤ 4) 1, need (u16 b 2 ≤ 256) 2, need (u32 b 4 + 16384 ≤ n) 4,
     need (u8 b 1 = 0 || u32 b 8 + 16 * u8 b 1 ≤ n) 8,
     need (u16 b 2 = 0 || u32 b 12 + 16 * u16 b 2 ≤ n) 12, zeros b 16 32,
     perEntry 8 (fun k =>
       let o := 32 + 16 * k
       if r.outEnabled k then
         firstOf [need (u32 b o + u32 b (o + 4) ≤ n && 16 ≤ u32 b (o + 4)) o,
           need (u32 b (o + 8) + u32 b (o + 12) ≤ n && 16 ≤ u32 b (o + 12)) (o + 8)]
       else zeros b o (o + 16)),
     perEntry 8 (fun k => checkPalette b (u32 b 4 + 2048 * k)),
     perEntry (u8 b 1) (fun a => checkAtlas b (u32 b 8 + 16 * a)),
     perEntry 8 (fun k => if r.outEnabled k then firstOf
       [checkList b (r.listOff k false) (r.listLen k false) (r.outMaxH k) (r.outMaxV k),
        checkList b (r.listOff k true) (r.listLen k true) (r.outMaxH k) (r.outMaxV k)] else none),
     perEntry (u16 b 2) (fun e => checkBinding r b (u32 b 12 + 16 * e))]

/-- R99: one axis entry at offset o; the entries before it give the identifiers already used. -/
def checkAxis (b : List Byte) (e : Nat) : Chk :=
  let o := 64 + 48 * e
  let rb := u8 b (o + 2)
  let wf := u8 b (o + 31)
  let m := u32 b (o + 4)
  let unusedBefore (k : Nat) : Bool := (List.range e).all (fun e' => u8 b (64 + 48 * e' + k) != u8 b (o + k))
  firstOf
    [need (u8 b o ≤ 7 && unusedBefore 0) o, need (u8 b (o + 1) ≤ 7 && unusedBefore 1) (o + 1),
     need (within 1 rb 32) (o + 2), need (within 4 (u8 b (o + 3)) 16) (o + 3),
     need (m = 0 || (within 2 m (2 ^ rb) && wf ≠ 1)) (o + 4),
     need (within 20000 (u32 b (o + 24)) 10000000) (o + 24), need (u16 b (o + 28) ≤ 10000) (o + 28),
     need (within 2 (u8 b (o + 30)) 16) (o + 30), need (wf = 0 || (wf = 1 && rb = 32)) (o + 31),
     need (u32 b (o + 32) ≤ 1000000) (o + 32), zeros b (o + 44) (o + 48)]

/-- R98, R99. -/
def checkTime (b : List Byte) : Chk :=
  let src := u8 b 0
  let n := u8 b 28
  if 8 < n then firstOf [need (src ≤ 5) 0, some 28] else
  withLength b (64 + 48 * n) (firstOf
    [need (src ≤ 5) 0, need (if [2, 3, 4].contains src then decide (u8 b 1 ≤ 1) else u8 b 1 = 255) 1,
     need (within 10 (u16 b 2) 200) 2,
     need (if src = 3 then [525, 625, 750, 1125].contains (u16 b 12) else u16 b 12 = 0) 12, need (u8 b 14 ≤ 3) 14,
     need (u8 b 15 = 50 || u8 b 15 = 60) 15, zeros b 29 64, perEntry n (checkAxis b)])

/-- R120, R122, R123. -/
def checkFab (b : List Byte) : Chk :=
  let n := u16 b 144
  let star (o : Nat) : Bool := decide (u16 b o ≤ 4095) || u16 b o == 0xFFFF
  if b.length < 160 then some b.length else
  withLength b (160 + 176 * n) (firstOf
    [need (star 0) 0, need (u8 b 3 = 0 || (u8 b 3 = 1 && u16 b 0 ≠ 0xFFFF)) 3,
     perEntry 8 (fun p =>
       let o := 4 + 4 * p
       firstOf [need (u8 b o ≤ 4) o, need (u8 b (o + 1) ≤ 3 || u8 b (o + 1) = 255) (o + 1), zeros b (o + 2) (o + 4)]),
     perEntry 4 (fun k => need (star (36 + 2 * k)) (36 + 2 * k)), zeros b 141 144,
     need (within 1 n 4096) 144, zeros b 146 160,
     perEntry n (fun c =>
       let q := slice b (160 + 176 * c) 176
       (firstOf [need (u8 q 65 = 0) 65, need (u16 q 66 ≤ 4095 || u16 q 66 = 0xFFFF) 66,
         zeros q 68 80]).map (160 + 176 * c + ·))])

/-- Owner codes of the IO section: 0, 64 to 71 and 255 (R341). -/
def ioOwner (o : Nat) : Bool := o == 0 || o == 255 || within 64 o 71

/-- R341. The TIME section names the SSI ports in use. -/
def checkIo (r : Recipe) : Chk :=
  let b := r.sec 10
  let n := u16 b 2
  if b.length < 528 then some b.length else
  withLength b (528 + 4 * n) (firstOf
    [need (u8 b 0 ≤ 2) 0, need (u8 b 1 < 16) 1, need (n ≤ 640) 2, zeros b 4 8,
     perEntry 16 (fun p =>
       let o := 8 + 16 * p
       if u8 b o = 0 then zeros b o (o + 16) else firstOf
         [need (u8 b o ≤ 3) o, need (ioOwner (u8 b (o + 1))) (o + 1), need (within 92 (u16 b (o + 2)) 1000) (o + 2),
          need (within 12 (u16 b (o + 4)) 1000) (o + 4), need (within 1 (u16 b (o + 6)) 512) (o + 6),
          need (u8 b (o + 8) ≤ 127) (o + 8), need (u16 b (o + 10) = 0 || within 25 (u16 b (o + 10)) 1000) (o + 10),
          zeros b (o + 12) (o + 16)]),
     perEntry 4 (fun m =>
       let o := 264 + 4 * m
       firstOf [need (u8 b o ≤ 1) o, zeros b (o + 1) (o + 4)]),
     perEntry 4 (fun j =>
       let o := 280 + 4 * j
       if u8 b o = 0 then zeros b o (o + 4)
       else firstOf [need (u8 b o ≤ 1) o, need (u8 b (o + 1) ≤ 3) (o + 1), zeros b (o + 2) (o + 4)]),
     (if leNat b 296 6 = 0 then zeros b 296 312 else firstOf
       [need (within 3968 (u16 b 302) 4095) 302, need (within 8 (u16 b 304) 1024) 304, need (within 2 (u8 b 306) 64) 306,
        need (u8 b 307 ≤ 64) 307, zeros b 308 312]),
     (if u16 b 312 = 0 then zeros b 312 320 else firstOf [need (u16 b 314 ≤ 1000) 314, zeros b 316 320]),
     perEntry 8 (fun p =>
       let o := 320 + 16 * p
       if (r.ssiAxis p).isNone then zeros b o (o + 16) else firstOf
         [need (within 100 (u16 b o) 10000) o, need (u8 b (o + 2) ≤ 8) (o + 2), need (u8 b (o + 3) ≤ 1) (o + 3),
          need (u8 b (o + 4) ≤ 2) (o + 4), need (within 10 (u8 b (o + 5)) 60) (o + 5), need (u16 b (o + 6) ≤ 2000) (o + 6),
          zeros b (o + 8) (o + 16)]),
     perEntry 8 (fun k =>
       let o := 448 + 8 * k
       if u8 b o = 0 then zeros b o (o + 8) else firstOf
         [need (u8 b o ≤ 2) o, need (if u8 b o = 1 then decide (u8 b (o + 1) ≤ 2) else within 1 (u8 b (o + 1)) 50) (o + 1),
          need (u8 b (o + 2) ≤ 3) (o + 2), need (within 1 (u8 b (o + 3)) 4) (o + 3),
          need (within 1 (u8 b (o + 4)) 100) (o + 4), zeros b (o + 5) (o + 8)]),
     perEntry 8 (fun k => need (ioOwner (u8 b (512 + k))) (512 + k)), zeros b 520 528,
     perEntry n (fun e =>
       let o := 528 + 4 * e
       firstOf [need (u16 b o ≤ 639) o, need (bits (u8 b (o + 3)) 1 0 ≤ 2 && bits (u8 b (o + 3)) 3 2 ≤ 2) (o + 3)])])

/-- R374. -/
def checkAud (b : List Byte) : Chk :=
  withLength b 13008 (firstOf
    [need (u8 b 0 ≤ 1) 0, need (u8 b 1 < 16) 1, need (u8 b 2 < 16) 2, zeros b 3 16,
     perEntry 8 (fun p =>
       let o := 16 + 8 * p
       if u8 b o = 0 then zeros b (o + 4) (o + 8) else firstOf
         [need (u8 b o ≤ 1) o, need (u8 b (o + 1) ≤ 2) (o + 1), need ([16, 24, 32].contains (u8 b (o + 2))) (o + 2),
          need (u8 b (o + 3) ≤ 1) (o + 3), zeros b (o + 4) (o + 8)])])

/-- R338 and R401: one region entry. -/
def checkRegion (b : List Byte) (e : Nat) : Chk :=
  let o := 224 + 16 * e
  let c := u8 b o
  let q := 32 + 48 * c
  let swap := bit (u8 b (q + 6)) 0 == 1
  let width := 64 * (if swap then u8 b q else u8 b (q + 1))
  let height := 64 * (if swap then u8 b (q + 1) else u8 b q)
  firstOf
    [need (c ≤ 3 && bit (u8 b 0) c = 1) o,
     need (u8 b (o + 1) ≤ 63 && (List.range e).all (fun e' =>
       !(u8 b (224 + 16 * e') == c && u8 b (225 + 16 * e') == u8 b (o + 1)))) (o + 1),
     need (u16 b (o + 2) ≤ u16 b (o + 6)) (o + 2), need (u16 b (o + 4) ≤ u16 b (o + 8)) (o + 4),
     need (u16 b (o + 6) < width) (o + 6), need (u16 b (o + 8) < height) (o + 8),
     need (u8 b (o + 10) < 8) (o + 10), need (u8 b (o + 11) = 0) (o + 11), zeros b (o + 14) (o + 16)]

/-- R338. -/
def checkTch (b : List Byte) : Chk :=
  let n := u16 b 4
  if b.length < 224 then some b.length else
  withLength b (224 + 16 * n) (firstOf
    [need (u8 b 0 < 16) 0, need (u8 b 1 ≤ 3 || u8 b 1 = 255) 1, need (u8 b 2 ≤ 2) 2, need (u8 b 3 ≤ 3) 3,
     need (n ≤ 256) 4, need (within 2 (u8 b 6) 64) 6, zeros b 8 32,
     perEntry 4 (fun c =>
       let o := 32 + 48 * c
       if bit (u8 b 0) c = 0 then zeros b o (o + 48) else firstOf
         [need (within 16 (u8 b o) 72) o, need (within 16 (u8 b (o + 1)) 128) (o + 1),
          need (within 2 (u8 b (o + 2)) 16) (o + 2), need (within 8 (u8 b (o + 3)) 64) (o + 3),
          need (within 50 (u16 b (o + 4)) 400) (o + 4), need (u8 b (o + 6) < 8) (o + 6), need (u8 b (o + 7) = 0) (o + 7),
          perEntry 8 (fun h => need (within 100 (u16 b (o + 8 + 2 * h)) 500 &&
            (List.range h).all (fun h' => u16 b (o + 8 + 2 * h') != u16 b (o + 8 + 2 * h))) (o + 8 + 2 * h)),
          zeros b (o + 36) (o + 48)]),
     perEntry n (checkRegion b)])

/-- R339. -/
def checkHap (b : List Byte) : Chk :=
  let w := u8 b 2
  let n := u8 b 3
  withLength b (272 + 8 * w + 8 * n) (firstOf
    [need (within 1 w 32) 2, zeros b 4 16,
     perEntry 16 (fun c => firstOf [need (u16 b (16 + 16 * c) ≤ 2000) (16 + 16 * c), zeros b (22 + 16 * c) (32 + 16 * c)]),
     perEntry w (fun k =>
       let o := 272 + 8 * k
       firstOf
         [need (within 50 (u16 b o) 500) o, need (within 1 (u8 b (o + 2)) 255 && u8 b (o + 3) ≤ u8 b (o + 2)) (o + 2),
          need (within 64 (u8 b (o + 4)) 128) (o + 4), need (u8 b (o + 6) ≤ 128) (o + 6), need (u8 b (o + 7) = 0) (o + 7)]),
     perEntry n (fun k =>
       let o := 272 + 8 * w + 8 * k
       firstOf
         [need (u8 b o ≤ 3) o, need (u8 b (o + 1) ≤ 63) (o + 1), need (u8 b (o + 2) ≤ 15) (o + 2),
          need (u8 b (o + 3) < w) (o + 3), need (u8 b (o + 5) ≤ 3) (o + 5), zeros b (o + 6) (o + 8)])])

/-- Debug enables: bits 0 and 1 only, invasive requires non-invasive (R279). -/
def dbgByte (v : Nat) : Bool := v == 0 || v == 2 || v == 3

/-- R279. -/
def checkDbg (b : List Byte) : Chk :=
  withLength b 16 (firstOf [need (dbgByte (u8 b 0)) 0, need (dbgByte (u8 b 1)) 1, need (u16 b 2 < 512) 2, zeros b 4 16])

/-- R74. -/
def checkPwr (b : List Byte) : Chk :=
  withLength b 16 (firstOf
    [need (bit (u8 b 0) 0 = 1 && u8 b 0 < 32) 0, need (u8 b 1 = 0) 1, need (u16 b 2 < 2048) 2, zeros b 4 16])

/-- R37. The key is an uncompressed point, so its first byte is 4. A `slot_hint` above 1 names no slot (log entry 72). -/
def checkSign (b : List Byte) : Chk :=
  withLength b 208 (firstOf
    [need (u16 b 0 = 1) 0, need (u8 b 2 ≤ 1) 2, zeros b 3 8, need (u8 b 8 = 4) 8, zeros b 105 112])

/-- The format check of one section. -/
def checkSection (r : Recipe) (id : Nat) : Chk :=
  let b := r.sec id
  match id with
  | 1 => checkIdent b
  | 2 => checkCompat b
  | 3 => checkPart b
  | 4 => checkMem b
  | 5 => checkOut b
  | 6 => checkLayer b
  | 7 => checkGlaze r
  | 8 => checkTime b
  | 9 => checkFab b
  | 10 => checkIo r
  | 11 => checkAud b
  | 12 => checkTch b
  | 13 => checkHap b
  | 14 => checkDbg b
  | 15 => checkPwr b
  | _ => checkSign b

/-- The sections that R31 requires. -/
def requiredSections : List Nat := [1, 2, 3, 4, 5, 6, 7, 8, 10, 14, 15, 16]

/-- The header as the CRC covers it: bytes 0 to 63 with the CRC field set to 0 (R29). -/
def crcHeader (img : List Byte) : List Byte := img.take 20 ++ leBytes 4 0 ++ slice img 24 40

/-- R29: the header; `len` is the length of the image that was fetched (R399). A length that holds no header is reported at
`total_size`. -/
def checkHeader (img : List Byte) (len : Nat) : Chk :=
  if len < 64 then some 8 else firstOf
    [need (u32 img 0 = 0x4B435644) 0, need (u16 img 4 = 3) 4, need (u16 img 6 = 64) 6,
     need (within 64 (u32 img 8) 16777216 && u32 img 8 = len) 8, need (within 12 (u16 img 12) 16) 12,
     need (u16 img 14 = 0) 14, need (u32 img 16 = 64) 16, need (u32 img 20 = crc32 (crcHeader img)) 20, zeros img 32 64]

/-- R30: directory entry e of n, at image offset 64 + 16 e. -/
def checkDirEntry (img : List Byte) (n e : Nat) : Chk :=
  let o := 64 + 16 * e
  let off := u32 img (o + 4)
  let len := u32 img (o + 8)
  need (within 1 (u16 img o) 16 && (e = 0 || u16 img (o - 16) < u16 img o) && u16 img (o + 2) = 1 &&
    off % 16 = 0 && 64 + 16 * n ≤ off && off + len ≤ u32 img 8 && u32 img (o + 12) = 0 &&
    (List.range e).all (fun e' =>
      let q := 64 + 16 * e'
      decide (u32 img (q + 4) + u32 img (q + 8) ≤ off) || decide (off + len ≤ u32 img (q + 4))) &&
    (u16 img o ≠ 16 || off + len = u32 img 8)) o

/-- The sections of an image, by its directory. -/
def imageRecipe (img : List Byte) : Recipe :=
  ⟨u32 img 8, (List.range (u16 img 12)).map (fun e =>
    let o := 64 + 16 * e
    (u16 img o, u32 img (o + 4), slice img (u32 img (o + 4)) (u32 img (o + 8))))⟩

/-- R28: the padding from the end of a part to the next section or the end of the image must be 0. -/
def checkPadding (img : List Byte) (r : Recipe) (end_ : Nat) : Chk :=
  zeros img end_ (((r.sections.map (·.2.1)).filter (fun o => decide (end_ ≤ o))).foldl min (u32 img 8))

/-- A failure named by its section. -/
def inSection (id : Nat) (c : Chk) : Option FormatError := c.map (fun o => ⟨id, o⟩)

/-- Of two failures, the one at the lower offset. -/
def earlierError : Option FormatError → Option FormatError → Option FormatError
  | some x, some y => some (if y.offset < x.offset then y else x)
  | some x, none => some x
  | none, y => y

/-- R47: the first failing byte after the directory. Padding counts to the section that it follows, and to 255 after the directory
(log entry 70). -/
def bodyError (img : List Byte) (r : Recipe) : Option FormatError :=
  r.sections.foldl (fun a s => earlierError a (earlierError (inSection s.1 ((checkSection r s.1).map (s.2.1 + ·)))
      (inSection s.1 (checkPadding img r (s.2.1 + s.2.2.length)))))
    (inSection 255 (checkPadding img r (64 + 16 * u16 img 12)))

/-- The format checks of order 1 in R47: header, directory, required sections (log entry 70), then what follows, by the first
failing byte. `len` is the length that was fetched: SYS_RCP_PUSH_LEN for a push, `total_size` for flash (R399). -/
def formatError (img : List Byte) (len : Nat) : Option FormatError :=
  match checkHeader img len with
  | some o => some ⟨0, o⟩
  | none =>
    let n := u16 img 12
    match perEntry n (checkDirEntry img n) with
    | some o => some ⟨255, o⟩
    | none =>
      let r := imageRecipe img
      match requiredSections.find? (fun id => !r.has id) with
      | some id => some ⟨255, 64 + 16 * (r.sections.filter (fun s => decide (s.1 < id))).length⟩
      | none => bodyError img r

end Sys2Proof.Machine
end

