-- ==== Sys2Proof/Machine/IslCmd.lean ====
section
/-! DEFINITION. The commands of the island (10_glaze_island.md, R276): lockstep pairs, the mailbox, commits, passes, renderers and
the status line. -/

namespace Sys2Proof.Machine

/-! ### Lockstep pairs (R222 to R225) -/

/-- What the firmware keeps in a checkpoint now. -/
def State.checkpointNow (s : State) : Checkpoint := ⟨s.islandTime, (List.range 8).map (fun o => (o, (s.glz o).hbPhase))⟩

/-- The newest complete checkpoint. -/
def State.newest (s : State) : Checkpoint := if s.isl.ckptNew then s.isl.ckpt.2 else s.isl.ckpt.1

/-- CHECKPOINT: the active pair overwrites the older of the two copies. What it has done by now it will not do again, and it
acknowledges the events that it has seen (R223). -/
def State.checkpoint (s : State) : State :=
  if s.islWorks then
    let c := s.checkpointNow
    { s with isl := { s.isl with
      ckpt := if s.isl.ckptNew then (c, s.isl.ckpt.2) else (s.isl.ckpt.1, c)
      ckptNew := !s.isl.ckptNew, work := []
      pend := s.isl.pend.filter (fun n => !s.isl.seen.contains n), seen := [] } }
  else s

/-- CHECKPOINT (R222). -/
def execCheckpoint (s : State) : Host.Outcome State Fault Refusal := done State.checkpoint s

/-- LOCKSTEP_ERROR: the active pair fails, or during a switch the pair that resumes. With a standby pair the switch begins, which
PAIR_SWITCH completes; without one the firmware stops. -/
def State.lockstepError (s : State) : State :=
  if s.islRuns then
    let a := s.fget F.ISL_STATUS.active_pair
    let s' := s.failPair (if s.isl.switching then 1 - a else a)
    let s' :=
      if s.flag F.ISL_STATUS.standby_ok then
        { s' with isl := { s'.isl with switching := true } }.fset F.ISL_STATUS.standby_ok 0
      else { s' with isl := { s'.isl with firmware := false, switching := false } }
    s'.refreshIsl
  else s

/-- LOCKSTEP_ERROR (R222, R224). -/
def execLockstepError (s : State) : Host.Outcome State Fault Refusal := done State.lockstepError s

/-! ### Messages (R244, R276) -/

/-- The output has a normal list that the main domain may reach: the recipe is admitted and gives it glaze (log entry 52). -/
def State.hasList (s : State) (o : Nat) : Bool := s.admitted && decide (o < 8) && !(s.glzCopy o).back.normal.isEmpty

/-- R235: the bytes that a GLZ_EDIT may change in a record: byte 2, bytes 8 onwards, and `visible` of byte 3. -/
def editKeeps (old new : List Byte) : Bool :=
  bit (u8 old 3) 2 == 1 && slice new 0 2 == slice old 0 2 && slice new 4 4 == slice old 4 4 &&
    u8 new 3 / 2 == u8 old 3 / 2

/-- R235, R244: the status of an edit. -/
def State.editStatus (s : State) (o i off : Nat) (b : List Byte) : Nat :=
  match recordAt (s.glzCopy o).back.normal i with
  | some r =>
    if !s.hasList o || b.isEmpty || decide (16 < b.length) || decide (r.2.length < off + b.length) then 2
    else if !editKeeps r.2 (patch r.2 off b) then 3
    else if (checkPrim (s.recipe.sec 7) (patchRecord (s.glzCopy o).back.normal i off b) r.1 (s.recipe.outMaxH o)
      (s.recipe.outMaxV o)).isSome then 2
    else 0
  | none => 2

/-- R234: an edit goes to the back buffer; an immediate one to both, at once. -/
def State.editList (s : State) (imm : Bool) (o i off : Nat) (b : List Byte) : State :=
  let f (l : GlazeLists) : GlazeLists := { l with normal := patchRecord l.normal i off b }
  let x := s.glz o
  if imm then
    (s.setGlz o { x.onCopies (fun y => { y with back := f y.back, front := f y.front }) with
      commits := x.commits.map (fun c => { c with lists := f c.lists }) }).setOut o { s.out o with glazeChanged := true }
  else s.setGlz o (x.onCopies (fun y => { y with back := f y.back }))

/-- GLZ_EDIT. -/
def State.mailEdit (s : State) (chan : Nat) (seq : W32) (imm : Bool) (o i off : Nat) (b : List Byte) : State :=
  let st := s.editStatus o i off b
  (if st = 0 then s.editList imm o i off b else s).mailReply chan 1 st seq []

/-- GLZ_COMMIT: the back buffers of the named outputs as they stand now; the reply follows the change of the last one. -/
def State.mailCommit (s : State) (chan : Nat) (seq : W32) (mask : Byte) : State :=
  let outs := (List.range 8).filter (fun o => mask.getLsbD o)
  if outs.all s.hasList then
    if outs.isEmpty then s.mailReply chan 2 0 seq []
    else
      let waits := s.isl.waits.filter (fun w => w.chan != chan) ++ [⟨chan, seq, outs⟩]
      forEach outs (fun o s =>
        s.request o { s.snap o with
          lists := { (s.snap o).lists with normal := (s.glzCopy o).back.normal }, chans := [chan] })
        { s with isl := { s.isl with waits := waits } }
  else s.mailReply chan 2 2 seq []

/-- GLZ_READ: the record bytes of the back buffer. -/
def State.mailRead (s : State) (chan : Nat) (seq : W32) (o i : Nat) : State :=
  match recordAt (s.glzCopy o).back.normal i with
  | some r => if s.hasList o then s.mailReply chan 3 0 seq r.2 else s.mailReply chan 3 2 seq []
  | none => s.mailReply chan 3 2 seq []

/-- The payload of a STATUS reply: ISL_STATUS and the 8 ISL_GLAZE_STATUS words. -/
def State.statusBytes (s : State) : List Byte :=
  leBytes 4 (s.get .ISL_STATUS).toNat ++
    (List.range 8).flatMap (fun o => leBytes 4 (s.get .ISL_GLAZE_STATUS o).toNat)

/-- MAIN_ALIVE: no reply. -/
def State.mailAlive (s : State) (chan : Nat) : State :=
  ({ s with isl := { s.isl with alive := true } }.mailFree chan).refreshIsl

/-- RNG_READ: bytes from the TRNG, which are free values. -/
def State.mailRandom (s : State) (chan : Nat) (seq : W32) (n : Nat) : State :=
  if 1 ≤ n ∧ n ≤ 32 then { s with draws := s.draws + n }.mailReply chan 16 0 seq (freeBytes s.draws n)
  else s.mailReply chan 16 2 seq []

/-- SEAL: an IV that was never used before, then ciphertext and tag. -/
def State.mailSeal (s : State) (chan : Nat) (seq : W32) (plain : List Byte) : State :=
  if plain.isEmpty || decide (200 < plain.length) then s.mailReply chan 17 2 seq []
  else
    let iv : BitVec 96 := BitVec.ofNat 96 s.draws
    s.drawn.mailReply chan 17 0 seq (leBytes 12 iv.toNat ++ Config.sealData iv plain)

/-- UNSEAL: the data, or BAD_ARG when the tag fails. -/
def State.mailUnseal (s : State) (chan : Nat) (seq : W32) (x : List Byte) : State :=
  match Config.unsealData x with
  | some plain => s.mailReply chan 18 0 seq plain
  | none => s.mailReply chan 18 2 seq []

/-- DBG_STATE: the debug enables. -/
def State.mailDebug (s : State) (chan : Nat) (seq : W32) : State :=
  s.mailReply chan 19 0 seq (leBytes 1 ((s.get .CPX_DBG_EN).toNat % 16))

/-- R244: the channel carries the command. Channel 0 carries MAIN_ALIVE and not 16 to 63. -/
def carries (chan cmd : Nat) : Bool :=
  if cmd = 4 then chan == 0 else if 16 ≤ cmd ∧ cmd ≤ 63 then chan == 1 else true

/-- Work that a pair resuming from the newest checkpoint does again (R223). -/
def State.noteWork (s : State) (w : IslWork) : State := { s with isl := { s.isl with work := s.isl.work ++ [w] } }

/-- The firmware carries out a message. -/
def State.mailDo (s : State) (chan : Nat) (m : Mail) : State :=
  if carries chan m.cmd then
    match m.req with
    | .malformed => s.mailReply chan m.cmd 2 m.seq []
    | .unlisted => s.mailReply chan m.cmd 1 m.seq []
    | .edit imm o i off b => s.mailEdit chan m.seq imm o i off b
    | .commit mask => s.mailCommit chan m.seq mask
    | .read o i => s.mailRead chan m.seq o i
    | .alive => s.mailAlive chan
    | .status => s.mailReply chan 5 0 m.seq s.statusBytes
    | .random n => s.mailRandom chan m.seq n
    | .seal p => s.mailSeal chan m.seq p
    | .unseal x => s.mailUnseal chan m.seq x
    | .debug => s.mailDebug chan m.seq
  else s.mailReply chan m.cmd 5 m.seq []

/-- The firmware takes a message. -/
def State.mailTake (s : State) (chan : Nat) (m : Mail) : State := (s.noteWork (.mail chan m)).mailDo chan m

/-- R244: `go` sends a message; it has no effect while one is outstanding. While no pair does the work, the message waits. -/
def State.mailSend (s : State) (chan : Nat) (m : Mail) : State :=
  if !s.clocked .ISL || s.flag F.ISL_MBOX_STATUS.tx_busy chan then s
  else
    let s := s.fset F.ISL_MBOX_STATUS.tx_busy 1 chan
    if s.islWorks then s.mailTake chan m
    else { s with isl := { s.isl with mail := Tbl.set none s.isl.mail chan (some m) } }

/-- A pair that resumes takes the messages that wait. -/
def State.mailResume (s : State) : State :=
  forEach [0, 1] (fun c s =>
    match Tbl.get none s.isl.mail c with
    | some m => { s with isl := { s.isl with mail := Tbl.set none s.isl.mail c none } }.mailTake c m
    | none => s) s

/-- R223: a piece of work done since the checkpoint, once more: bindings, critical touches and heartbeats in the next pass, messages
at once. -/
def State.redo (s : State) (w : IslWork) : State :=
  match w with
  | .ind x => { s with isl := { s.isl with indications := s.isl.indications ++ [x] } }
  | .touch c r p => { s with isl := { s.isl with again := s.isl.again ++ [(c, r, p)] } }
  | .heartbeat o => s.setGlz o { s.glz o with hbDue := true }
  | .mail c m => s.mailTake c m

/-- R222, R223: a pair resumes the firmware from the newest checkpoint: work done since comes first, in its order, and what waits
after it. -/
def State.resume (s : State) : State :=
  let w := s.isl.work
  let later := s.isl.indications
  let s := { s with isl := { s.isl with firmware := true, switching := false, work := [], seen := [], indications := [] } }
  let s := forEach (List.range 8) (fun o s => s.setGlz o { s.glz o with hbPhase := Tbl.get false s.newest.phases o }) s
  let s := forEach w (fun x s => s.redo x) s
  { s with isl := { s.isl with indications := s.isl.indications ++ later } }.refreshIsl.mailResume

/-- PAIR_SWITCH: the standby pair has resumed from the newest checkpoint. -/
def State.pairSwitch (s : State) : State :=
  if s.islRuns && s.isl.switching then
    let s := s.fset F.ISL_STATUS.active_pair (1 - s.fget F.ISL_STATUS.active_pair)
    ((s.bump F.ISL_PAIR_SWITCH_COUNT.count).resume).raise 120
  else s

/-- PAIR_SWITCH (R222). -/
def execPairSwitch (s : State) : Host.Outcome State Fault Refusal := done State.pairSwitch s

/-- The request that a message's bytes spell. -/
def mailReq (cmd flags : Nat) (b : List Byte) : MailReq :=
  match cmd with
  | 1 =>
    if 9 ≤ b.length ∧ allZero b 5 8 ∧ u8 b 4 ≤ b.length - 8 ∧ 1 ≤ u8 b 4 then
      .edit (flags % 2 == 1) (u8 b 0) (u16 b 1) (u8 b 3) (slice b 8 (u8 b 4))
    else .malformed
  | 2 => if 4 ≤ b.length ∧ allZero b 1 4 then .commit (b.getD 0 0) else .malformed
  | 3 => if 4 ≤ b.length ∧ u8 b 3 = 0 then .read (u8 b 0) (u16 b 1) else .malformed
  | 4 => .alive
  | 5 => .status
  | 16 => if b.isEmpty then .malformed else .random (u8 b 0)
  | 17 => if 1 ≤ b.length ∧ 1 ≤ u8 b 0 ∧ u8 b 0 ≤ b.length - 1 then .seal (slice b 1 (u8 b 0)) else .malformed
  | 18 => .unseal b
  | 19 => .debug
  | _ => .unlisted

/-- A message of up to 256 bytes as the mailbox carries it. -/
def mailOf (b : List Byte) : Mail :=
  ⟨u8 b 0, BitVec.ofNat 32 (u32 b 4), if 248 < u16 b 2 then .malformed else mailReq (u8 b 0) (u8 b 1) (slice b 8 (u16 b 2))⟩

/-- The message in the transmit registers of a channel. -/
def State.mailTx (s : State) (chan : Nat) : Mail :=
  mailOf ((List.range 64).flatMap (fun k => leBytes 4 (s.get .ISL_MBOX_TX chan k).toNat))

/-- GLZ_EDIT (R235). -/
def execGlzEdit (chan : Fin 2) (seq : W32) (immediate : Bool) (out index offset : Nat) (bytes : List Byte) (s : State) :
    Host.Outcome State Fault Refusal :=
  done (fun s => s.mailSend chan ⟨1, seq, .edit immediate out index offset bytes⟩) s

/-- GLZ_COMMIT (R234). -/
def execGlzCommit (chan : Fin 2) (seq : W32) (mask : Byte) (s : State) : Host.Outcome State Fault Refusal :=
  done (fun s => s.mailSend chan ⟨2, seq, .commit mask⟩) s

/-- GLZ_READ (R244). -/
def execGlzRead (chan : Fin 2) (seq : W32) (out index : Nat) (s : State) : Host.Outcome State Fault Refusal :=
  done (fun s => s.mailSend chan ⟨3, seq, .read out index⟩) s

/-- MAIN_ALIVE (R240). -/
def execMainAlive (chan : Fin 2) (seq : W32) (s : State) : Host.Outcome State Fault Refusal :=
  done (fun s => s.mailSend chan ⟨4, seq, .alive⟩) s

/-- STATUS (R244). -/
def execStatus (chan : Fin 2) (seq : W32) (s : State) : Host.Outcome State Fault Refusal :=
  done (fun s => s.mailSend chan ⟨5, seq, .status⟩) s

/-- RNG_READ (R276). -/
def execRngRead (chan : Fin 2) (seq : W32) (count : Nat) (s : State) : Host.Outcome State Fault Refusal :=
  done (fun s => s.mailSend chan ⟨16, seq, .random count⟩) s

/-- SEAL (R276). -/
def execSeal (chan : Fin 2) (seq : W32) (plain : List Byte) (s : State) : Host.Outcome State Fault Refusal :=
  done (fun s => s.mailSend chan ⟨17, seq, .seal plain⟩) s

/-- UNSEAL (R276). -/
def execUnseal (chan : Fin 2) (seq : W32) (sealed : List Byte) (s : State) : Host.Outcome State Fault Refusal :=
  done (fun s => s.mailSend chan ⟨18, seq, .unseal sealed⟩) s

/-- DBG_STATE (R276). -/
def execDbgState (chan : Fin 2) (seq : W32) (s : State) : Host.Outcome State Fault Refusal :=
  done (fun s => s.mailSend chan ⟨19, seq, .debug⟩) s

/-- The owner of a mailbox channel: the manager of channel 0, inner-world code of channel 1. -/
def mailOwner (a : Agent) (chan : Nat) : Bool := if chan = 0 then a == .manager else a == .inner

/-- ISL_MBOX_RX_POP: the oldest message goes; no effect without one. -/
def State.mailPop (s : State) (chan : Nat) : State := s.setMailRx chan ((s.mailRx chan).drop 1)

/-- ISL_MBOX_RX_POP (R244): by the owner of the channel; a write of the other agent of the ISL window is ignored. -/
def execIslMboxRxPop (a : Agent) (chan : Fin 2) (s : State) : Host.Outcome State Fault Refusal :=
  done (fun s =>
    if !s.clocked .ISL || !(a == .manager || a == .inner) then s.emit (.busError a)
    else if mailOwner a chan then s.mailPop chan else s) s

/-! ### The self-test (R224) -/

/-- PAIR_SELF_TEST: a pair that passes loads the newest checkpoint and becomes standby; where no pair runs, it resumes the
firmware from it. A failed self-test counts as a failure and is repeated. The pair that failed is tested after the switch. -/
def State.pairSelfTest (s : State) (p : Nat) (pass : Bool) : State :=
  let failing := s.isl.switching && p == s.fget F.ISL_STATUS.active_pair
  if (s.pair p).testing && s.dom.island == .running && !failing then
    if pass then
      let s := s.setPair p { s.pair p with testing := false, loaded := some s.newest }
      if s.isl.firmware then s.fset F.ISL_STATUS.standby_ok 1 else (s.fset F.ISL_STATUS.active_pair p).resume
    else s.failPair p
  else s

/-- PAIR_SELF_TEST (R224). -/
def execPairSelfTest (pair : Fin 2) (pass : Bool) (s : State) : Host.Outcome State Fault Refusal :=
  done (fun s => s.pairSelfTest pair pass) s

/-- SRAM_CORRECTED_ERROR (R225). -/
def State.sramCe (s : State) : State :=
  if s.dom.island == .inReset then s else (s.bump F.ISL_SRAM_CE_COUNT.count).raise 129

/-- SRAM_CORRECTED_ERROR (R225). -/
def execSramCorrectedError (s : State) : Host.Outcome State Fault Refusal := done State.sramCe s

/-! ### Commits, passes and status -/

/-- COMMIT_TAKES_EFFECT (R234): the halves of a locked pair change at the same line. -/
def execCommitTakesEffect (o : Fin 8) (s : State) : Host.Outcome State Fault Refusal :=
  done (fun s => (forEach (s.bothHalves o) (fun o s => s.commitEffect o) s).refreshIsl) s

/-- R235: what a binding does to the normal list with a value. -/
def applyBinding (b : List Byte) (v : Nat) (l : List Byte) : List Byte :=
  match recordAt l (u16 b 4) with
  | none => l
  | some r =>
    match u8 b 6 with
    | 1 => patch l (r.1 + 2) [BitVec.ofNat 8 v]
    | 2 => patch l (r.1 + 3) [BitVec.ofNat 8 (u8 r.2 3 / 2 * 2 + (if v = 0 then 0 else 1))]
    | 3 => patch l (r.1 + 16 + 2 * u8 b 7) (leBytes 2 (u16 r.2 12 + v))
    | _ => l

/-- R235: the bindings of an indication, each on its output. -/
def State.bindIndication (s : State) (x : Indication) : List ListEdit :=
  (((List.range s.recipe.bindCount).map s.recipe.binding).filter (fun b => u16 b 0 == x.indId.toNat)).map (fun b =>
    (u8 b 3, fun l => { l with normal := applyBinding b (u8 x.body (u8 b 2)) l.normal }))

/-- R130: the island originates a change of an `ind_id`: the copies of an older one are replaced. -/
def State.originate (s : State) (indId : BitVec 16) (body : List Byte) : State :=
  let now := s.gridTime
  let old := s.fab.origin.find? (fun x => x.indId == indId)
  let x : Indication := ⟨s.star, indId, (old.map (fun y => y.change + 1)).getD 1, now, body, now⟩
  { s with fab := { s.fab with
    origin := s.fab.origin.filter (fun y => y.indId != indId) ++ [x]
    copies := s.fab.copies.filter (fun c => c.indId != indId) ++ [⟨indId, 1, now⟩] } }

/-- The `ind_id` of a region with `ind` set, on an express origin (R331). -/
def State.touchInd (s : State) (c r : Nat) : Option (BitVec 16) :=
  match (s.recipe.regionsOf c).find? (fun b => u8 b 1 == r) with
  | none => none
  | some b =>
    if bit (u8 b 10) 2 = 1 ∧ s.numbered ∧ s.recipe.expressOrigins.contains s.star.toNat then some (BitVec.ofNat 16 (u16 b 12)) else none

/-- R331: a change of a region with `ind` set originates an INDICATION. The 62 bytes of state are free values (log entry 53). -/
def State.touchIndication (s : State) (c r : Nat) : State :=
  match s.touchInd c r with
  | none => s
  | some n => { s with draws := s.draws + 62 }.originate n (freeBytes s.draws 62)

/-- R223: a touch handled again sends its INDICATION again, with the same `change_count`. -/
def State.touchAgain (s : State) (c r : Nat) : State :=
  match (s.touchInd c r).bind (fun n => s.fab.origin.find? (fun x => x.indId == n)) with
  | none => s
  | some x =>
    { s with fab := { s.fab with
      copies := s.fab.copies.filter (fun y => y.indId != x.indId) ++ [⟨x.indId, 1, s.gridTime⟩] } }

/-- ISLAND_PASS (R236): the bindings of the indications accepted, in arrival order, the critical touches, the heartbeats due,
and one commit of it all per output. The pass has seen the events that were pending (R223). -/
def State.islandPass (s : State) : State :=
  if s.islWorks then
    let inds := s.isl.indications
    let touches := s.isl.touches
    let again := s.isl.again
    let beats := (List.range 8).filter (fun o => (s.glz o).hbDue)
    let done := inds.map IslWork.ind ++ (again ++ touches).map (fun t => IslWork.touch t.1 t.2.1 t.2.2) ++
      beats.map IslWork.heartbeat
    let s := { s with isl := { s.isl with
      indications := [], touches := [], again := [], seen := s.isl.pend, work := s.isl.work ++ done } }
    let s := forEach again (fun t s => s.touchAgain t.1 t.2.1) s
    let s := forEach touches (fun t s => s.touchIndication t.1 t.2.1) s
    let s := forEach beats (fun o s => s.toggleHb o) s
    let edits := inds.flatMap s.bindIndication ++ beats.map (fun o => hbEdit o (s.glz o).hbPhase)
    (forEach (List.range 8) (fun o s => s.islandEdit edits o) s).refreshIsl
  else s

/-- ISLAND_PASS (R236). -/
def execIslandPass (s : State) : Host.Outcome State Fault Refusal := done State.islandPass s

/-- RENDERER_RELOAD (R238): a FAILED renderer that is not held is reset, reloads the active renderer's copy, and is checked
for one whole frame. -/
def State.rendererReload (s : State) (o r : Nat) : State :=
  let y := (s.glz o).rend r
  if s.rendState o r = 3 ∧ !y.held ∧ s.rendState o (1 - r) = 1 then
    s.setGlz o ((s.glz o).withRend r { y with copy := ((s.glz o).rend (1 - r)).copy, checking := true, equal := true })
  else s

/-- RENDERER_RELOAD (R238). -/
def execRendererReload (o : Fin 8) (r : Fin 2) (s : State) : Host.Outcome State Fault Refusal :=
  done (fun s => s.rendererReload o r) s

/-- MAIN_ALIVE_TIMEOUT (R240). -/
def execMainAliveTimeout (s : State) : Host.Outcome State Fault Refusal :=
  done (fun s => { s with isl := { s.isl with alive := false } }.refreshIsl) s

/-- R241: the word that shows the state now, with its counter and odd parity. -/
def State.glazeWord (s : State) : BitVec 16 :=
  let w : Nat := 6 * 4096 + s.fget F.ISL_STATUS.glaze_valid * 256 + s.rcp.limited.toNat * 128 + s.mainOkNow.toNat * 64 +
    s.islRuns.toNat * 32 + s.fget F.ISL_STATUS.standby_ok * 16 + s.isl.wordCount.toNat * 2
  BitVec.ofNat 16 (w + (((List.range 16).map (bit w)).sum + 1) % 2)

/-- GLAZE_STATUS_WORD: the word is sent; the line stops during island reset and in Night and Eclipse. -/
def State.sendGlazeWord (s : State) : State :=
  if s.dom.island == .inReset || decide (3 ≤ s.pwr.state) then s
  else { s with isl := { s.isl with word := s.glazeWord, wordCount := s.isl.wordCount + 1 } }.emit (.glazeWord s.glazeWord)

/-- GLAZE_STATUS_WORD (R241). -/
def execGlazeStatusWord (s : State) : Host.Outcome State Fault Refusal := done State.sendGlazeWord s

/-! ### The line check (R237) -/

/-- R237: the standby renderer takes over; the old active one has failed. Without a standby both have failed, and the output
stops mixing (R238). -/
def State.switchRend (s : State) (o : Nat) : State :=
  let a := s.fget F.ISL_GLAZE_STATUS.active o
  let has := s.rendState o (1 - a) == 2
  let s := s.failRend o a false
  if has then
    let s := ((s.setRend o (1 - a) 1).fset F.ISL_GLAZE_STATUS.active (1 - a) o).bump F.ISL_RENDER_SWITCH_COUNT.count
    (s.setGlz o { s.glz o with switched := true }).raise 122
  else s

/-- R238: a renderer under its whole-frame check differed from the active one on a line. -/
def GlazeOut.spoil (x : GlazeOut) (r : Nat) : GlazeOut := x.withRend r { x.rend r with equal := false }

/-- What the line check compares (R237): the CRCs of the active renderer, of the other one, and at the PHY input. -/
structure LineCrcs where
  active : W32
  other : W32
  phy : W32
  deriving DecidableEq, Repr

/-- R237: the rows of the table, in order. -/
def State.lineRows (s : State) (o : Nat) (first : Bool) (b : LineObs) (c : LineCrcs) : State :=
  let a := s.fget F.ISL_GLAZE_STATUS.active o
  let standby := s.rendState o (1 - a) == 2
  if b.activeLockstep then s.switchRend o
  else if c.active != c.phy then
    if first then ((s.fset F.ISL_GLAZE_STATUS.path_fault 1 o).fset F.ISL_GLAZE_STATUS.check_ok 0 o).raise 124
    else s.switchRend o
  else if standby && (b.standbyLockstep || c.other != c.active) then s.failRend o (1 - a) true
  else s.fset F.ISL_GLAZE_STATUS.check_ok 1 o

/-- LINE_END, the check: a line whose CRCs differ is counted. It is suspended on an output that sleeps in Twilight. -/
def State.lineCheck (s : State) (o : Nat) (b : LineObs) (c : LineCrcs) : State :=
  if s.mixes o && !s.outSleeps o then
    let a := s.fget F.ISL_GLAZE_STATUS.active o
    let x := s.glz o
    let differs := c.active != c.phy || (s.rendState o (1 - a) == 2 && c.other != c.active)
    let y := { x with switched := false, mismatch := x.mismatch || differs }
    let y := if b.standbyLockstep || c.other != c.active then y.spoil (1 - a) else y
    let s := s.setGlz o y
    let s := if differs then s.bump F.ISL_LINE_MISMATCH_COUNT.count else s
    (s.lineRows o x.switched b c).refreshIsl
  else s

end Sys2Proof.Machine
end

