-- ==== Sys2Proof/Machine/CoreCmd.lean ====
section
/-! DEFINITION. The commands of the application cores (12_cores_worlds.md): WCALL services, `mworld`, debug enables, the directory
of the L3, and cache errors. -/

namespace Sys2Proof.Machine

/-! ### The trap of a WCALL (R274, R275) -/

/-- R274: the trap of a WCALL, from every mode. The monitor's MRET goes back to that mode, so a call leaves it as it was. -/
def State.wcallTrap (s : State) (n : Nat) (service : BitVec 12) : State :=
  let s := s.warm n
  s.setCore n { s.core n with
    mepc := (s.core n).pc, mcause := 24, mtval := service.zeroExtend 64
    mtinst := service.zeroExtend 32 <<< 20 ||| 0xB#32, pworld := s.coreInner n }

/-- The status values of R275. -/
def statOk : BitVec 64 := 0
/-- STAT_NOSVC. -/
def statNosvc : BitVec 64 := -1
/-- STAT_PERM. -/
def statPerm : BitVec 64 := -2
/-- STAT_ARG. -/
def statArg : BitVec 64 := -3
/-- STAT_AGAIN. -/
def statAgain : BitVec 64 := -4

/-- Argument register k of a core. -/
def CoreState.arg (x : CoreState) (k : Nat) : BitVec 64 := x.a.getD k 0

/-- The values that the monitor leaves in a1 to a3: given ones, and free values where the call returns none. -/
def resultRegs (d : Nat) (r : List (BitVec 64)) : List (BitVec 64) :=
  (List.range 3).map (fun k => match r[k]? with | some v => v | none => BitVec.ofNat 64 (Config.freeNat (d + k)))

/-- R274, R275: the monitor returns to the instruction after the WCALL, with the status in a0 and results in a1 to a3. -/
def State.wcallRet (s : State) (n : Nat) (status : BitVec 64) (r : List (BitVec 64)) : State :=
  let x := s.core n
  { s with draws := s.draws + 3 }.setCore n
    { x with pc := x.mepc + 4, a := status :: resultRegs s.draws r ++ x.a.drop 4 }

/-! ### The services (R275) -/

/-- The core belongs to a partition of the inner world. -/
def State.innerPartition (s : State) (n : Nat) : Bool :=
  match s.recipe.corePartition n with
  | some p => s.recipe.partWorld p == 1
  | none => false

/-- VERSION. -/
def State.svcVersion (s : State) (n : Nat) : State :=
  s.wcallRet n statOk [Config.monitorInterface, BitVec.ofNat 64 (s.fget F.SYS_RCP_IFACE.island_if)]

/-- ENTER: to the entry point a0 of the core's inner partition; the outer context to return to is saved. -/
def State.svcEnter (s : State) (n : Nat) : State :=
  let x := s.core n
  if s.coreInner n || !s.innerPartition n then s.wcallRet n statPerm []
  else (s.setCore n { x with saved := some (x.mepc + 4), pc := x.arg 0 }).setWorld n true

/-- RETURN: back to the outer context that ENTER saved; a1 to a3 carried over. -/
def State.svcReturn (s : State) (n : Nat) : State :=
  let x := s.core n
  match x.saved with
  | some pc =>
    if s.coreInner n then (s.setCore n { x with saved := none, pc := pc, a := statOk :: x.a.drop 1 }).setWorld n false
    else s.wcallRet n statPerm []
  | none => s.wcallRet n statPerm []

/-- DBG_LOWER and CPX_DBG_EN (R280): enables only fall; an invasive one takes the non-invasive one of its world along. A core
halted in a world that loses its invasive enable resumes. -/
def State.lowerDebug (s : State) (mask : Nat) : State :=
  let m := mask % 16
  let m := m ||| (if bit m 0 = 1 then 2 else 0) ||| (if bit m 2 = 1 then 8 else 0)
  let s := s.put .CPX_DBG_EN (s.get .CPX_DBG_EN &&& ~~~(BitVec.ofNat 32 m))
  forEach (List.range 8) (fun n s => if s.invasive (s.coreInner n) then s else s.clearBit .CPX_STATUS (8 + n)) s

/-- DBG_LOWER. -/
def State.svcDbgLower (s : State) (n : Nat) : State :=
  if s.coreInner n then (s.lowerDebug ((s.core n).arg 0).toNat).wcallRet n statOk [] else s.wcallRet n statPerm []

/-- FENCE_QUERY. -/
def State.svcFenceQuery (s : State) (n : Nat) : State :=
  s.wcallRet n statOk [if s.innerRegion ((s.core n).arg 0).toNat then 1 else 0]

/-- 2,048 to 4,095: to the service vector of the core's inner partition. -/
def State.svcPartition (s : State) (n : Nat) : State :=
  let x := s.core n
  match x.vector with
  | some v =>
    if s.innerPartition n then
      (s.setCore n { x with saved := if s.coreInner n then x.saved else some (x.mepc + 4), pc := v }).setWorld n true
    else s.wcallRet n statNosvc []
  | none => s.wcallRet n statNosvc []

/-- The range of n bytes is memory that the inner world of a core reaches (R20, R271). -/
def State.memRange (s : State) (core addr n : Nat) : Bool :=
  let owner := 64 + (s.recipe.corePartition core).getD 0
  s.admitsTo true owner addr && s.admitsTo true owner (addr + (n - 1)) && !s.inCheckArea addr n

/-- ISL_CALL: what the exchange on mailbox channel 1 gives: the reply, or none while it is not there. A reply that waits for
this message is taken before the message is sent again (log entry 60). -/
def State.islExchange (s : State) (msg : List Byte) : Option (List Byte) × State :=
  let m := mailOf msg
  let mine (b : List Byte) : Bool := u8 b 0 == m.cmd && u32 b 4 == m.seq.toNat
  match (s.mailRx 1).find? mine with
  | some b => (some b, s.setMailRx 1 ((s.mailRx 1).erase b))
  | none =>
    let t := s.mailSend 1 m
    match (t.mailRx 1).find? mine with
    | some b => (some b, t.setMailRx 1 ((t.mailRx 1).erase b))
    | none => (none, t)

/-- ISL_CALL: the caller, the length and the ranges are checked. -/
def State.islCallOk (s : State) (n : Nat) : Bool :=
  let x := s.core n
  let len := (x.arg 1).toNat
  decide (8 ≤ len) && decide (len ≤ 256) && s.memRange n (x.arg 0).toNat len && s.memRange n (x.arg 2).toNat 256

/-- The exchange of a core's ISL_CALL. -/
def State.islCallExchange (s : State) (n : Nat) : Option (List Byte) × State :=
  s.islExchange (s.readBytes ((s.core n).arg 0).toNat ((s.core n).arg 1).toNat)

/-- ISL_CALL: the reply is written at a2. -/
def State.svcIslCall (s : State) (n : Nat) : State :=
  if !s.coreInner n then s.wcallRet n statPerm []
  else if !s.islCallOk n then s.wcallRet n statArg []
  else
    match s.islCallExchange n with
    | (some _, t) => t.wcallRet n statOk []
    | (none, t) => t.wcallRet n statAgain []

/-- The bytes that an ISL_CALL stores. -/
def State.islCallStores (s : State) (n : Nat) : List Store :=
  let t := s.wcallTrap n 16
  if s.coreRuns n && s.coreInner n && s.islCallOk n then
    match (t.islCallExchange n).1 with
    | some b => [(((s.core n).arg 2).toNat, b)]
    | none => []
  else []

/-- R275: the service table. -/
def State.service (s : State) (n service : Nat) : State :=
  if service = 0 then s.svcVersion n
  else if service = 1 then s.svcEnter n
  else if service = 2 then s.svcReturn n
  else if service = 16 then s.svcIslCall n
  else if service = 17 then s.svcDbgLower n
  else if service = 18 then s.svcFenceQuery n
  else if 2048 ≤ service then s.svcPartition n
  else s.wcallRet n statNosvc []

/-- R274, R275: a WCALL of a core that runs. -/
def State.wcall (s : State) (n : Nat) (service : BitVec 12) : State :=
  if s.coreRuns n then (s.wcallTrap n service).service n service.toNat else s

/-- VERSION (R275). -/
def execVersion (core : Fin 8) (s : State) : Host.Outcome State Fault Refusal := done (fun s => s.wcall core 0) s

/-- ENTER (R275). -/
def execEnter (core : Fin 8) (s : State) : Host.Outcome State Fault Refusal := done (fun s => s.wcall core 1) s

/-- RETURN (R275). -/
def execWcallReturn (core : Fin 8) (s : State) : Host.Outcome State Fault Refusal := done (fun s => s.wcall core 2) s

/-- ISL_CALL (R275). -/
def execIslCall (core : Fin 8) (s : State) : Host.Outcome State Fault Refusal :=
  doneMem (fun s => s.islCallStores core) (fun s => s.wcall core 16) s

/-- DBG_LOWER (R275, R280). -/
def execDbgLower (core : Fin 8) (s : State) : Host.Outcome State Fault Refusal := done (fun s => s.wcall core 17) s

/-- FENCE_QUERY (R275). -/
def execFenceQuery (core : Fin 8) (s : State) : Host.Outcome State Fault Refusal := done (fun s => s.wcall core 18) s

/-- The service number of a WCALL word (R273). -/
def serviceOf (w : W32) : BitVec 12 := BitVec.ofNat 12 (w.toNat / 2 ^ 20)

/-- A word that a running core meets: WCALL; another custom-0 word or an absent extension's, an illegal instruction (R267, R273); a
prefetch, which has no effect (R267). What other words do is no part of this command. -/
def State.coreWord (s : State) (n : Nat) (w : W32) : State :=
  if isWcall w then s.wcall n (serviceOf w)
  else if s.coreRuns n then
    if isCustom0 w || isZfh w then (s.warm n).illegal n w
    else if isPrefetch w then (s.warm n).setCore n { (s.warm n).core n with pc := (s.core n).pc + 4 }
    else s
  else s

/-- PARTITION_SERVICE (R273, R275): a WCALL with any service number, from its word. -/
def execPartitionService (core : Fin 8) (word : W32) (s : State) : Host.Outcome State Fault Refusal :=
  doneMem (fun s => if isWcall word && serviceOf word == 16 then s.islCallStores core else []) (fun s => s.coreWord core word) s

/-! ### `mworld`, debug (R270, R278, R280) -/

/-- MWORLD_WRITE (R270, R277). -/
def execMworldWrite (core : Fin 8) (mode : CoreMode) (value : BitVec 64) (s : State) : Host.Outcome State Fault Refusal :=
  done (fun s => s.mworldWrite core mode value) s

/-- The CPX window (R20). -/
def cpxBase : Nat := 0x1B000000

/-- An access of an agent that does not reach the CPX window: an error response; where the fence covers it, the refusal is
captured (R271). -/
def State.cpxRefused (s : State) (a : Agent) (offset : Nat) : State :=
  let s := if a = .manager ∧ s.innerRegion (cpxBase + offset) then s.fenceCapture 18 0 (cpxBase + offset) true false else s
  s.emit (.busError a)

/-- LOWER_DEBUG_ENABLE (R280): a write of CPX_DBG_EN by inner-world code. -/
def execLowerDebugEnable (a : Agent) (value : W32) (s : State) : Host.Outcome State Fault Refusal :=
  done (fun s => if a = .inner ∧ s.awake then s.lowerDebug value.toNat else s.cpxRefused a 4) s

/-- HALT_REQUEST: with the invasive enable of the core's world clear, the request stays pending. -/
def State.haltRequest (s : State) (n : Nat) : State :=
  if s.coreRuns n then
    if s.invasive (s.coreInner n) then s.setBit .CPX_STATUS (8 + n)
    else s.setCore n { s.core n with haltPending := true }
  else s

/-- HALT_REQUEST (R278). -/
def execHaltRequest (core : Fin 8) (s : State) : Host.Outcome State Fault Refusal := done (fun s => s.haltRequest core) s

/-! ### The directory (R281, R282) -/

/-- R281: the slice of a line, from address bits [9:6] and [13:10]. -/
def sliceOf (line : BitVec 42) : Nat := (line.toNat % 16) ^^^ (line.toNat / 16 % 16)

/-- A line of a slice, as the directory holds it. -/
def State.dirLine (s : State) (slice line : Nat) : DirLine :=
  (s.cpx.lines.find? (fun d => d.slice == slice && d.line == line)).getD ⟨slice, line, none, [], none, false⟩

/-- Store a line; a line at rest is not listed. -/
def State.setDirLine (s : State) (d : DirLine) : State :=
  let rest := s.cpx.lines.filter (fun e => !(e.slice == d.slice && e.line == d.line))
  let idle := d.holder.isNone && d.waiting.isEmpty && d.reserved.isNone
  { s with cpx := { s.cpx with lines := if idle then rest else d :: rest } }

/-- A grant or a refusal goes to a core. -/
def State.dirAnswer (s : State) (d : DirLine) (core : Nat) (granted : Bool) : State :=
  s.emit (.directory d.slice d.line core granted)

/-- The cores at and after the slice's pointer, counting upwards modulo 8. -/
def State.fromPointer (s : State) (slice : Nat) : List Nat :=
  (List.range 8).map (fun k => (Tbl.get 0 s.cpx.pointers slice + k) % 8)

/-- Step 2: a core is granted the slot, and the pointer moves past it. The owner's copy is then the only one (R281). -/
def State.dirGrant (s : State) (d : DirLine) (core : Nat) : State :=
  let s := s.setCopies (d.line * 64) [core]
  let s := { s with cpx := { s.cpx with pointers := Tbl.set 0 s.cpx.pointers d.slice ((core + 1) % 8) } }
  (s.setDirLine { d with holder := some (.owner core) }).dirAnswer d core true

/-- Steps 2 and 3: the slot is free: the first waiting core at or after the pointer is granted, the others are refused, and the
next of them is the reserved owner. -/
def State.dirArbitrate (s : State) (d : DirLine) : State :=
  match (s.fromPointer d.slice).filter d.waiting.contains with
  | [] => s.setDirLine d
  | w :: losers =>
    let d' := { d with waiting := [], reserved := losers.head?, retried := false }
    forEach losers (fun c s => s.dirAnswer d c false) (s.dirGrant d' w)

/-- Steps 1 and 4: the slot is released. A reserved owner that spent its first retry is granted now. -/
def State.dirRelease (s : State) (d : DirLine) : State :=
  let d := { d with holder := none }
  match d.reserved with
  | some c => if d.retried then s.dirGrant { d with reserved := none, retried := false } c else s.setDirLine d
  | none => s.dirArbitrate d

/-- Step 3: a request of a core: refused under another's reservation, granted where the slot is free, else it waits. -/
def State.dirRequest (s : State) (d : DirLine) (core : Nat) : State :=
  if d.holder = some (.owner core) then s
  else if d.reserved.isSome ∧ d.reserved ≠ some core then s.dirAnswer d core false
  else if d.holder.isNone then s.dirGrant { d with reserved := none, retried := false } core
  else if d.reserved = some core then (s.setDirLine { d with retried := true }).dirAnswer d core false
  else s.setDirLine { d with waiting := NSet.insert d.waiting core }

/-- One request to a directory slice. -/
def State.dirEvent (s : State) (slice : Nat) (line : BitVec 42) (ev : DirEvent) : State :=
  if s.up ∧ sliceOf line = slice then
    let d := s.dirLine slice line.toNat
    match ev with
    | .writeback c =>
      if d.holder.isNone then
        (s.setCopies (d.line * 64) (NSet.erase (s.copiesOf (d.line * 64)) c)).setDirLine { d with holder := some (.writeback c) }
      else s
    | .request c => s.dirRequest d c
    | .release => if d.holder.isSome then s.dirRelease d else s
  else s

/-- OWNERSHIP_REQUEST (R282). -/
def execOwnershipRequest (slice : Fin 16) (line : BitVec 42) (ev : DirEvent) (s : State) : Host.Outcome State Fault Refusal :=
  done (fun s => s.dirEvent slice line ev) s

/-- OWNERSHIP_RETRY (R282): a retry is a request; that of the reserved owner is its own. -/
def execOwnershipRetry (slice : Fin 16) (line : BitVec 42) (core : Fin 8) (s : State) : Host.Outcome State Fault Refusal :=
  done (fun s => s.dirEvent slice line (.request core)) s

/-! ### Cache errors (R283) -/

/-- The cache is protected by SEC-DED. -/
def secDed : CacheLevel → Bool
  | .l1i | .l1d => false
  | .l2 | .l3 => true

/-- An uncorrectable error of L2 or L3 loses a line. -/
def State.lineLost (s : State) (level : CacheLevel) (single : Bool) : Bool := s.up && secDed level && !single

/-- CACHE_ERROR: parity errors and single-bit errors leave nothing; an uncorrectable error of L2 or L3 gives every core that reads
the line a hardware error, and a DMA or PCIe read an error response; no core keeps a copy of the line. -/
def State.cacheError (s : State) (level : CacheLevel) (single : Bool) (addr : Nat) (readers : List Nat) (external : Bool) : State :=
  if s.lineLost level single then
    let s := { s with draws := s.draws + 64 }.setCopies addr []
    let s := forEach (readers.filter s.coreRuns) (fun c s => s.coreTrap c (.plain 19 (BitVec.ofNat 64 addr))) s
    let s := if external then
        { s with mem := { s.mem with nextId := s.mem.nextId + 1 } }.emit (.response s.mem.nextId [] true)
      else s
    s.raise 8
  else s

/-- The line is invalidated: what memory then holds of it, the bytes written last or older ones, is not given. -/
def State.lineStores (s : State) (level : CacheLevel) (single : Bool) (addr : Nat) : List Store :=
  if s.lineLost level single && s.isMemory (addr / 64 * 64) then [(addr / 64 * 64, freeBytes s.draws 64)] else []

/-- CACHE_ERROR (R283). -/
def execCacheError (level : CacheLevel) (single : Bool) (addr : BitVec 48) (readers : List (Fin 8)) (external : Bool)
    (s : State) : Host.Outcome State Fault Refusal :=
  doneMem (fun s => s.lineStores level single addr.toNat)
    (fun s => s.cacheError level single addr.toNat (readers.map (·.val)) external) s

end Sys2Proof.Machine
end

