-- ==== Sys2Proof/Machine/CueCmd.lean ====
section
/-! DEFINITION. The commands of the cue engine but the launch (05_cues.md): operations of a window, the clearing of the counts,
staging, and the evaluation of an axis. -/

namespace Sys2Proof.Machine

/-! ### Operations (R105 to R107) -/

/-- The agent that uses a window. -/
def windowAgent : CueWindow → Agent
  | .manager => .manager
  | .partition p => .partition p
  | .guest i => .guest i
  | .island => .island

/-- A write to the window reaches the engine: it runs in Day and Dusk (R66, R22), an instance must be ACTIVE (R286, R287,
R298), and no operation of the window is in progress (R105). -/
def State.windowOpen (s : State) (w : CueWindow) : Bool :=
  s.awake && !s.flag F.CUE_STATUS.busy (cueWindowOf (windowOwner w)) &&
    (match w with
    | .guest i => s.instState i.val == 1
    | _ => true)

/-- The entry in a window's registers. -/
def State.windowEntry (s : State) (w : CueWindow) : CueEntry :=
  CueEntry.ofWords ((List.range 8).map (fun k => s.get .CUE_ENTRY (cueWindowOf (windowOwner w)) k))

/-- R105: the result of an operation in CUE_STATUS. -/
def State.cueResult (s : State) (w : CueWindow) (err slot : Nat) : State :=
  (s.fset F.CUE_STATUS.err err (cueWindowOf (windowOwner w))).fset F.CUE_STATUS.slot slot (cueWindowOf (windowOwner w))

/-- An access that the engine does not take: an error response when its block is clock-gated (R22), else no effect. -/
def State.windowClosed (s : State) (w : CueWindow) : State := if s.awake then s else s.emit (.busError (windowAgent w))

/-- CUE_ARM (R105, R106, R107). The slot that a refused arm reports is open: it is a free value. -/
def State.cueArm (s : State) (w : CueWindow) : State :=
  if s.windowOpen w then
    let r := s.arm (windowOwner w) (s.windowEntry w)
    if r.1 = 0 then r.2.2.cueResult w 0 r.2.1 else (s.cueResult w r.1 (Config.freeNat s.draws)).drawn
  else s.windowClosed w

/-- CUE_ARM (R105). -/
def execCueArm (w : CueWindow) (s : State) : Host.Outcome State Fault Refusal := done (fun s => s.cueArm w) s

/-- R105: the owner that an operation addresses: the manager names one in `window`. -/
def addressed (w : CueWindow) (window : BitVec 7) : Nat :=
  match w with
  | .manager => window.toNat
  | _ => windowOwner w

/-- R107, orders 3 and 4, for a slot: 4 when it is not the addressed owner's, 6 when it is free. -/
def State.slotError (s : State) (owner slot : Nat) : Nat :=
  if 71 < owner ∧ owner ≠ islandOwner then 4
  else
    match s.cueAt slot with
    | some c => if c.entry.owner.toNat = owner then 0 else 4
    | none => if s.maySlot owner slot then 6 else 4

/-- R107 for a modify: order by order. -/
def State.modifyError (s : State) (caller owner slot : Nat) (e : CueEntry) : Nat :=
  if s.cueBadArg e then 5
  else if (71 < owner ∧ owner ≠ islandOwner) ∨ (e.critical ∧ caller ≠ islandOwner)
      ∨ !s.holdsTarget owner e.action.toNat e.target.toNat then 4
  else if s.slotError owner slot ≠ 0 then s.slotError owner slot
  else if s.cueTimeError e ≠ 0 then s.cueTimeError e
  else if ((s.cueAt slot).map (·.staged)).getD false then 2
  else 0

/-- CUE_MODIFY (R105, R107, R108): the entry takes the slot's place whole; the owner stays (R103). -/
def State.cueModify (s : State) (w : CueWindow) (slot : Nat) (window : BitVec 7) : State :=
  if s.windowOpen w then
    let owner := addressed w window
    let e := s.windowEntry w
    let err := s.modifyError (windowOwner w) owner slot e
    let s := if err = 0 then (s.putCue slot (s.placed { e with owner := BitVec.ofNat 8 owner })).countCues owner else s
    s.cueResult w err slot
  else s.windowClosed w

/-- CUE_MODIFY (R105). -/
def execCueModify (w : CueWindow) (slot : Fin 4096) (window : BitVec 7) (s : State) : Host.Outcome State Fault Refusal :=
  done (fun s => s.cueModify w slot window) s

/-- R107 for a cancel. -/
def State.cancelError (s : State) (owner slot : Nat) : Nat :=
  if s.slotError owner slot ≠ 0 then s.slotError owner slot
  else if ((s.cueAt slot).map (·.staged)).getD false then 2
  else 0

/-- CUE_CANCEL (R105, R106): the slot is freed. -/
def State.cueCancel (s : State) (w : CueWindow) (slot : Nat) (window : BitVec 7) : State :=
  if s.windowOpen w then
    let owner := addressed w window
    let err := s.cancelError owner slot
    let s := if err = 0 then (s.freeCue slot).countCues owner else s
    s.cueResult w err slot
  else s.windowClosed w

/-- CUE_CANCEL (R105). -/
def execCueCancel (w : CueWindow) (slot : Fin 4096) (window : BitVec 7) (s : State) : Host.Outcome State Fault Refusal :=
  done (fun s => s.cueCancel w slot window) s

/-- Load an entry into a window's registers. -/
def State.loadEntry (s : State) (w : CueWindow) (e : CueEntry) : State :=
  forEach (List.range 8) (fun k s => s.put .CUE_ENTRY (wordAt e.words k) (cueWindowOf (windowOwner w)) k) s

/-- CUE_READ (R105): the slot's 32 bytes go to CUE_ENTRY_0 to CUE_ENTRY_7. -/
def State.cueRead (s : State) (w : CueWindow) (slot : Nat) (window : BitVec 7) : State :=
  if s.windowOpen w then
    let err := s.slotError (addressed w window) slot
    let s :=
      match s.cueAt slot with
      | some c => if err = 0 then s.loadEntry w c.entry else s
      | none => s
    s.cueResult w err slot
  else s.windowClosed w

/-- CUE_READ (R105). -/
def execCueRead (w : CueWindow) (slot : Fin 4096) (window : BitVec 7) (s : State) : Host.Outcome State Fault Refusal :=
  done (fun s => s.cueRead w slot window) s

/-- CUE_CLR: only the manager's write of 1 clears the three counts (R10). -/
def State.cueClr (s : State) (a : Agent) : State :=
  if s.awake then
    if a = .manager then
      ((s.put .CUE_DEFER_COUNT 0).put .CUE_LATE_COUNT 0).put .CUE_VOID_COUNT 0
    else s
  else s.emit (.busError a)

/-- CUE_CLR. -/
def execCueClr (a : Agent) (s : State) : Host.Outcome State Fault Refusal := done (fun s => s.cueClr a) s

/-! ### Staging (R108, R114) -/

/-- The cue is due for staging now: time-keyed and within 100,000 ns of its key. -/
def CueSlot.stageable (now : ST) (c : CueSlot) : Bool := !c.staged && !c.entry.axisKeyed && stagesNow now c.entry.key

/-- STAGING (R108): every cue whose staging point has come moves into the launch queue. -/
def State.staging (s : State) : State :=
  if s.awake && s.stValid then
    let stage (c : CueSlot) : CueSlot := if c.stageable s.tim.st then { c with staged := true } else c
    let slots := s.cue.slots.map (fun (e : Nat × CueSlot) => (e.1, stage e.2))
    { s with cue := { s.cue with slots := slots } }.fset F.CUE_GLOBAL.staged
      (slots.filter (fun (c : Nat × CueSlot) => c.2.staged)).length
  else s

/-- STAGING (R108). -/
def execStaging (s : State) : Host.Outcome State Fault Refusal := done State.staging s

/-- The first point after lo, at most n later, at which a condition holds, given that it holds at lo + n and stays so. -/
def firstPoint (f : ST → Bool) (lo : ST) (n : Nat) : Nat → ST
  | 0 => lo + BitVec.ofNat 64 n
  | k + 1 =>
    if n ≤ 1 then lo + BitVec.ofNat 64 n
    else if f (lo + BitVec.ofNat 64 (n / 2)) then firstPoint f lo (n / 2) k
    else firstPoint f (lo + BitVec.ofNat 64 (n / 2)) (n - n / 2) k

/-- A span that ends at hi and starts where a condition does not hold yet, of 10,000 ns or a double of it. -/
def spanBefore (f : ST → Bool) (hi : ST) : Option Nat :=
  ((List.range 24).map (fun k => 10000 * 2 ^ k)).find? (fun n => !f (hi - BitVec.ofNat 64 n))

/-- R114: a cue whose key the axis crosses between two evaluations is staged with the launch ST solved from the fit. Where the fit lies
past the key throughout, it launches at once (log entry 92). -/
def State.stageCrossing (s : State) (ax : Nat) (prev now : Int) (c : CueSlot) : CueSlot :=
  if c.entry.axisKeyed && c.entry.axis == ax && !c.staged && crosses c.entry prev now then
    let up := decide (prev < c.entry.position)
    let reached (t : ST) : Bool :=
      if up then decide (c.entry.position ≤ (s.axisAt ax t).1) else decide ((s.axisAt ax t).1 ≤ c.entry.position)
    let hi := s.tim.st + 100000#64
    let t := match spanBefore reached hi with
      | some n => firstPoint reached (hi - BitVec.ofNat 64 n) n 40
      | none => s.tim.st
    { c with staged := true, key := t, due := t }
  else c

/-- AXIS_CUE_EVALUATION (R114, R115): in ACQUIRING and LOST nothing is evaluated. -/
def State.axisCueEvaluation (s : State) (ax : Nat) : State :=
  if s.awake && s.stValid then
    if s.axState ax = axTracking ∨ s.axState ax = axCoasting then
      let now := (s.axisAt ax (s.tim.st + 100000#64)).1
      let s' := { s with cue := { s.cue with axisPrev := Tbl.set none s.cue.axisPrev ax (some now) } }
      match Tbl.get none s.cue.axisPrev ax with
      | none => s'
      | some prev =>
        let slots := s.cue.slots.map (fun (e : Nat × CueSlot) => (e.1, s.stageCrossing ax prev now e.2))
        { s' with cue := { s'.cue with slots := slots } }.fset F.CUE_GLOBAL.staged
          (slots.filter (fun (c : Nat × CueSlot) => c.2.staged)).length
    else { s with cue := { s.cue with axisPrev := Tbl.set none s.cue.axisPrev ax none } }
  else s

/-- AXIS_CUE_EVALUATION (R114). -/
def execAxisCueEvaluation (ax : Fin 8) (s : State) : Host.Outcome State Fault Refusal :=
  done (fun s => s.axisCueEvaluation ax) s

end Sys2Proof.Machine
end

