-- ==== Sys2Proof/Machine/DmaMove.lean ====
section
/-! DEFINITION. What a DMA descriptor moves (R313, R314): its bytes in destination order, and as much of it as was done at a
pause (R316). -/

namespace Sys2Proof.Machine

/-- Where a byte of the destination comes from: memory, a place in the pattern of FILL, or a place in an element of GATHER. -/
inductive DmaSrc where
  | mem (a : Nat)
  | pattern (o : Nat)
  | element (k o : Nat)
  deriving DecidableEq, Repr

/-- The source n bytes on. -/
def srcPlus (n : Nat) : DmaSrc → DmaSrc
  | .mem a => .mem (a + n)
  | .pattern o => .pattern (o + n)
  | .element k o => .element k (o + n)

/-- How far a source stays within one piece of memory. -/
def srcRoom : DmaSrc → Nat
  | .mem a => 256 - a % 256
  | _ => 256

/-- Part of a transfer: source, destination, bytes. -/
structure DmaChunk where
  src : DmaSrc
  dst : Nat
  n : Nat
  deriving DecidableEq, Repr

/-- A row cut where its source or its destination leaves a piece of memory. -/
def rowChunks : Nat → DmaSrc → Nat → Nat → List DmaChunk
  | 0, _, _, _ => []
  | f + 1, src, dst, n =>
    if n = 0 then []
    else
      let m := min n (min (256 - dst % 256) (srcRoom src))
      ⟨src, dst, m⟩ :: rowChunks f (srcPlus m src) (dst + m) (n - m)

/-- A row of n bytes. -/
def row (src : DmaSrc) (dst n : Nat) : List DmaChunk := rowChunks (n / 64 + 4) src dst n

/-- What a descriptor moves, in destination order (R313). -/
def descChunks (d : List Byte) : List DmaChunk :=
  let n := descLength d
  if descMode d = 0 then
    (List.range (descRows d)).flatMap (fun r => row (.mem (descSrc d + r * u32 d 28)) (descDst d + r * u32 d 32) n)
  else if descMode d = 1 then
    (List.range n).flatMap (fun k => row (.element k 0) (descDst d + k * descElem d) (descElem d))
  else (List.range (descRows d)).flatMap (fun r => row (.pattern 0) (descDst d + r * u32 d 32) n)

/-- The bytes of a transfer. -/
def chunkBytes (l : List DmaChunk) : Nat := (l.map (·.n)).sum

/-- A transfer without its first k bytes. -/
def afterBytes : Nat → List DmaChunk → List DmaChunk
  | _, [] => []
  | k, x :: t => if x.n ≤ k then afterBytes (k - x.n) t else ⟨srcPlus k x.src, x.dst + k, x.n - k⟩ :: t

/-- The first k bytes of a transfer. -/
def firstBytes : Nat → List DmaChunk → List DmaChunk
  | _, [] => []
  | k, x :: t => if k = 0 then [] else if x.n ≤ k then x :: firstBytes (k - x.n) t else [⟨x.src, x.dst, k⟩]

/-- Bytes that arrive in memory or leave through a host port. -/
inductive DmaOut where
  | ram (a : Nat) (b : List Byte)
  | host (port a : Nat) (b : List Byte)
  deriving DecidableEq, Repr

/-- The bytes of an output. -/
def outBytes : DmaOut → List Byte
  | .ram _ b => b
  | .host _ _ b => b

/-- A transfer under way: 0 or the code of the error that ended it, what it wrote, the memory it read, the state. -/
structure DmaWork where
  code : Nat
  outs : List DmaOut
  srcs : List (Nat × Nat)
  s : State

/-- R314: the codes. -/
def dmaDone : Nat := 1
/-- SRC_ERR. -/
def dmaSrcErr : Nat := 2
/-- DST_ERR. -/
def dmaDstErr : Nat := 3
/-- INDEX_ERR. -/
def dmaIndexErr : Nat := 4
/-- DESC_ERR. -/
def dmaDescErr : Nat := 5

/-- Read n bytes: nothing when an access gets an error response or a translation fault. -/
def State.dmaGet (s : State) (c owner a n : Nat) : Option (List Byte × List (Nat × Nat)) × State :=
  (piecesOf a n).foldl (fun r p =>
    match r.1 with
    | none => r
    | some (b, l) =>
      match r.2.land (.dma c) owner p.1 false with
      | (.ram x, s) => (some (b ++ s.readBytes x p.2, l ++ [(x, p.2)]), s)
      | (.host _ _, s) => (some (b ++ freeBytes s.draws p.2, l), { s with draws := s.draws + p.2 })
      | (_, s) => (none, s)) (some ([], []), s)

/-- The bytes of a chunk, or the code of the error. -/
def State.dmaFetch (s : State) (c owner : Nat) (d : List Byte) (x : DmaChunk) :
    Except Nat (List Byte × List (Nat × Nat)) × State :=
  match x.src with
  | .pattern o => (.ok ((List.range x.n).map (fun j => BitVec.ofNat 8 (u8 d (40 + (o + j) % 8))), []), s)
  | .mem a =>
    match s.dmaGet c owner a x.n with
    | (some r, s) => (.ok r, s)
    | (none, s) => (.error dmaSrcErr, s)
  | .element k o =>
    match s.dmaGet c owner (descAux d + 4 * k) 4 with
    | (none, s) => (.error dmaIndexErr, s)
    | (some (i, _), s) =>
      match s.dmaGet c owner (descSrc d + u32 i 0 + o) x.n with
      | (some r, s) => (.ok r, s)
      | (none, s) => (.error dmaSrcErr, s)

/-- One chunk; an error ends the transfer (R314). -/
def dmaStep (c owner : Nat) (d : List Byte) (w : DmaWork) (x : DmaChunk) : DmaWork :=
  if w.code ≠ 0 then w
  else
    match w.s.dmaFetch c owner d x with
    | (.error e, s) => { w with code := e, s := s }
    | (.ok (b, l), s) =>
      match s.land (.dma c) owner x.dst true with
      | (.ram a, s) => { w with outs := w.outs ++ [.ram a b], srcs := w.srcs ++ l, s := s }
      | (.host port a, s) => { w with outs := w.outs ++ [.host port a b], srcs := w.srcs ++ l, s := s }
      | (_, s) => { w with code := dmaDstErr, s := s }

/-- A byte of memory was a source byte. -/
def inSources (l : List (Nat × Nat)) (a : Nat) : Bool := l.any (fun r => decide (r.1 ≤ a) && decide (a < r.1 + r.2))

/-- R313: each overlapped destination byte holds its old value or a copied value; which is free. -/
def State.overlapped (s : State) (l : List (Nat × Nat)) : DmaOut → DmaOut
  | .ram a b => .ram a (b.zipIdx.map (fun e =>
      if inSources l (a + e.2) && Config.overlapOld s.draws (a + e.2) then s.readByte (a + e.2) else e.1))
  | x => x

/-- The transfer of part of a descriptor by a channel. -/
def State.dmaMove (s : State) (c : Nat) (d : List Byte) (l : List DmaChunk) : DmaWork :=
  let w := l.foldl (dmaStep c (s.dmaHolder c) d) ⟨0, [], [], s⟩
  { w with outs := w.outs.map (w.s.overlapped w.srcs), s := w.s.drawn }

/-- The bytes that a transfer wrote, in destination order. -/
def workBytes (w : DmaWork) : List Byte := w.outs.flatMap outBytes

/-- The stores of a transfer in memory. -/
def workStores (w : DmaWork) : List Store := w.outs.filterMap (fun o => match o with | .ram a b => some (a, b) | _ => none)

/-- One output of a transfer: bytes for a host leave, and those for memory invalidate the copies that cores hold (R281). -/
def State.dmaSend (s : State) : DmaOut → State
  | .host port a b => s.emit (.hostWrite port a b)
  | .ram a b => forEach (linesOf a b.length) (fun x s => s.throughDirectory 16 x true) s

/-- The bytes that a transfer wrote count and feed the CRC channel. -/
def State.dmaCount (w : DmaWork) (c : Nat) : State :=
  let s := forEach w.outs (fun o s => s.dmaSend o) w.s
  let s := s.put .CH_DONE_BYTES (BitVec.ofNat 32 (min (2 ^ 32 - 1) ((s.get .CH_DONE_BYTES c).toNat + (workBytes w).length))) c
  let x := s.chan c
  if descFeeds (s.chRing c) x && !x.crcWait then s.crcFeed (descCrcCh x.desc) (workBytes w) else s

/-- The part of the descriptor in progress that is still to be moved. -/
def State.dmaLeft (s : State) (c : Nat) : List DmaChunk :=
  if (s.chan c).readable && descOk (s.chRing c) (s.chan c).desc && !(s.chan c).crcWait then
    afterBytes (s.get .CH_DONE_BYTES c).toNat (descChunks (s.chan c).desc)
  else []

/-- R316: the reads already issued drain. How much of the descriptor that is, is free. -/
def State.dmaDrain (s : State) (c : Nat) : PacketEffect :=
  let left := s.dmaLeft c
  let w := s.drawn.dmaMove c (s.chan c).desc (firstBytes (Config.freeNat s.draws % (chunkBytes left + 1)) left)
  (workStores w, State.dmaCount w c)

end Sys2Proof.Machine
end

