-- ==== Sys2Proof/Machine/DmaCmd.lean ====
section
/-! DEFINITION. The commands of the DMA engines and of the CRC channels (14_dma_crc.md). -/

namespace Sys2Proof.Machine

/-! ### Who reaches a channel -/

/-- The channels of an owner, in ascending order; page 1 shows the first 32. -/
def State.heldChannels (s : State) (owner : Nat) : List Nat := (List.range 256).filter (fun c => s.dmaHolder c == owner)

/-- R286, R301: page 1 of a guest takes writes unless its instance is being reset or destroyed. -/
def State.pageOneOpen (s : State) (i : Nat) : Bool := decide (64 ≤ i) || (s.instState i != 6 && s.instState i != 7)

/-- An access to the part of a channel that its owner may write: by the manager, or by the owner through page 1. -/
def State.chAccess (s : State) (a : Agent) (c : Nat) (f : State → State) : State :=
  if !s.awake then s.emit (.busError a)
  else if a = .manager then f s
  else
    match a with
    | .guest _ | .partition _ =>
      if ((s.heldChannels (ownerOf a)).take 32).contains c && s.pageOneOpen (ownerOf a) then f s else s
    | _ => s.emit (.busError a)

/-! ### Triggers -/

/-- CH_START (R308). -/
def execChStart (a : Agent) (ch : Fin 256) (s : State) : Host.Outcome State Fault Refusal :=
  done (fun s => s.chAccess a ch (fun s => s.dmaTrigger ch)) s

/-- R310: ST stands at a grid point of an enabled timer, 1,000 ns or more after the last write to it. -/
def State.timerDue (s : State) (e t : Nat) : Bool :=
  let period := (s.get .TIMER_PERIOD e t).toNat
  let past := (s.tim.st - s.get64 .TIMER_PHASE_LO .TIMER_PHASE_HI e t).toNat
  s.stValid && period != 0 && decide (past < 2 ^ 63) && past % period == 0
    && (match Tbl.get none s.dma.timerFrom (4 * e + t) with | some f => notLater f s.tim.st | none => true)

/-- DMA_TIMER (R310): each grid point fires once, and reaches the channels of the timer's own engine. -/
def State.dmaTimer (s : State) (e t : Nat) : State :=
  if s.timerDue e t then
    (s.timerHold e t (s.tim.st + 1)).dmaTriggerAll ((s.dmaListeners 1 t).filter (fun c => c / 16 == e))
  else s

/-- DMA_TIMER (R310). Below Day timers do not fire (R311). -/
def execDmaTimer (e : Fin 16) (t : Fin 4) (s : State) : Host.Outcome State Fault Refusal :=
  done (fun s => s.whenDay (fun s => s.dmaTimer e t)) s

/-- The channels that select an edge of a pin. -/
def State.pinListeners (s : State) (pin : Nat) (falling : Bool) : List Nat :=
  (s.dmaListeners 4 pin).filter (fun c => s.flag F.CH_TRIG.falling c == falling)

/-- DMA_TRIG_PIN (R308): a pin that the pin table assigns. Below Day the trigger is missed (R311). -/
def execDmaTrigPin (pin : Fin 8) (falling : Bool) (s : State) : Host.Outcome State Fault Refusal :=
  done (fun s => s.whenUp (fun s =>
    if s.admitted && s.recipe.periph (212 + pin) then s.dmaTriggerAll (s.pinListeners pin falling) else s)) s

/-! ### Completion of a descriptor (R312, R314, R315) -/

/-- R315, ring form: bytes 56 to 63, then `ctrl` with `own` = 0. -/
def State.writeBack (s : State) (c code result : Nat) : PacketEffect :=
  let w := s.engineWrite (.dma c) (s.dmaHolder c) (s.chCur c + 56) (leBytes 4 code ++ leBytes 4 result)
  let v := w.s.engineWrite (.dma c) (s.dmaHolder c) (s.chCur c) (leBytes 4 (u32 (s.chan c).desc 0 / 2 * 2))
  (w.stores ++ v.stores, v.s)

/-- log2 of the number of completion records. -/
def State.cqLog (s : State) (c : Nat) : Nat := s.fget F.CH_CQ_LO.m c + 4

/-- The address of the completion queue. -/
def State.cqBase (s : State) (c : Nat) : Nat := (s.get64 .CH_CQ_LO .CH_CQ_HI c).toNat % 2 ^ 48 / 4096 * 4096

/-- A completion record. -/
def State.cqRecord (s : State) (c code result : Nat) : List Byte :=
  leBytes 8 (s.chCur c) ++ leBytes 4 code ++ leBytes 4 result ++ leBytes 8 s.tim.st.toNat ++ leBytes 2 c
    ++ leBytes 1 (s.fget F.CH_CQ_HEAD.phase c) ++ leBytes 5 0

/-- R315, list form: a record is appended, unless the queue is full. -/
def State.appendRecord (s : State) (c code result : Nat) : PacketEffect :=
  let size := 2 ^ s.cqLog c
  let tail := s.fget F.CH_CQ_HEAD.tail c % size
  if (tail + 1) % size = s.fget F.CH_CQ_HEAD.head c % size then
    noStore ((s.fset F.CH_STATUS.cq_overflow 1 c).raise 291)
  else
    let w := s.engineWrite (.dma c) (s.dmaHolder c) (s.cqBase c + 32 * tail) (s.cqRecord c code result)
    let s := w.s.fset F.CH_CQ_HEAD.tail ((tail + 1) % size) c
    (w.stores, onlyIf (tail + 1 == size) (fun s => s.fset F.CH_CQ_HEAD.phase (1 - s.fget F.CH_CQ_HEAD.phase c) c) s)

/-- R315: the owner is signalled; an error is raised on a channel that no instance owns. -/
def State.dmaSignal (s : State) (c : Nat) (failed : Bool) : State :=
  let h := s.dmaHolder c
  let s :=
    if h = 0 then s.raise 288
    else if h < 64 then (if s.fget F.CH_VEC.vector c = 255 then s else s.msixGuest h (s.fget F.CH_VEC.vector c))
    else s.raise (280 + (h - 64))
  onlyIf (failed && (h == 0 || decide (64 ≤ h))) (fun s => s.raise 289) s

/-- The descriptor in progress asks for a signal. -/
def State.dmaIrq (s : State) (c : Nat) : Bool := (s.chan c).readable && descBit (s.chan c).desc 3

/-- The completion signals in their order, but the CHAIN trigger. -/
def State.dmaSignals (s : State) (c code result : Nat) : PacketEffect :=
  let tell := s.dmaIrq c || code != dmaDone
  let r :=
    if s.chRing c then (if (s.chan c).readable then s.writeBack c code result else noStore s)
    else if tell then s.appendRecord c code result else noStore s
  (r.1, onlyIf tell (fun s => s.dmaSignal c (code != dmaDone)) r.2)

/-- A run ends, in IDLE or in READY. One whose descriptors were all DONE triggers its CHAIN listeners before the engine chooses
again (R308). -/
def State.dmaFinish (s : State) (c st : Nat) (good : Bool) : State :=
  let s := s.dmaEnd c st
  let l := if good then s.dmaListeners 2 c else []
  let s := (forEach l (fun d s => s.dmaMark d) s).engineFree c
  forEach (List.range 16) (fun e s => if e == c / 16 || l.any (fun d => d / 16 == e) then s.dmaPick e else s) s

/-- The next ring entry becomes the head. -/
def State.ringStep (s : State) (c : Nat) : State := s.fset F.CH_STATUS.head ((s.chHead c + 1) % 2 ^ s.chRingLog c) c

/-- The engine owns the descriptor at the ring head. -/
def State.nextOwned (s : State) (c : Nat) : Bool × State :=
  let r := s.engineRead (.dma c) (s.dmaHolder c) (s.chStartAddr c) 4
  (r.fault.isNone && !r.failed && descBit r.bytes 0, r.s)

/-- The run goes on with the descriptor at an address, or ends where a ring is not owned. While an entry is in progress the
channel waits in READY before it (R311). -/
def State.dmaNext (s : State) (c addr : Nat) : State :=
  let x := { s.chan c with taken := (s.chan c).taken + 1 }
  let s := s.put64 .CH_CUR_LO .CH_CUR_HI (BitVec.ofNat 64 addr) c
  if s.dmaHeld then
    ((s.setChan c { x with unfinished := true, desc := [] }).fset F.CH_STATUS.state chReady c).engineFree c
  else
    match (s.setChan c x).dmaBegin c with
    | (true, s) => s
    | (false, s) => s.dmaFinish c chIdle true

/-- R312, R314: what follows a descriptor. -/
def State.dmaContinue (s : State) (c code : Nat) : State :=
  let d := (s.chan c).desc
  let s := onlyIf (s.chRing c) (fun s => s.ringStep c) s
  if code ≠ dmaDone then s.dmaFinish c chIdle false
  else if descBit d 9 then s.dmaFinish c chIdle true
  else if s.chRing c then
    if s.fget F.CH_CFG.max_desc c ≤ (s.chan c).taken then
      match s.nextOwned c with
      | (own, s) => s.dmaFinish c (if own then chReady else chIdle) true
    else s.dmaNext c (s.chStartAddr c)
  else s.dmaNext c (descNext d)

/-- The descriptor of a running channel completes. -/
def State.descriptorDone (s : State) (c : Nat) : PacketEffect :=
  let x := s.chan c
  let good := x.readable && descOk (s.chRing c) x.desc
  let w := s.dmaMove c x.desc (s.dmaLeft c)
  let code := if !good then dmaDescErr else if w.code = 0 then dmaDone else w.code
  let s := ((State.dmaCount w c).releaseCrc c).fset F.CH_STATUS.last code c
  let r := s.dmaSignals c code (s.get .CH_DONE_BYTES c).toNat
  let stores := workStores w ++ r.1
  (stores, ({ r.2 with ram := Memory.storeAll r.2.ram stores } : State).dmaContinue c code)

/-- DESCRIPTOR_COMPLETE (R315): of the channel that the engine runs. -/
def State.descriptorComplete (s : State) (e : Nat) : PacketEffect :=
  let c := 16 * e + s.fget F.ENG_STATUS.channel e
  if s.day && s.flag F.ENG_STATUS.busy e && s.chState c == chRunning && !(s.chan c).crcWait then s.descriptorDone c
  else noStore s

/-- DESCRIPTOR_COMPLETE (R315). -/
def execDescriptorComplete (e : Fin 16) (s : State) : Host.Outcome State Fault Refusal :=
  packetEnd (fun s => s.descriptorComplete e) s

/-! ### Pause (R316) -/

/-- An access to a register that only the manager writes. -/
def State.dmaManager (s : State) (a : Agent) (f : State → State) : State := s.byManager a s.awake f

/-- DMA_PAUSE (R316). -/
def execDmaPause (a : Agent) (ch : Fin 256) (s : State) : Host.Outcome State Fault Refusal :=
  done (fun s => s.dmaManager a (fun s => (s.dmaPause ch).frozenCheckOwner (s.dmaHolder ch))) s

/-- PAUSE_DRAINED (R316). -/
def State.pauseDrained (s : State) (c : Nat) : PacketEffect :=
  if s.day && s.chState c == chPausing && s.instState (s.dmaHolder c) != 6 && s.instState (s.dmaHolder c) != 7 then
    let r := s.dmaDrain c
    let s := ((r.2.fset F.CH_STATUS.state chPaused c).raise 292).engineFree c
    (r.1, (s.dmaPick (c / 16)).frozenCheckOwner (s.dmaHolder c))
  else noStore s

/-- PAUSE_DRAINED (R316). -/
def execPauseDrained (ch : Fin 256) (s : State) : Host.Outcome State Fault Refusal :=
  packetEnd (fun s => s.pauseDrained ch) s

/-- DMA_RESUME (R316). -/
def execDmaResume (a : Agent) (ch : Fin 256) (s : State) : Host.Outcome State Fault Refusal :=
  done (fun s => s.dmaManager a (fun s => s.dmaResume ch)) s

/-! ### CRC commands (R319 to R321) -/

/-- CRC_DATA (R320): four bytes, [7:0] first. -/
def execCrcData (a : Agent) (n : Fin 8) (value : W32) (s : State) : Host.Outcome State Fault Refusal :=
  done (fun s => s.byManager a s.awake (fun s => s.crcWrite n (fun s => s.crcFeed n (leBytes 4 value.toNat)))) s

/-- CRC_DATA_B (R320): the byte [7:0]. -/
def execCrcDataB (a : Agent) (n : Fin 8) (value : W32) (s : State) : Host.Outcome State Fault Refusal :=
  done (fun s => s.byManager a s.awake (fun s => s.crcWrite n (fun s => s.crcFeed n (leBytes 1 value.toNat)))) s

/-- CRC_INIT (R319). -/
def execCrcInit (a : Agent) (n : Fin 8) (s : State) : Host.Outcome State Fault Refusal :=
  done (fun s => s.byManager a s.awake (fun s => s.crcWrite n (fun s => s.crcLoad n))) s

/-- R321: the result equals CRC_EXPECT. -/
def State.crcMatches (s : State) (n : Nat) : Bool :=
  s.crcResult n == (s.get .CRC_EXPECT n 1).toNat * 2 ^ 32 + (s.get .CRC_EXPECT n 0).toNat

/-- CRC_CHECK (R321). -/
def State.crcCheck (s : State) (n : Nat) : State :=
  if s.crcMatches n then s.fset F.CRC_STATUS.match_ 1 n else (s.fset F.CRC_STATUS.match_ 0 n).raise (312 + n)

/-- CRC_CHECK (R321). -/
def execCrcCheck (a : Agent) (n : Fin 8) (s : State) : Host.Outcome State Fault Refusal :=
  done (fun s => s.byManager a s.awake (fun s => s.crcCheck n)) s

end Sys2Proof.Machine
end

