-- ==== Sys2Proof/Machine/EvtCmd.lean ====
section
/-! DEFINITION. The commands of the counters, of precise sampling and of the bandwidth windows (18_events_counters.md). -/

namespace Sys2Proof.Machine

/-! ### Counters (R382) -/

/-- Counter n counts. -/
def State.pmcOn (s : State) (n : Nat) : Bool := s.flag F.PMC_SEL.enable n && !s.flag F.PMC_GLOBAL.freeze

/-- COUNTER_WRAP (R382): a counter at its last value, or one whose amounts no rule gives, passes 2^48. -/
def State.counterWrap (s : State) (n : Nat) : State :=
  if s.awake && s.pmcOn n && (s.pmcValue n == 2 ^ 48 - 1 || s.pmcOpen (s.get .PMC_SEL n)) then
    s.pmcAdd n (2 ^ 48 - s.pmcValue n)
  else s

/-- COUNTER_WRAP (R382). -/
def execCounterWrap (n : Fin 32) (s : State) : Host.Outcome State Fault Refusal := done (fun s => s.counterWrap n) s

/-- `reset_all` (R382): every count and `ovf` is 0. -/
def State.pmcResetAll (s : State) : State := s.dropRegs (fun r => r.reg == .PMC_VAL_LO || r.reg == .PMC_VAL_HI)

/-- PMC_RESET_ALL (R382). -/
def execPmcResetAll (a : Agent) (s : State) : Host.Outcome State Fault Refusal :=
  done (fun s => s.byEither a s.awake (fun s => s.pmcResetAll)) s

/-! ### Precise sampling (R384) -/

/-- The number of records of the ring. -/
def State.sampSize (s : State) : Nat := 2 ^ (s.fget F.PSAMP_BASE_LO.m + 4)

/-- The address of record k. -/
def State.sampAddr (s : State) (k : Nat) : Nat :=
  (s.get64 .PSAMP_BASE_LO .PSAMP_BASE_HI).toNat % 2 ^ 48 / 4096 * 4096 + 32 * k

/-- The mode of a core as a record shows it. -/
def sampledMode : CoreMode → Nat
  | .u => 0
  | .hs => 1
  | .m => 3
  | .vs => 4
  | .vu => 5

/-- The record of one instruction. -/
def sampRecord (core : Nat) (mode : CoreMode) (inner : Bool) (st : ST) (r : SampleRec) : List Byte :=
  leBytes 8 r.pc.toNat ++ leBytes 8 (if r.load || r.store then r.dataAddr.toNat else 0) ++ leBytes 8 st.toNat ++
    leBytes 4 r.insn.toNat ++ leBytes 2 (min r.latency 65535) ++ leBytes 1 core ++
    leBytes 1 (sampledMode mode + inner.toNat * 8 + r.load.toNat * 16 + r.store.toNat * 32 + r.mispredicted.toNat * 64)

/-- The records that wait in the ring. -/
def State.sampAhead (s : State) (w : Nat) : Nat := (w + s.sampSize - s.fget F.PSAMP_RD.rd % s.sampSize) % s.sampSize

/-- A record is stored, or discarded when it would make the ring full. -/
def State.sampStore (s : State) (b : List Byte) : PacketEffect :=
  let w := s.fget F.PSAMP_WR.wr % s.sampSize
  let next := (w + 1) % s.sampSize
  if s.sampAhead next = 0 then noStore ((s.bump F.PSAMP_LOST.count).raise 4)
  else
    let r := s.landAs s.evt.sampInner .io 0 (s.sampAddr w) true
    let t := r.2.fset F.PSAMP_WR.wr next
    let t := onlyIf (t.sampAhead next == t.fget F.PSAMP_WM.watermark) (fun s => s.raise 3) t
    (match r.1 with | .ram a => [(a, b)] | _ => [], t)

/-- PRECISE_SAMPLE (R384): of an instruction of a world whose non-invasive enable is set. -/
def State.preciseSample (s : State) (core : Nat) (r : SampleRec) : PacketEffect :=
  if s.coreRuns core && s.flag F.PSAMP_CTRL.enable && bit (s.fget F.PSAMP_CTRL.core_mask) core == 1
      && s.nonInvasive (s.coreInner core) then
    s.sampStore (sampRecord core (s.core core).mode (s.coreInner core) s.tim.st r)
  else noStore s

/-- PRECISE_SAMPLE (R384). -/
def execPreciseSample (core : Fin 8) (r : SampleRec) (s : State) : Host.Outcome State Fault Refusal :=
  packetEnd (fun s => s.preciseSample core r) s

/-! ### Bandwidth windows (R385) -/

/-- The time stands at a multiple of the window in force. -/
def State.bwDue (s : State) : Bool :=
  s.evt.windowUs != 0 && s.gridTime != 0 && s.gridTime.toNat % (s.evt.windowUs * 1000) == 0

/-- BW_WINDOW_CLOSE (R385). -/
def State.bwWindowClose (s : State) : State :=
  if s.awake && s.flag F.BW_CTRL.enable && s.bwDue then s.bwClose false else s

/-- BW_WINDOW_CLOSE (R385). -/
def execBwWindowClose (s : State) : Host.Outcome State Fault Refusal := done State.bwWindowClose s

/-- A write of BW_CTRL.enable: the first window is as long as BW_WINDOW says. -/
def State.bwEnable (s : State) (was : Bool) : State :=
  if s.flag F.BW_CTRL.enable && !was then
    { s with evt := { s.evt with bytes := [], windowUs := s.fget F.BW_WINDOW.window_us } }
  else s

end Sys2Proof.Machine
end

