-- ==== Sys2Proof/Machine/FabCmd.lean ====
section
/-! DEFINITION. The commands of the constellation links (06_fabric.md). -/

namespace Sys2Proof.Machine

/-! ### Bring-up (R131, R134) -/

/-- BLOCK_LOCK (R131 step 1). -/
def State.blockLock (s : State) (p : Nat) : State :=
  let s := s.fset F.FAB_PORT_STATUS.clk_present 1 p
  if s.fabRuns && s.portEnabled p && s.portState p == portDown then
    ((s.updPort p (fun _ => { PortState.initial with verifyTries := 1 })).setPort p portVerify).emit (.verify p)
  else s

/-- BLOCK_LOCK (R131). -/
def execBlockLock (p : Fin 8) (s : State) : Host.Outcome State Fault Refusal :=
  done (fun s => s.whenUp (fun s => s.blockLock p)) s

/-- VERIFY_RESEND (R131 step 1): at most 3 verify frames, then back to DOWN. -/
def State.verifyResend (s : State) (p : Nat) : State :=
  if s.fabRuns && s.portState p == portVerify then
    if (s.fport p).verifyTries < 3 then
      (s.updPort p (fun x => { x with verifyTries := x.verifyTries + 1 })).emit (.verify p)
    else s.setPort p portDown
  else s

/-- VERIFY_RESEND (R131). -/
def execVerifyResend (p : Fin 8) (s : State) : Host.Outcome State Fault Refusal := done (fun s => s.verifyResend p) s

/-- R131: the star number of a HELLO duplicates the own one or one already routed. The star that is reached through the other
port of the same ring is the one that closes the ring, and no duplicate (log entry 107). -/
def State.numberTaken (s : State) (p : Nat) (n : BitVec 12) : Bool :=
  (s.numbered && s.star == n) ||
    (match s.route n with
    | some r => s.recipe.ringMate p != some r.1
    | none => false)

/-- R131: why a HELLO is refused, 0 if it is not (log entry 108). -/
def State.helloRefusal (s : State) (p : Nat) (h : FabHdr) (version : Nat) (secure : Bool) : Nat :=
  if version ≠ 2 then 1
  else if secure ≠ s.secure then 2
  else if !h.unnumbered && s.numberTaken p h.src then 4
  else 0

/-- Four draws of the TRNG. -/
def drawn128 (d : Nat) : BitVec 128 :=
  Config.freeWord d ++ Config.freeWord (d + 1) ++ Config.freeWord (d + 2) ++ Config.freeWord (d + 3)

/-- The place of the own certificate in the FAB section (R123). -/
def Recipe.ownCert (r : Recipe) : Nat :=
  ((List.range r.certCount).find? (fun c => slice (r.cert c) 0 65 == Config.identityKey)).getD 0

/-- R131 step 3: a fresh ephemeral key and nonce from the TRNG, and KEY with them; `plain` in a bring-up, protected in a rekey
(R133). The peer's half of what the signature covers may not be known yet (log entry 109). -/
def State.sendKey (s : State) (p : Nat) (plain : Bool) : State :=
  let d := s.draws
  let s := { s with draws := d + 13 }
  let s := s.updPort p (fun x =>
    { x with nonce := drawn128 d, secret := drawn128 (d + 4) ++ drawn128 (d + 8) })
  let x := s.fport p
  let e := Config.p256Public x.secret
  let g := Config.identitySign (d + 12) (x.myHello ++ x.peerHello ++ beBytes 64 e.toNat ++ beBytes 16 x.nonce.toNat)
  let f : Frame := .key s.recipe.ownCert x.nonce e g
  let s := s.updPort p (fun x => { x with myKey := f.payload })
  if plain then s.sendPlain p f else s.sendLink p f

/-- A value of this end and one of the other, that of the lower-numbered star first (R132, log entry 110). -/
def State.lowerFirst {α : Type} (s : State) (p : Nat) (own other : α) : α × α :=
  let x := s.fport p
  let a := s.star.toNat
  let b := (s.peerStar p).toNat
  let low := if a = b then Config.lowerOfEqual x.nonce x.peerNonce else decide (a < b)
  if low then (own, other) else (other, own)

/-- R131 step 5: the transcript of the handshake, HELLO and KEY of both ends (log entry 110). -/
def State.transcript (s : State) (p : Nat) : Digest :=
  let x := s.fport p
  let h := s.lowerFirst p x.myHello x.peerHello
  let k := s.lowerFirst p x.myKey x.peerKey
  Config.sha384 (h.1 ++ h.2 ++ k.1 ++ k.2)

/-- FINISH goes out as the first frame of the session (R126, R131 step 5). -/
def State.sendFinish (s : State) (p : Nat) : State :=
  (s.put64 .FAB_PORT_TXCTR_LO .FAB_PORT_TXCTR_HI 0 p).sendLink p (.finish (s.transcript p))

/-- HELLO is taken (R131 step 3, R134): refused, or on to AUTH and KEY; under Run-limited straight to FINISH. -/
def State.helloTaken (s : State) (p : Nat) (x : HeldHello) : State :=
  let h := x.hdr
  let s := (s.fset F.FAB_PORT_STATUS.peer_star h.src.toNat p).fflag F.FAB_PORT_STATUS.peer_numbered (!h.unnumbered) p
  let f : Frame := .hello x.version x.secure x.rate h.src h.unnumbered
  let why := s.helloRefusal p h x.version x.secure
  if why ≠ 0 then onlyIf (why == 4) (fun s => s.raise 81) (s.refuseLink p why)
  else
    let s := s.updPort p (fun x =>
      { x with
        helloDone := true, keyIn := false, keysOk := false, heldHello := none, heldFinish := none, peerHello := f.payload
        myKey := [], peerKey := [], phaseTx := false, phaseRx := false, newRxKey := none, oldRxKey := none
        window := RxWindow.initial })
    if s.secure then (s.setPort p portAuth).sendKey p true else (s.setPort p portHello).sendFinish p

/-- HELLO (R131 steps 2 and 3): taken in HELLO and REKEY_STALL; one that comes before the own verify is answered waits for it
(log entry 111). -/
def State.hello (s : State) (p : Nat) (x : HeldHello) : State :=
  if s.fabRuns then
    if s.portState p = portVerify then s.updPort p (fun y => { y with heldHello := some x })
    else if (s.portState p = portHello ∧ !(s.fport p).helloDone) ∨ s.portState p = portStall then s.helloTaken p x
    else s
  else s

/-- HELLO (R131). -/
def execHello (p : Fin 8) (h : FabHdr) (version : Nat) (secure : Bool) (rate : Nat) (s : State) :
    Host.Outcome State Fault Refusal :=
  done (fun s => s.hello p ⟨h, version, secure, rate⟩) s

/-- VERIFY_RESPONSE (R131 step 2): HELLO goes out, and one that came early is taken. -/
def State.verifyResponse (s : State) (p : Nat) : State :=
  if s.fabRuns && s.portState p == portVerify then
    let s := (s.setPort p portHello).sendHello p
    match (s.fport p).heldHello with
    | some x => s.helloTaken p x
    | none => s
  else s

/-- VERIFY_RESPONSE (R131). -/
def execVerifyResponse (p : Fin 8) (s : State) : Host.Outcome State Fault Refusal := done (fun s => s.verifyResponse p) s

/-- The peer's KEY is held for the island's check. -/
def State.takeKey (s : State) (p certIndex : Nat) (nonce : BitVec 128) (ephemeral signature : BitVec 512) : State :=
  s.updPort p (fun x =>
    { x with
      keyIn := true, certIndex := certIndex, peerNonce := nonce, peerEphemeral := ephemeral, peerSignature := signature
      peerKey := (Frame.key certIndex nonce ephemeral signature).payload })

/-- R132: the keys of both directions of a port, own transmit direction first. -/
def State.deriveKeys (s : State) (p : Nat) : LinkKey × LinkKey :=
  let x := s.fport p
  let n := s.lowerFirst p x.nonce x.peerNonce
  let info : List Byte := [0x77#8, 0x65#8, 0x61#8, 0x68#8, 0x61#8, 0x72#8, 0x32#8]
  let k := Config.hkdf384 (Config.p256Shared x.secret x.peerEphemeral) (beBytes 16 n.1.toNat ++ beBytes 16 n.2.toNat) info
  let up : LinkKey := ⟨slice k 0 16, slice k 16 4⟩
  let down : LinkKey := ⟨slice k 20 16, slice k 36 4⟩
  s.lowerFirst p up down

/-- R133: the new keys are derived: this side sends under them from now on, with `key_phase` inverted, and waits for the first
frame of the new phase. -/
def State.rekeyDone (s : State) (p : Nat) : State :=
  let k := s.deriveKeys p
  (s.updPort p (fun x =>
    { x with
      txKey := k.1, newRxKey := some k.2, phaseTx := !x.phaseTx, rekeying := false, rekeyIn := false, keyIn := false })).put64
    .FAB_PORT_TXCTR_LO .FAB_PORT_TXCTR_HI 0 p

/-- R133: once both ends have sent and received REKEY and KEY, the keys turn. -/
def State.rekeyStep (s : State) (p : Nat) : State :=
  let x := s.fport p
  if x.rekeying && x.rekeyIn && x.keyIn then s.rekeyDone p else s

/-- KEY: held in AUTH (R131 step 3); in a rekey it comes protected under the current keys (R133). -/
def State.key (s : State) (p : Nat) (h : FabHdr) (certIndex : Nat) (nonce : BitVec 128) (ephemeral signature : BitVec 512) :
    State :=
  if s.fabRuns && s.portState p == portAuth then s.takeKey p certIndex nonce ephemeral signature
  else
    s.receive p h (.key certIndex nonce ephemeral signature) (fun s =>
      if s.secure then (s.takeKey p certIndex nonce ephemeral signature).rekeyStep p else s)

/-- KEY (R131). -/
def execKey (p : Fin 8) (h : FabHdr) (certIndex : Nat) (nonce : BitVec 128) (ephemeral signature : BitVec 512) (s : State) :
    Host.Outcome State Fault Refusal :=
  done (fun s => s.key p h certIndex nonce ephemeral signature) s

/-- The bound star number of a certificate, if it has one (R123; the FAB section is little-endian, R122). -/
def Recipe.certStar (r : Recipe) (c : Nat) : Option Nat :=
  if leNat (r.cert c) 66 2 = 0xFFFF then none else some (leNat (r.cert c) 66 2)

/-- R131, MISMATCH: `cert_star` is bound and differs from the number given in HELLO. -/
def State.certMismatch (s : State) (p c : Nat) : Bool :=
  match s.recipe.certStar c with
  | some n => s.flag F.FAB_PORT_STATUS.peer_numbered p && (s.peerStar p).toNat != n
  | none => false

/-- R131: the data under an identity signature: both HELLOs, both ephemeral keys, both nonces (log entry 110). -/
def State.signedHandshake (s : State) (p : Nat) : List Byte :=
  let x := s.fport p
  let h := s.lowerFirst p x.myHello x.peerHello
  let e := s.lowerFirst p (Config.p256Public x.secret) x.peerEphemeral
  let n := s.lowerFirst p x.nonce x.peerNonce
  h.1 ++ h.2 ++ beBytes 64 e.1.toNat ++ beBytes 64 e.2.toNat ++ beBytes 16 n.1.toNat ++ beBytes 16 n.2.toNat

/-- R131 step 4: the peer's certificate verifies under the constellation root, and its signature under the identity key that the
certificate names. -/
def State.peerProven (s : State) (p : Nat) : Bool :=
  let x := s.fport p
  let c := s.recipe.cert x.certIndex
  decide (x.certIndex < s.recipe.certCount) && Config.ecdsaP384 s.recipe.fabRoot (slice c 80 96) (c.take 80)
    && Config.ecdsaP256 (c.take 65) x.peerSignature (s.signedHandshake p)

/-- The port waits for FINISH: after the keys, or after HELLO under Run-limited (R134). -/
def State.awaitsFinish (s : State) (p : Nat) : Bool :=
  (s.portState p == portAuth && (s.fport p).keysOk) || (!s.secure && s.portState p == portHello && (s.fport p).helloDone)

/-- FINISH is checked under the new keys (R131 step 5): UP or BLOCKED with EV_FAB_LINK_UP; a wrong transcript hash leaves the
handshake incomplete. -/
def State.finishTaken (s : State) (p : Nat) (h : FabHdr) (hash : Digest) : State :=
  match s.frameCheck p h (.finish hash) with
  | .accepted =>
    let s := s.recordRx p h
    if hash = s.transcript p then s.linkUp p else s.setPort p portDown
  | .badTag => s.authFail p
  | _ => s

/-- CERTIFICATE_CHECK (R131 steps 4 and 5): keys and FINISH, or CERT or MISMATCH. A FINISH that came early is taken. -/
def State.certificateCheck (s : State) (p : Nat) : State :=
  if s.fabRuns && s.portState p == portAuth && (s.fport p).keyIn && !(s.fport p).keysOk then
    if !s.peerProven p then s.refuseLink p 3
    else if s.certMismatch p (s.fport p).certIndex then s.refuseLink p 5
    else
      let k := s.deriveKeys p
      let s := (s.updPort p (fun x => { x with keysOk := true, txKey := k.1, rxKey := k.2 })).sendFinish p
      match (s.fport p).heldFinish with
      | some f => s.finishTaken p f.1 f.2
      | none => s
  else s

/-- CERTIFICATE_CHECK (R131). -/
def execCertificateCheck (p : Fin 8) (s : State) : Host.Outcome State Fault Refusal := done (fun s => s.certificateCheck p) s

/-- FINISH (R131 step 5); one that comes before the own check is done waits for it (log entry 111). -/
def State.finish (s : State) (p : Nat) (h : FabHdr) (hash : Digest) : State :=
  if s.fabRuns then
    if s.awaitsFinish p then s.finishTaken p h hash
    else if s.portState p = portAuth then s.updPort p (fun x => { x with heldFinish := some (h, hash) })
    else s
  else s

/-- FINISH (R131). -/
def execFinish (p : Fin 8) (h : FabHdr) (hash : Digest) (s : State) : Host.Outcome State Fault Refusal :=
  done (fun s => s.finish p h hash) s

/-! ### Link retry (R135) -/

/-- LINK_ACK (R135): the frame with the counter is no longer outstanding. -/
def State.linkAck (s : State) (p ctr : Nat) : State :=
  s.updPort p (fun x => { x with outstanding := x.outstanding.filter (fun o => o.ctr != ctr) })

/-- LINK_ACK (R135). -/
def execLinkAck (p : Fin 8) (h : FabHdr) (ctr : Nat) (s : State) : Host.Outcome State Fault Refusal :=
  done (fun s => s.receive p h (.linkAck ctr) (fun s => s.linkAck p ctr)) s

/-- LINK_RETRY_TIMER (R135): the identical bytes again, at most 3 times; then the frame is abandoned. -/
def State.linkRetry (s : State) (p ctr : Nat) : State :=
  match (s.fport p).outstanding.find? (fun o => o.ctr == ctr) with
  | none => s
  | some o =>
    if s.fabRuns && s.linked p then
      if o.sends < 4 then
        (s.updPort p (fun x =>
          { x with outstanding := x.outstanding.map (fun q => if q.ctr = ctr then { q with sends := q.sends + 1 } else q) })).transmit
          p o.packet.body o.bytes
      else ((s.linkAck p ctr).bump F.FAB_PORT_RETRY.count p).raise 78
    else s

/-- LINK_RETRY_TIMER (R135). -/
def execLinkRetryTimer (p : Fin 8) (ctr : Nat) (s : State) : Host.Outcome State Fault Refusal :=
  done (fun s => s.linkRetry p ctr) s

/-! ### Rekey (R133) -/

/-- The counter of either direction has reached a limit. -/
def State.counterAt (s : State) (p limit : Nat) : Bool := decide (limit ≤ s.txCtr p) || decide (limit ≤ (s.fport p).window.high)

/-- The REKEY and KEY exchange starts on this side, KEY first (log entry 112). -/
def State.startRekey (s : State) (p : Nat) : State :=
  ((s.sendKey p false).updPort p (fun x => { x with rekeying := true })).sendLink p .rekey

/-- REKEY_START (R133). -/
def State.rekeyStart (s : State) (p : Nat) : State :=
  if s.fabRuns && s.secure && s.linked p && !(s.fport p).rekeying && s.counterAt p (2 ^ 40) then s.startRekey p else s

/-- REKEY_START (R133). -/
def execRekeyStart (p : Fin 8) (s : State) : Host.Outcome State Fault Refusal := done (fun s => s.rekeyStart p) s

/-- REKEY (R133): this side answers with its own exchange where it has none running, and derives the new keys. -/
def State.rekeyRx (s : State) (p : Nat) : State :=
  let s := s.updPort p (fun x => { x with rekeyIn := true })
  (if (s.fport p).rekeying then s else s.startRekey p).rekeyStep p

/-- REKEY (R133). -/
def execRekey (p : Fin 8) (h : FabHdr) (s : State) : Host.Outcome State Fault Refusal :=
  done (fun s => s.receive p h .rekey (fun s => if s.secure then s.rekeyRx p else s)) s

/-- REKEY_STALL (R133): the link counts as down and starts again at HELLO. -/
def State.rekeyStall (s : State) (p : Nat) : State :=
  if s.fabRuns && s.linked p && (s.fport p).rekeying && s.counterAt p (2 ^ 41) then
    (((s.linkGone p portStall).updPort p (fun x => { x with helloDone := false, rekeying := false })).raise 79).sendHello p
  else s

/-- REKEY_STALL (R133). -/
def execRekeyStall (p : Fin 8) (s : State) : Host.Outcome State Fault Refusal := done (fun s => s.rekeyStall p) s

/-- OLD_PHASE_ACCEPT_END (R133). -/
def execOldPhaseAcceptEnd (p : Fin 8) (s : State) : Host.Outcome State Fault Refusal :=
  done (fun s =>
    if s.fabRuns then s.updPort p (fun x => { x with oldRxKey := none, oldWindow := RxWindow.initial }) else s) s

/-! ### Enumeration and topology (R145) -/

/-- ENUM (R145): a star without a number takes the number, floods TOPO, and passes the next number on; a star with a fixed one
passes ENUM on unchanged, and one that took its own from ENUM keeps the next number above it (log entry 103). -/
def State.enumRx (s : State) (p : Nat) (h : FabHdr) (n : BitVec 12) : State :=
  let k := packetOf h (.enum n)
  if s.numbered then
    s.enumWalk p k (if s.fab.byEnum ∧ n.toNat ≤ s.star.toNat then s.star + 1 else n)
  else
    let s := (s.fset F.FAB_STATUS.star n.toNat).fset F.FAB_STATUS.numbered 1
    ({ s with fab := { s.fab with byEnum := true } }.floodTopo.settleMaster).enumWalk p k (n + 1)

/-- ENUM (R145). -/
def execEnum (p : Fin 8) (h : FabHdr) (number : BitVec 12) (s : State) : Host.Outcome State Fault Refusal :=
  done (fun s => s.receive p h (.enum number) (fun s => s.enumRx p h number)) s

/-- R145: a TOPO in the own name that this star never sent comes from another star with its number: CONFLICT. -/
def State.topoConflict (s : State) (p : Nat) : State :=
  (((s.linkGone p portRefused).fset F.FAB_PORT_STATUS.reason 4 p).raise 81)

/-- R145: the routes take a TOPO, and its neighbours are known by it. -/
def State.topoTaken (s : State) (p : Nat) (h : FabHdr) (links : List TopoLink) : State :=
  let rest := s.fab.topology.filter (fun e => e.1 != h.src)
  let s := { s with fab := { s.fab with topology := rest ++ [(h.src, links)] } }
  onlyIf (h.hops == 0) (fun s => s.updPort p (fun x => { x with neighbour := some h.src })) s

/-- TOPO (R145): the routes take it, and it is flooded on unless it says nothing new. -/
def State.topoRx (s : State) (p : Nat) (h : FabHdr) (links : List TopoLink) : State :=
  if s.numbered && !h.unnumbered && h.src == s.star then if s.fab.ownTopo.contains links then s else s.topoConflict p
  else if s.fab.topology.contains (h.src, links) && (h.hops != 0 || (s.fport p).neighbour == some h.src) then s
  else
    let s := s.topoTaken p h links
    (s.floodOn p (packetOf h (.topo links))).settleMaster.retellTopo

/-- TOPO (R145). -/
def execTopo (p : Fin 8) (h : FabHdr) (links : List TopoLink) (s : State) : Host.Outcome State Fault Refusal :=
  done (fun s => s.receive p h (.topo links) (fun s => s.topoRx p h links)) s

/-! ### Heartbeats and rings (R146) -/

/-- HEARTBEAT_SEND (R146): on every UP or BLOCKED link. -/
def State.heartbeatSend (s : State) : State :=
  if s.fabRuns then forEach ((List.range 8).filter s.linked) (fun p s => s.sendLink p .heartbeat) s else s

/-- HEARTBEAT_SEND (R146). -/
def execHeartbeatSend (s : State) : Host.Outcome State Fault Refusal := done State.heartbeatSend s

/-- HEARTBEAT (R146). -/
def execHeartbeat (p : Fin 8) (h : FabHdr) (s : State) : Host.Outcome State Fault Refusal :=
  done (fun s => s.receive p h .heartbeat (fun s => s.updPort p (fun x => { x with missed := 0 }))) s

/-- HEARTBEAT_MISSED (R146): 5 in a row declare the link down. -/
def State.heartbeatMissed (s : State) (p : Nat) : State :=
  if s.fabRuns && s.linked p then
    if (s.fport p).missed + 1 < 5 then s.updPort p (fun x => { x with missed := x.missed + 1 }) else s.linkDown p
  else s

/-- HEARTBEAT_MISSED (R146). -/
def execHeartbeatMissed (p : Fin 8) (s : State) : Host.Outcome State Fault Refusal := done (fun s => s.heartbeatMissed p) s

/-- BLOCK_LOCK_LOSS (R146, R131): a link is declared down; a bring-up in progress returns to DOWN. -/
def State.blockLockLoss (s : State) (p : Nat) : State :=
  let s := s.fset F.FAB_PORT_STATUS.clk_present 0 p
  if s.linked p then s.linkDown p
  else if s.portState p = portVerify ∨ s.portState p = portHello ∨ s.portState p = portAuth ∨ s.portState p = portStall then
    s.setPort p portDown
  else s

/-- BLOCK_LOCK_LOSS (R146). -/
def execBlockLockLoss (p : Fin 8) (s : State) : Host.Outcome State Fault Refusal :=
  done (fun s => if s.fabRuns then s.blockLockLoss p else s.whenUp (fun s => s.fset F.FAB_PORT_STATUS.clk_present 0 p)) s

/-- The ports by which a RING_FAULT goes on: along the ring, at a star that is not its manager. -/
def State.faultWays (s : State) (p : Nat) : List Nat :=
  if s.ringManager (s.recipe.portRing p) || s.portState p != portUp then []
  else ((s.recipe.ringMate p).toList).filter (fun q => s.portState q == portUp)

/-- RING_FAULT (R146 step 2): the ring manager opens its blocked port; any other member passes it along the ring. -/
def State.ringFaultRx (s : State) (p : Nat) (h : FabHdr) (other : BitVec 12) : State :=
  let g := s.recipe.portRing p
  if g = 255 then s
  else if s.ringManager g then s.openRing g h.src other
  else forEach (s.faultWays p) (fun q s => s.forwardPacket q (packetOf h (.ringFault other))) s

/-- RING_FAULT (R146). -/
def execRingFault (p : Fin 8) (h : FabHdr) (other : BitVec 12) (s : State) : Host.Outcome State Fault Refusal :=
  done (fun s => s.receiveExpress p h (.ringFault other) (s.faultWays p) (fun s => s.ringFaultRx p h other)) s

/-- RING_HEALED (R146 steps 3 to 5): flooded on, and the heal takes effect here. -/
def State.ringHealedRx (s : State) (p : Nat) (h : FabHdr) (a b : BitVec 12) : State :=
  (s.floodOn p (packetOf h (.ringHealed a b))).healed a b

/-- RING_HEALED (R146). -/
def execRingHealed (p : Fin 8) (h : FabHdr) (linkA linkB : BitVec 12) (s : State) : Host.Outcome State Fault Refusal :=
  done (fun s =>
    s.receiveExpress p h (.ringHealed linkA linkB) (s.onwardPorts p) (fun s => s.ringHealedRx p h linkA linkB)) s

/-! ### Indications (R128, R130) -/

/-- Serial-number order: b lies after a (R137). -/
def advances (a b : W32) : Bool := decide (0 < (b - a).toNat) && decide ((b - a).toNat < 2 ^ 31)

/-- R130: an INDICATION comes from an origin that the recipe lists. -/
def State.originListed (s : State) (h : FabHdr) : Bool := !h.unnumbered && s.recipe.expressOrigins.contains h.src.toNat

/-- INDICATION (R130): an origin that the recipe lists; passed on, and accepted when its `change_count` advances. -/
def State.indicationRx (s : State) (p : Nat) (h : FabHdr) (x : Indication) : State :=
  if s.originListed h then
    let s := s.floodOn p (packetOf h (.indication x.indId x.change x.originSt x.body))
    let known := s.fab.accepted.find? (fun y => y.origin == x.origin && y.indId == x.indId)
    let new := match known with | some y => advances y.change x.change | none => true
    if new then
      let rest := s.fab.accepted.filter (fun y => !(y.origin == x.origin && y.indId == x.indId))
      { s with
        fab := { s.fab with accepted := rest ++ [x] }
        isl := { s.isl with indications := s.isl.indications ++ [x] } }.raise 85
    else s
  else s.authFail p

/-- INDICATION (R128, R130). -/
def execIndication (p : Fin 8) (h : FabHdr) (indId : BitVec 16) (change : W32) (originSt : ST) (body : List Byte) (s : State) :
    Host.Outcome State Fault Refusal :=
  done (fun s =>
    s.receiveExpress p h (.indication indId change originSt body) (if s.originListed h then s.onwardPorts p else [])
      (fun s => s.indicationRx p h ⟨h.src, indId, change, originSt, body, 0⟩)) s

/-- The copy that has been due longest (R130). -/
def oldestCopy (now : ST) (l : List IndCopy) : Option IndCopy :=
  l.foldl (fun best c =>
    if notLater c.due now then
      match best with
      | none => some c
      | some b => if earlier c.due b.due then some c else some b
    else best) none

/-- The `ind_id` whose last sending is longest ago, if it is 1 ms ago or more (R130). -/
def oldestRepeat (now : ST) (l : List Indication) : Option Indication :=
  l.foldl (fun best x =>
    if notLater (x.sentSt + 1000000#64) now then
      match best with
      | none => some x
      | some b => if earlier x.sentSt b.sentSt then some x else some b
    else best) none

/-- Send the current state of an `ind_id`. -/
def State.sendIndication (s : State) (x : Indication) : State :=
  let now := s.gridTime
  let s := s.flood (.indication x.indId x.change x.originSt x.body)
  { s with
    fab := { s.fab with origin := s.fab.origin.map (fun y => if y.indId = x.indId then { y with sentSt := now } else y) } }

/-- EXPRESS_SEND_SLOT (R130): the copy due longest, whose next copy falls due 10 µs later; else a 1 ms repeat. -/
def State.expressSlot (s : State) : State :=
  let now := s.gridTime
  match oldestCopy now s.fab.copies with
  | some c =>
    let rest := s.fab.copies.filter (· != c)
    let next := if c.copy < 3 then [⟨c.indId, c.copy + 1, now + 10000#64⟩] else []
    let s := { s with fab := { s.fab with copies := rest ++ next } }
    match s.fab.origin.find? (fun x => x.indId == c.indId) with
    | some x => s.sendIndication x
    | none => s
  | none =>
    match oldestRepeat now s.fab.origin with
    | some x => s.sendIndication x
    | none => s

/-- EXPRESS_SEND_SLOT (R130). -/
def execExpressSendSlot (s : State) : Host.Outcome State Fault Refusal :=
  done (fun s => if s.fabRuns then s.expressSlot else s) s

/-! ### Application rings (R140) -/

/-- The ring of an application port has a place for one entry: its size in bytes is given. The answer is none with a ring,
RING_FULL (2) or NO_PORT (5) otherwise. -/
def State.ringRefusal (s : State) (q : Nat) : Nat :=
  let n := 2 ^ (s.fget F.FAB_APP_RING_CFG.log2 q + 4)
  if s.get64 .FAB_APP_RING_LO .FAB_APP_RING_HI q = 0 then 5
  else if (s.fget F.FAB_APP_RING_HEAD.head q + 1) % n = s.fget F.FAB_APP_RING_TAIL.tail q % n then 2
  else 0

/-- The address of the next entry of a ring. -/
def State.ringAddr (s : State) (q : Nat) : Nat :=
  (s.get64 .FAB_APP_RING_LO .FAB_APP_RING_HI q).toNat
    + s.fget F.FAB_APP_RING_HEAD.head q * (if s.flag F.FAB_APP_RING_CFG.big q then 2048 else 64)

/-- An entry was written: the head advances and EV_FAB_APP_RX is raised. -/
def State.ringPush (s : State) (q : Nat) : State :=
  let n := 2 ^ (s.fget F.FAB_APP_RING_CFG.log2 q + 4)
  (s.fset F.FAB_APP_RING_HEAD.head ((s.fget F.FAB_APP_RING_HEAD.head q + 1) % n) q).raise (88 + q)

/-! ### Reliable delivery (R139, R140) -/

/-- The record of one sender. -/
def FabState.rxPeer (x : FabState) (a : BitVec 12) : Option RxPeer := x.rxPeers.find? (fun e => e.star == a)

/-- The recorded outcome of a `seq`. -/
def RxPeer.outcome (e : RxPeer) (seq : W32) : Option RxRecord := e.records.find? (fun r => r.seq == seq)

/-- R139, row 5: the `seq` precedes the 64 recorded. -/
def RxPeer.below (e : RxPeer) (seq : W32) : Bool :=
  decide (64 ≤ e.records.length) && e.records.all (fun r => advances seq r.seq)

/-- The first row of R139 that matches. -/
def State.dataRow (s : State) (src : BitVec 12) (m : DataMsg) : Nat :=
  let e := s.fab.rxPeer src
  let same := match e with | some e => e.epoch == m.epoch | none => false
  if same && (e.bind (fun e => e.outcome m.seq)).isSome then 1
  else if earlier m.voidAfter s.tim.st then 2
  else if e.isNone && decide (256 ≤ s.fab.rxPeers.length) then 3
  else if !same && !m.isOpen then 4
  else if same && ((e.map (fun e => e.below m.seq)).getD false) then 5
  else 6

/-- Records kept newest `seq` first, the 64 highest. -/
def insertRecord (r : RxRecord) : List RxRecord → List RxRecord
  | [] => [r]
  | x :: t => if advances x.seq r.seq then r :: x :: t else x :: insertRecord r t

/-- R139: an outcome is recorded under a sender and epoch; a record of another epoch is replaced. -/
def State.recordOutcome (s : State) (src : BitVec 12) (epoch : BitVec 16) (r : RxRecord) : State :=
  let old := match s.fab.rxPeer src with | some e => if e.epoch = epoch then e.records else [] | none => []
  let e : RxPeer := { star := src, epoch := epoch, records := (insertRecord r old).take 64, last := s.gridTime }
  let rest := s.fab.rxPeers.filter (fun x => x.star != src)
  { s with fab := { s.fab with rxPeers := rest ++ [e] } }.countPeers

/-- R139: a message of a sender starts its 2 s anew. -/
def State.touchSender (s : State) (src : BitVec 12) : State :=
  { s with fab := { s.fab with rxPeers := s.fab.rxPeers.map (fun e => if e.star = src then { e with last := s.gridTime } else e) } }

/-- Send a REPLY on the route to a star, or back through the port of arrival while no route is known. -/
def State.sendReply (s : State) (p : Nat) (dst : BitVec 12) (m : ReplyMsg) : State :=
  s.sendPacket (((s.ownRoute dst).map (·.1)).getD p) (s.toStar dst (.reply m))

/-- The cue entry in data bytes 0 to 31 (R140). -/
def dataEntry (m : DataMsg) : CueEntry :=
  CueEntry.ofWords ((List.range 8).map (fun k => BitVec.ofNat 32 (u32 m.bytes (4 * k))))

/-- R140: the execution of a message: outcome, detail, result, and the state after it but for a ring entry's bytes. -/
def State.executeData (s : State) (m : DataMsg) : RxRecord × State :=
  match m.kind with
  | .deliver =>
    let why := s.ringRefusal m.appPort
    if why = 0 then (⟨m.seq, 1, 0, 0⟩, s.ringPush m.appPort) else (⟨m.seq, 2, why, 0⟩, s)
  | .arm =>
    let r := s.arm 0 (dataEntry m)
    let s := (r.2.2.fset F.CUE_STATUS.err r.1).fset F.CUE_STATUS.slot r.2.1
    (⟨m.seq, 1, 0, (s.get .CUE_STATUS).zeroExtend 64⟩, s)

/-- R139: a DATA message addressed to this star. -/
def State.dataHere (s : State) (p : Nat) (src : BitVec 12) (m : DataMsg) : State :=
  let s := s.touchSender src
  let answer (s : State) (o d : Nat) (r : BitVec 64) : State := s.sendReply p src ⟨m.seq, m.epoch, o, d, r⟩
  match s.dataRow src m with
  | 1 =>
    match (s.fab.rxPeer src).bind (fun e => e.outcome m.seq) with
    | some r => answer s 3 r.outcome r.result
    | none => s
  | 2 =>
    let same := match s.fab.rxPeer src with | some e => e.epoch == m.epoch | none => false
    let s := if same then s.recordOutcome src m.epoch ⟨m.seq, 2, 1, 0⟩ else s
    answer s 2 1 0
  | 3 => (answer s 2 4 0).raise 82
  | 4 => answer s 2 3 0
  | 5 => answer s 3 0 0
  | _ =>
    let r := s.executeData m
    answer (r.2.recordOutcome src m.epoch r.1) r.1.outcome r.1.detail r.1.result

/-- The frame is for this star. -/
def State.forMe (s : State) (h : FabHdr) : Bool := h.broadcast || (s.numbered && h.dst == s.star)

/-- Who holds the ring of an application port, as its writes are admitted to memory: the partition that FAB_APP_RING_CFG names, or
else the manager (log entry 35). -/
def State.ringHolder (s : State) (q : Nat) : Nat :=
  let o := s.fget F.FAB_APP_RING_CFG.owner q
  if 64 ≤ o ∧ o < 72 then o else 0

/-- What FAB writes for its holder into an application ring, before the rest of its effect. -/
def State.ringWrite (s : State) (write : Bool) (q : Nat) (b : List Byte) (f : State → State) : List Store × State :=
  if write then
    let w := s.engineWrite .io (s.ringHolder q) (s.ringAddr q) b
    (w.stores, f w.s)
  else ([], f s)

/-- The entry of an executed DELIVER: the 64 bytes of its payload as they came (log entry 35). -/
def dataEntryBytes (m : DataMsg) : List Byte := dataPayload m

/-- R140: a DATA frame stores the entry of an executed DELIVER. -/
def State.dataStored (s : State) (p : Nat) (h : FabHdr) (m : DataMsg) : Bool :=
  s.fabCarries && s.rxVerdict p h (.data m) == .accepted && s.numbered && h.dst == s.star && s.dataRow h.src m == 6
    && m.kind == .deliver && s.ringRefusal m.appPort == 0

/-- A frame for another star goes on along its route; a blocked port forwards nothing (R127, R144). -/
def State.routeOn (s : State) (p : Nat) (k : FabPacket) : State :=
  if s.portState p = portUp then
    match s.route k.dst with
    | some r => s.forwardPacket r.1 k
    | none => s
  else s

/-- DATA (R139). -/
def State.dataRx (s : State) (p : Nat) (h : FabHdr) (m : DataMsg) : State :=
  s.receiveAcked p h (.data m) (fun s =>
    if s.numbered && h.dst == s.star then s.dataHere p h.src m else s.routeOn p (packetOf h (.data m)))

/-- DATA (R139). -/
def execData (p : Fin 8) (h : FabHdr) (m : DataMsg) (s : State) : Host.Outcome State Fault Refusal :=
  packetEnd (fun s => s.ringWrite (s.dataStored p h m) m.appPort (dataEntryBytes m) (fun s => s.dataRx p h m)) s

/-- The slot whose message a REPLY answers: same peer, epoch and `seq`. -/
def State.slotAnswered (s : State) (src : BitVec 12) (m : ReplyMsg) : Option Nat :=
  (List.range 256).find? (fun n =>
    let x := s.slotOf n
    x.dst == src && (match x.msg with | some d => d.seq == m.seq && d.epoch == m.epoch | none => false)
      && (s.slotState n == 2 || s.slotState n == 3))

/-- The outcome that a REPLY gives a message: DUP stands for the original outcome, or for DUP where it is not known. -/
def replyMeaning (m : ReplyMsg) : Nat := if m.outcome = 3 ∧ m.detail ≠ 0 then m.detail else m.outcome

/-- R140: a REPLY for this star: the slot ends, or a late reply is noted. -/
def State.replyHere (s : State) (src : BitVec 12) (m : ReplyMsg) : State :=
  match s.slotAnswered src m with
  | none => s
  | some n =>
    if s.slotState n = 2 then
      let s := s.put64 .FAB_SLOT_RESULT_LO .FAB_SLOT_RESULT_HI m.result n
      (s.endSlot n (replyMeaning m) m.detail).freeWindow n src
    else if s.fget F.FAB_SLOT_STATUS.outcome n = 4 then
      let s := (s.fset F.FAB_SLOT_STATUS.late_reply 1 n).fset F.FAB_SLOT_STATUS.late_outcome m.outcome n
      let s := (s.fset F.FAB_SLOT_STATUS.detail m.detail n).put64 .FAB_SLOT_RESULT_LO .FAB_SLOT_RESULT_HI m.result n
      (s.bump F.FAB_LATE_REPLY_COUNT.count).raise 77
    else s

/-- REPLY (R140). -/
def State.replyRx (s : State) (p : Nat) (h : FabHdr) (m : ReplyMsg) : State :=
  s.receiveAcked p h (.reply m) (fun s =>
    if s.numbered && h.dst == s.star then s.replyHere h.src m else s.routeOn p (packetOf h (.reply m)))

/-- REPLY (R140). -/
def execReply (p : Fin 8) (h : FabHdr) (m : ReplyMsg) (s : State) : Host.Outcome State Fault Refusal :=
  done (fun s => s.replyRx p h m) s

/-- R140: a bulk frame is kept by a ring of 2,048-byte entries with a free place. -/
def State.bulkKept (s : State) (q : Nat) : Bool := s.flag F.FAB_APP_RING_CFG.big q && s.ringRefusal q == 0

/-- BULK_DATA (R140): passed on, and written to a 2,048-byte entry of the application port. -/
def State.bulkRx (s : State) (p : Nat) (h : FabHdr) (q : Nat) (body : List Byte) : State :=
  s.receiveAcked p h (.bulk q body) (fun s =>
    let k := packetOf h (.bulk q body)
    let s := if h.broadcast then s.floodOn p k else if s.forMe h then s else s.routeOn p k
    if s.forMe h && s.bulkKept q then s.ringPush q else s)

/-- A bulk frame is stored. -/
def State.bulkStored (s : State) (p : Nat) (h : FabHdr) (q : Nat) (body : List Byte) : Bool :=
  s.fabCarries && s.rxVerdict p h (.bulk q body) == .accepted && s.forMe h && s.bulkKept q

/-- BULK_DATA (R140). -/
def execBulkData (p : Fin 8) (h : FabHdr) (appPort : Fin 32) (body : List Byte) (s : State) : Host.Outcome State Fault Refusal :=
  packetEnd (fun s => s.ringWrite (s.bulkStored p h appPort body) appPort (body.take 1466) (fun s => s.bulkRx p h appPort body)) s

/-- MESSAGE_REPEAT (R138): an unanswered message again, with the same `seq`, every 2 D after its first send. -/
def State.messageRepeat (s : State) (n : Nat) : State :=
  let x := s.slotOf n
  if s.fabCarries && s.slotState n == 2 && notLater x.nextRepeat s.gridTime then
    match x.msg with
    | some m => (s.setSlot n { x with repeats := x.repeats + 1 }).sendMessage x.dst m
    | none => s
  else s

/-- MESSAGE_REPEAT (R138). -/
def execMessageRepeat (slot : Fin 256) (s : State) : Host.Outcome State Fault Refusal := done (fun s => s.messageRepeat slot) s

/-- The message of a slot ends with outcome UNKNOWN (R138). -/
def State.endUnknown (s : State) (n : Nat) : State := ((s.endSlot n 4 0).bump F.FAB_UNKNOWN_COUNT.count).raise 76

/-- SENDER_TIMEOUT (R138): at `void_after` + 2 D a message that has no answer ends with outcome UNKNOWN, one that still waits for the
window included. -/
def State.senderTimeout (s : State) (n : Nat) : State :=
  let x := s.slotOf n
  if s.fabRuns && notLater x.timeout s.tim.st then
    if s.slotState n = 2 then (s.endUnknown n).freeWindow n x.dst
    else if s.slotState n = 1 then
      (s.endUnknown n).updTx x.dst (fun e => { e with waiting := e.waiting.filter (· != n) })
    else s
  else s

/-- SENDER_TIMEOUT (R138). -/
def execSenderTimeout (slot : Fin 256) (s : State) : Host.Outcome State Fault Refusal := done (fun s => s.senderTimeout slot) s

/-- PEER_RECORD_RELEASE (R139): after 2 s without a message of the sender. -/
def State.peerRecordRelease (s : State) (star : BitVec 12) : State :=
  let silent (e : RxPeer) : Bool := e.star == star && notLater (e.last + 2000000000#64) s.gridTime
  if s.fabRuns then { s with fab := { s.fab with rxPeers := s.fab.rxPeers.filter (fun e => !silent e) } }.countPeers else s

/-- PEER_RECORD_RELEASE (R139). -/
def execPeerRecordRelease (star : BitVec 12) (s : State) : Host.Outcome State Fault Refusal :=
  done (fun s => s.peerRecordRelease star) s

/-- FAB_SLOT_SEND (R147): a write of `send` by the manager or inner-world code sends the slot now. -/
def State.slotSendWrite (s : State) (a : Agent) (n : Nat) : State :=
  if a = .manager ∨ a = .inner then
    if s.clocked .FAB then
      if s.fabCarries then s.sendSlot n (s.slotVoid n s.tim.st) 0 else s.fset F.FAB_SLOT_STATUS.err 3 n
    else s.emit (.busError a)
  else s.emit (.busError a)

/-- FAB_SLOT_SEND (R147). -/
def execFabSlotSend (a : Agent) (slot : Fin 256) (s : State) : Host.Outcome State Fault Refusal :=
  done (fun s => s.slotSendWrite a slot) s

/-- FAB_PEER_RELEASE: the manager frees an idle sender entry; no effect while messages are unanswered. -/
def State.peerRelease (s : State) (a : Agent) (star : BitVec 12) : State :=
  if !s.clocked .FAB || !(a == .manager || a == .inner) then s.emit (.busError a)
  else if a = .manager then
    match s.fab.txPeer star with
    | some e =>
      if e.unanswered.isEmpty && e.waiting.isEmpty then
        { s with fab := { s.fab with txPeers := s.fab.txPeers.filter (fun x => x.star != star) } }.countPeers
      else s
    | none => s
  else s

/-- FAB_PEER_RELEASE (R138). -/
def execFabPeerRelease (a : Agent) (star : BitVec 12) (s : State) : Host.Outcome State Fault Refusal :=
  done (fun s => s.peerRelease a star) s

/-! ### Time transport (R141, R143) -/

/-- PDELAY_TIMER (R141): every UP or BLOCKED port. -/
def execPdelayTimer (s : State) : Host.Outcome State Fault Refusal :=
  done (fun s =>
    if s.fabRuns then forEach ((List.range 8).filter s.linked) (fun p s => s.sendLink p .pdelayReq) s else s) s

/-- PDELAY_MESSAGE (R141): a request is answered; a completed exchange gives the link delay, with which the link may carry Sync
(R131 step 6). -/
def State.pdelayRx (s : State) (p : Nat) (measured : Option Nat) : State :=
  match measured with
  | none => s.sendLink p .pdelayResp
  | some d => (s.put .FAB_PORT_DELAY (BitVec.ofNat 32 d) p).updPort p (fun x => { x with delayKnown := true })

/-- PDELAY_MESSAGE (R141). -/
def execPdelayMessage (p : Fin 8) (h : FabHdr) (measured : Option Nat) (s : State) : Host.Outcome State Fault Refusal :=
  done (fun s =>
    s.receive p h (if measured.isSome then .pdelayResp else .pdelayReq) (fun s => s.pdelayRx p measured)) s

/-- SYNC_SEND (R131, R141): on every unblocked port other than the time port whose link delay is known. -/
def State.syncSend (s : State) : State :=
  if s.fabRuns && s.stValid then
    forEach (s.openPorts.filter (fun p => !s.flag F.FAB_PORT_STATUS.time_port p && (s.fport p).delayKnown)) (fun p s =>
      s.sendLink p (.sync s.tim.st)) s
  else s

/-- SYNC_SEND (R141). -/
def execSyncSend (s : State) : Host.Outcome State Fault Refusal := done State.syncSend s

/-- The Announce of each port is one interval older, and is forgotten when three have passed (log entry 102). -/
def State.ageHeard (s : State) : State :=
  forEach (List.range 8) (fun p s => s.updPort p (fun x =>
    { x with heard := x.heard.bind (fun h => if h.age < 3 then some { h with age := h.age + 1 } else none) })) s

/-- ANNOUNCE_SEND (R141, R143): one Announce interval: what is heard ages, a master heard no more is given up, and Announce goes
out. -/
def State.announceSend (s : State) : State :=
  if s.fabRuns then
    let s := s.ageHeard
    let silent := if s.isMaster ∨ s.masterHeard then 0 else s.fab.masterSilent + 1
    ({ s with fab := { s.fab with masterSilent := silent } }.settleMaster).announceOut
  else s

/-- ANNOUNCE_SEND (R141). -/
def execAnnounceSend (s : State) : Host.Outcome State Fault Refusal := done State.announceSend s

/-- ANNOUNCE (R143): what an unblocked port names enters the election. A port that named the master known and names another now
shows that it is gone, where no other port names it (log entry 102). -/
def State.announceRx (s : State) (p priority : Nat) (star : BitVec 12) (hops : Nat) : State :=
  if s.portState p = portUp ∧ priority ≠ 0 then
    let was := s.masterHeard
    let s := s.updPort p (fun x => { x with heard := some ⟨priority, star, hops, 0⟩ })
    let silent := if s.masterHeard then 0 else if was then silentLimit else s.fab.masterSilent
    { s with fab := { s.fab with masterSilent := silent } }.settleMaster
  else s

/-- ANNOUNCE (R143). -/
def execAnnounce (p : Fin 8) (h : FabHdr) (priority : Nat) (star : BitVec 12) (hopsToIt : Nat) (s : State) :
    Host.Outcome State Fault Refusal :=
  done (fun s => s.receive p h (.announce priority star hopsToIt) (fun s => s.announceRx p priority star hopsToIt)) s

/-- UNSUPPORTED_FRAME (R121): discarded and counted in `rx_discard`. -/
def execUnsupportedFrame (p : Fin 8) (_kind : BadFrame) (s : State) : Host.Outcome State Fault Refusal :=
  done (fun s => if s.fabRuns then s.bump F.FAB_PORT_DISCARD.count p else s) s

end Sys2Proof.Machine
end

