-- ==== Sys2Proof/Machine/SioOps.lean ====
section
/-! DEFINITION. Show and console I/O (R343 to R360): DMX frames and RDM gaps, MIDI FIFOs, LTC numbering and output grids,
faders, encoders, bus transfers and GPIO lines. -/

namespace Sys2Proof.Machine

/-! ### DMX and RDM (R343 to R349) -/

/-- The states of a DMX port (DMX_STATUS.state): 0 IDLE. -/
def dmxIdle : Nat := 0
/-- FRAME. -/
def dmxFrame : Nat := 1
/-- RDM. -/
def dmxRdm : Nat := 2
/-- OFF. -/
def dmxOff : Nat := 3

/-- The modes of a DMX port (R341). -/
def modeTx : Nat := 1
/-- RX. -/
def modeRx : Nat := 2
/-- RDM. -/
def modeRdm : Nat := 3

/-- The hidden part of a DMX port. -/
def State.dmxPort (s : State) (p : Nat) : DmxPort := Tbl.get DmxPort.initial s.sio.dmx p

/-- Store the hidden part of a DMX port. -/
def State.setDmx (s : State) (p : Nat) (x : DmxPort) : State :=
  { s with sio := { s.sio with dmx := Tbl.set DmxPort.initial s.sio.dmx p x } }

/-- The mode of a port. -/
def State.dmxMode (s : State) (p : Nat) : Nat := s.fget F.DMX_CFG.mode p

/-- The state of a port. -/
def State.dmxState (s : State) (p : Nat) : Nat := s.fget F.DMX_STATUS.state p

/-- R345: the port takes a commit. -/
def State.dmxAccepts (s : State) (p : Nat) : Bool :=
  s.awake && s.dmxState p == dmxIdle && (s.dmxMode p == modeTx || s.dmxMode p == modeRdm)

/-- A frame starts with its break: the registers as they stand apply to it. -/
def State.dmxStart (s : State) (p : Nat) : State :=
  let s := (s.setDmx p { s.dmxPort p with
    fetched := false, startTick := s.tim.ticks, liveCfg := s.get .DMX_CFG p, liveTiming := s.get .DMX_TIMING p,
    liveTiming2 := s.get .DMX_TIMING2 p }).fset F.DMX_STATUS.state dmxFrame p
  s.emit (.dmxBreak p (F.DMX_TIMING.break_us.of (s.get .DMX_TIMING p)) (F.DMX_TIMING.mab_us.of (s.get .DMX_TIMING p)))

/-- The tick at which `mab_us` of the running frame ends. -/
def DmxPort.markEnd (x : DmxPort) : Nat :=
  x.startTick + (F.DMX_TIMING.break_us.of x.liveTiming + F.DMX_TIMING.mab_us.of x.liveTiming) * 1000

/-- R343: the ns of a start code and n data slots, 44 µs each, with `interslot_us` of mark before each data slot. -/
def slotsNs (slots gapUs : Nat) : Nat := ((slots + 1) * 44 + slots * gapUs) * 1000

/-- A commit (R344, R345): whether the port accepts it, and the state. -/
def State.dmxCommit (s : State) (p : Nat) : Bool × State :=
  if s.dmxAccepts p then (true, s.dmxStart p) else (false, s.bump F.DMX_REFUSED_COUNT.count p)

/-- The address of a port's buffer. -/
def State.dmxBuf (s : State) (p : Nat) : Nat := (s.get64 .DMX_BUF_LO .DMX_BUF_HI p).toNat % 2 ^ 48

/-- One piece of the slots: 0 where the read gets an error response (R344). -/
def slotPiece (owner : Nat) (r : List Byte × State) (p : Nat × Nat) : List Byte × State :=
  match r.2.land .io owner p.1 false with
  | (.ram a, s) => (r.1 ++ s.readBytes a p.2, s)
  | (_, s) => (r.1 ++ List.replicate p.2 0, s)

/-- The slots of a frame as they stand in memory. -/
def State.dmxSlots (s : State) (p : Nat) : List Byte × State :=
  (piecesOf (s.dmxBuf p) (F.DMX_CFG.slot_count.of (s.dmxPort p).liveCfg)).foldl (slotPiece (s.dmxHolder p)) ([], s)

/-- R343, R344: the start code and the slots follow the mark, which lasts until they are read. -/
def State.dmxSend (s : State) (p : Nat) (bytes : List Byte) : State :=
  let x := s.dmxPort p
  let gap := F.DMX_TIMING2.interslot_us.of x.liveTiming2
  (s.setDmx p { x with
    last := some bytes, fetched := true
    endTick := max s.tim.ticks x.markEnd + slotsNs (bytes.length - 1) gap }).emit (.dmxSlots p gap bytes)

/-- DMXn_DE: high from the break to the end of the last stop bit (R343, R347), and held high in Twilight by a port that
transmits (R361). -/
def State.dmxDe (s : State) (p : Nat) : Bool :=
  (s.pwr.state == 2 && (s.dmxMode p == modeTx || s.dmxMode p == modeRdm))
    || (s.dmxState p == dmxFrame && (!(s.dmxPort p).fetched || decide (s.tim.ticks < (s.dmxPort p).endTick)))
    || (s.dmxState p == dmxRdm && decide (s.tim.ticks < (s.dmxPort p).endTick))

/-- The address of a port's RDM message. -/
def State.rdmAddr (s : State) (p : Nat) : Nat := (s.get64 .DMX_RDM_ADDR_LO .DMX_RDM_ADDR_HI p).toNat % 2 ^ 48

/-- R349: B in µs. -/
def State.rdmGap (s : State) (p : Nat) (discovery : Bool) : Nat :=
  188 + 44 * (s.fget F.DMX_RDM_LEN.msg_len p + 2) + 2800 + 440
    + 44 * (if discovery then 24 else s.fget F.DMX_RDM_LEN.resp_slots p)

/-- The time from now to the next grid point, in ns. -/
def State.rdmToGrid (s : State) (p : Nat) : Nat :=
  let period := (s.get .DMX_GRID_PERIOD p).toNat
  let d := stDiff s.gridTime (s.get64 .DMX_GRID_PHASE_LO .DMX_GRID_PHASE_HI p)
  period - (d % (period : Int)).toNat

/-- R349: a queued transaction may start. -/
def State.rdmFits (s : State) (p : Nat) (discovery : Bool) : Bool :=
  s.dmxState p == dmxIdle &&
    ((s.get .DMX_GRID_PERIOD p) == 0 || decide (s.rdmGap p discovery * 1000 ≤ s.rdmToGrid p))

/-- R347, step 1: the 16-bit sum of the slots of a message. -/
def rdmSum (b : List Byte) : Nat := (b.map (·.toNat)).sum % 65536

/-- R347: the result of a response: framing, then the checksum in the last two bytes. -/
def rdmResult (b : List Byte) (framingOk : Bool) : Nat :=
  let n := b.length - 2
  if !framingOk then 4
  else if 2 ≤ b.length && rdmSum (b.take n) == u8 b n * 256 + u8 b (n + 1) then 1
  else 3

/-- R348: the bytes of a discovery response from 0xAA on, after at most seven bytes 0xFE. -/
def afterPreamble : Nat → List Byte → Option (List Byte)
  | _, [] => none
  | n, b :: t => if b = 0xAA then some t else if b = 0xFE then (match n with | 0 => none | n + 1 => afterPreamble n t) else none

/-- R348: byte k of the UID and checksum, the AND of its two encoded bytes. -/
def discByte (b : List Byte) (k : Nat) : Nat := (b.getD (2 * k) 0 &&& b.getD (2 * k + 1) 0).toNat

/-- R348: the UID of a valid discovery response. -/
def discUid (b : List Byte) : Option Nat :=
  match afterPreamble 7 b with
  | some t =>
    if t.length = 16 ∧ rdmSum (t.take 12) = discByte t 6 * 256 + discByte t 7 then
      some ((List.range 6).foldl (fun v k => v * 256 + discByte t k) 0)
    else none
  | none => none

/-! ### MIDI (R350) -/

/-- The hidden part of a MIDI port. -/
def State.midiPort (s : State) (m : Nat) : MidiPort := Tbl.get MidiPort.initial s.sio.midi m

/-- Store the hidden part of a MIDI port; MIDI_STATUS shows the levels. -/
def State.setMidi (s : State) (m : Nat) (x : MidiPort) : State :=
  (({ s with sio := { s.sio with midi := Tbl.set MidiPort.initial s.sio.midi m x } }).fset F.MIDI_STATUS.tx_level
    x.tx.length m).fset F.MIDI_STATUS.rx_level x.rx.length m

/-- The ns of one byte at 31.25 kbaud with start and stop bit. -/
def midiByteNs : Nat := 320000

/-- One ns of a MIDI line: the next byte leaves when the line is free. -/
def State.midiTick (s : State) (m : Nat) : State :=
  let x := s.midiPort m
  if 1 < x.left then s.setMidi m { x with left := x.left - 1 }
  else
    match x.tx with
    | [] => if x.left = 0 then s else s.setMidi m { x with left := 0 }
    | b :: t => (s.setMidi m { x with tx := t, left := midiByteNs }).emit (.midi m b)

/-! ### LTC (R351, R352) -/

/-- A BCD pair as a number. -/
def unBcd (n : Nat) : Nat := n / 16 * 10 + n % 16

/-- The frame number that a timecode word stands for. -/
def ltcWordNumber (rate : Nat) (w : W32) : Nat :=
  ltcNumber rate
    { hours := unBcd (F.TIME_LTC_TC.hours.of w), minutes := unBcd (F.TIME_LTC_TC.minutes.of w),
      seconds := unBcd (F.TIME_LTC_TC.seconds.of w), frames := unBcd (F.TIME_LTC_TC.frames.of w), drop := false,
      reversed := false, user := 0, speed := 100, syncOk := true }

/-- The number with the numbers that drop-frame numbering leaves out put back (R352). -/
def undropped (rate n : Nat) : Nat :=
  if rate = 2 then n + 18 * (n / 17982) + 2 * ((n % 17982 - 2) / 1798) else n

/-- The timecode word of frame n of the day. -/
def ltcWordOf (rate n : Nat) : W32 :=
  let v := undropped rate n
  let fps := ltcFps rate
  ltcWord
    { hours := v / (fps * 3600), minutes := v / (fps * 60) % 60, seconds := v / fps % 60, frames := v % fps,
      drop := rate == 2, reversed := false, user := 0, speed := 100, syncOk := true }

/-- The hidden part of an LTC output. -/
def State.ltcOutOf (s : State) (o : Nat) : LtcOut := Tbl.get LtcOut.initial s.sio.ltcOut o

/-- Store the hidden part of an LTC output. -/
def State.setLtcOut (s : State) (o : Nat) (x : LtcOut) : State :=
  { s with sio := { s.sio with ltcOut := Tbl.set LtcOut.initial s.sio.ltcOut o x } }

/-- The rate of an LTC output. -/
def State.ltcOutRate (s : State) (o : Nat) : Nat := s.recipe.ltcEntryRate (2 + o)

/-- The frame grid from an anchor (R352). -/
def State.ltcOutGrid (s : State) (o : Nat) (anchor : ST) : Grid := ⟨anchor, ltcNum (s.ltcOutRate o), ltcDen (s.ltcOutRate o)⟩

/-- The whole ns from the anchor to point k of a grid. -/
def Grid.ns (g : Grid) (k : Int) : Int := k * g.num / (g.den : Int)

/-- The frame of a grid that starts at an ST, if one does. -/
def Grid.frameAt (g : Grid) (t : ST) : Option Int :=
  if g.ns (g.nearest t) = stDiff t g.anchor then some (g.nearest t) else none

/-- The written plans that may act at an ST. -/
def LtcOut.due (x : LtcOut) (t : ST) : List (ST × LtcPlan) := x.waiting.filter (fun w => notLater w.1 t)

/-- The written plans that may not act yet. -/
def LtcOut.later (x : LtcOut) (t : ST) : List (ST × LtcPlan) := x.waiting.filter (fun w => !notLater w.1 t)

/-- R352: written values take effect at the first frame boundary, of the old grid or the new (log entry 176), at least 1 ms after
the write. -/
def State.ltcAdopt (s : State) (o : Nat) : State :=
  let x := s.ltcOutOf o
  match (x.due s.tim.st).getLast? with
  | none => s
  | some w =>
    if ((s.ltcOutGrid o x.plan.anchor).frameAt s.tim.st).isSome || ((s.ltcOutGrid o w.2.anchor).frameAt s.tim.st).isSome then
      s.setLtcOut o ⟨w.2, x.later s.tim.st⟩
    else s

/-- A write to anchor, start or user bits waits 1 ms (R352); of the plans that may act already the newest alone is kept. -/
def State.ltcOutWritten (s : State) (o : Nat) : State :=
  let x := s.ltcOutOf o
  let plan : LtcPlan := ⟨s.get64 .LTC_OUT_ANCHOR_LO .LTC_OUT_ANCHOR_HI o, s.get .LTC_OUT_START o, s.get .LTC_OUT_USER o⟩
  s.setLtcOut o { x with waiting := (x.due s.tim.st).getLast?.toList ++ x.later s.tim.st ++ [(s.tim.st + 1000000, plan)] }

/-! ### Faders (R353, R354) -/

/-- A fader. -/
def State.fader (s : State) (n : Nat) : Fader := Tbl.get Fader.initial s.sio.faders n

/-- Store a fader. -/
def State.setFader (s : State) (n : Nat) (x : Fader) : State :=
  { s with sio := { s.sio with faders := Tbl.set Fader.initial s.sio.faders n x } }

/-- R353: a test conversion fails. -/
def State.faderFails (s : State) (normal test : Nat) : Bool :=
  decide (s.recipe.faderRail ≤ test) && decide (normal + s.recipe.faderShift < test)

/-- No fader's moved bit is set. -/
def State.noneMoved (s : State) : Bool := s.get .FADER_MOVED 0 0 == 0 && s.get .FADER_MOVED 0 1 == 0

/-- R354: a published value that has moved sets the fader's bit. -/
def State.faderMove (s : State) (n v : Nat) : State :=
  let d := (v - (s.fader n).reference) + ((s.fader n).reference - v)
  if s.recipe.faderDeadband < d && !s.hasBit .FADER_MOVED (n % 32) 0 (n / 32) then
    onlyIf s.noneMoved (fun s => s.raise 355) (s.setBit .FADER_MOVED (n % 32) 0 (n / 32))
  else s

/-- R354: a clear of moved bits takes the values published now as reference. -/
def State.faderCleared (s : State) (n : Nat) : State :=
  s.setFader n { s.fader n with reference := s.fget F.FADER_VAL.value n }

/-! ### Encoders (R355) -/

/-- An encoder. -/
def State.encoder (s : State) (n : Nat) : Encoder := Tbl.get Encoder.initial s.sio.encoders n

/-- Store an encoder. -/
def State.setEncoder (s : State) (n : Nat) (x : Encoder) : State :=
  { s with sio := { s.sio with encoders := Tbl.set Encoder.initial s.sio.encoders n x } }

/-- The change of the count when one line changes: line a leads on the way that Config names up. -/
def encStep (oldA newA newB : Bool) : Int :=
  let ahead := if oldA == newA then newA == newB else newA != newB
  if ahead == Config.encoderUp then 1 else -1

/-! ### Multiplexed balls (R342, R387) -/

/-- What a multiplexed ball is used for: 0 high-impedance with no pull, 1 a GPIO line, 2 a peripheral function; its number; and
its pad. -/
structure BallUse where
  kind : Nat
  number : Nat
  pad : Nat
  deriving DecidableEq, Repr

/-- R342, R387: the pin entry that names the ball, once admission has applied the pin table. -/
def State.ballUse (s : State) (ball : Nat) : BallUse :=
  match ((List.range s.recipe.pinCount).map s.recipe.pin).find? (fun e => u16 e 0 == ball) with
  | none => ⟨0, 0, 0⟩
  | some e => ⟨u8 e 2, if u8 e 2 = 2 ∧ 256 ≤ ball then ball - 256 else ball, u8 e 3⟩

/-! ### GPIO (R359) -/

/-- The line is an output. -/
def State.gpioOutput (s : State) (b l : Nat) : Bool :=
  match s.recipe.gpioPad b l with
  | some pad => bit pad 6 == 1
  | none => false

/-- The output lines of a bank, as a mask. -/
def State.gpioOutputs (s : State) (b : Nat) : W32 :=
  BitVec.ofNat 32 (((List.range 32).filter (fun l => s.gpioOutput b l)).map (fun l => 2 ^ l)).sum

/-- The level that nothing inside drives: what drives the ball from outside, or its pull; a line with neither is open. -/
def State.gpioUndriven (s : State) (b l pad : Nat) : Bool :=
  let d := Tbl.get 0 s.sio.driven (32 * b + l)
  if d = 1 then false
  else if d = 2 then true
  else if bits pad 1 0 = 1 then true
  else if bits pad 1 0 = 2 then false
  else Config.freeNat (s.draws + l) % 2 == 1

/-- The level of a line as GPIO_IN reads it; a line that does not exist reads 0. -/
def State.gpioLevel (s : State) (b l : Nat) : Bool :=
  match s.recipe.gpioPad b l with
  | none => false
  | some pad =>
    if bit pad 6 = 1 then
      if s.hasBit .GPIO_OUT l b then (if bit pad 5 = 1 then s.gpioUndriven b l pad else true) else false
    else s.gpioUndriven b l pad

/-- R355: EV_SIO_ENC_MOVE at most once per ms: a change within the ms is signalled at its end. -/
def State.encSignal (s : State) : State :=
  let due := match s.sio.encMoveAt with
    | none => true
    | some t => decide (t + 1000000 ≤ s.tim.ticks)
  if s.sio.encChanged && due then
    ({ s with sio := { s.sio with encMoveAt := some s.tim.ticks, encChanged := false } }).raise 356
  else s

/-- An edge of a line is recorded when enabled; its ST is exact to 20 ns. -/
def State.gpioEdge (s : State) (b l : Nat) (rising : Bool) : State :=
  if s.hasBit (if rising then .GPIO_EDGE_RISE else .GPIO_EDGE_FALL) l b then
    let t := stAdd s.gridTime ((Config.freeNat s.draws % 41 : Nat) - 20)
    ((s.drawn.setBit .GPIO_EDGE l b).put64 .GPIO_EDGE_ST_LO .GPIO_EDGE_ST_HI t b).raise 360
  else s

/-- The masked output lines of a bank take the given levels; other bits of the mask have no effect. -/
def State.gpioDrive (s : State) (b : Nat) (mask levels : W32) : State :=
  let m := mask &&& s.gpioOutputs b
  let t := s.put .GPIO_OUT ((s.get .GPIO_OUT b &&& ~~~m) ||| (levels &&& m)) b
  forEach ((List.range 32).filter (fun l => m.getLsbD l && s.gpioLevel b l != t.gpioLevel b l))
    (fun l u => u.gpioEdge b l (t.gpioLevel b l)) t

end Sys2Proof.Machine
end

