-- ==== Sys2Proof/Machine/LaunchCmd.lean ====
section
/-! DEFINITION. The launch of cues (R109 to R113, R118): the ranking of a window, deferral, the void and late tests, and the
actions with the refusals of their targets. -/

namespace Sys2Proof.Machine

/-! ### Ranking (R109, R110) -/

/-- R109: critical, then key, then `seq`, then slot; equal or opposite `seq` leaves it to the slot (R110). -/
def ranksBefore (a b : Nat × CueSlot) : Bool :=
  if a.2.entry.critical ≠ b.2.entry.critical then a.2.entry.critical
  else if a.2.key ≠ b.2.key then earlier a.2.key b.2.key
  else if serialBefore a.2.entry.seq b.2.entry.seq then true
  else if serialBefore b.2.entry.seq a.2.entry.seq then false
  else decide (a.1 < b.1)

/-- A cue placed among ranked cues. -/
def rankInsert (c : Nat × CueSlot) : List (Nat × CueSlot) → List (Nat × CueSlot)
  | [] => [c]
  | d :: t => if ranksBefore c d then c :: d :: t else d :: rankInsert c t

/-- Cues in rank order. -/
def ranked (l : List (Nat × CueSlot)) : List (Nat × CueSlot) := l.foldr rankInsert []

/-! ### Actions (R104, R113) -/

/-- DMX_COMMIT: each port of the mask by itself; one refusal refuses the cue (R345). -/
def State.dmxCueCommit (s : State) (mask : Nat) : Bool × State :=
  ((List.range 16).filter (fun p => bit mask p == 1)).foldl
    (fun r p => ((r.1 && (r.2.dmxCommit p).1), (r.2.dmxCommit p).2)) (true, s)

/-- HAPTIC_FIRE (R336, R337). -/
def State.hapCue (s : State) (n w amp slot owner : Nat) : Bool × State :=
  if s.hapAccepts n w then (s.hapWins n (.cue slot owner), s.hapFire n w amp (.cue slot owner)) else (false, s)

/-- FAB_SEND (R147): void_after counts from the key; an owner that no longer holds the slot is refused. -/
def State.fabCue (s : State) (n owner : Nat) (key : ST) (payload : BitVec 64) : Bool × State :=
  if !s.fabCarries then (false, s.fset F.FAB_SLOT_STATUS.err 3 n)
  else if s.fget F.FAB_SLOT_CFG.owner n ≠ owner then (false, s.fset F.FAB_SLOT_STATUS.err 5 n)
  else (s.fabSlotError n (s.slotVoid n key) == 0, s.sendSlot n (s.slotVoid n key) payload)

/-- TIME_MARK: launch ST and tag in a mark of the owner's window. -/
def State.timeMark (s : State) (owner n : Nat) (st : ST) (tag : W32) : State :=
  (s.put64 .CUE_MARK_ST_LO .CUE_MARK_ST_HI st (cueWindowOf owner) n).put .CUE_MARK_TAG tag (cueWindowOf owner) n

/-- The action of a cue: whether its target takes it, and the state. -/
def State.cueAction (s : State) (n : Nat) (c : CueSlot) (st : ST) : Bool × State :=
  let e := c.entry
  let t := e.target.toNat
  match e.action.toNat with
  | 1 =>
    match s.layerFlip t (e.argument.truncate 16) with
    | some s => (true, s)
    | none => (false, s)
  | 2 => (s.dmaAccepts t, s.dmaTrigger t)
  | 3 => (true, s.raise (56 + t))
  | 4 => s.dmxCueCommit t
  | 5 => s.audioStart t (e.argument.toNat % 2 ^ 16)
  | 6 => s.audioStop t (e.argument.toNat % 2 ^ 16)
  | 7 => s.hapCue t (e.argument.toNat % 256) (e.argument.toNat / 256 % 256) n e.owner.toNat
  | 8 => (true, s.gpioDrive t (e.argument.truncate 32) ((e.argument >>> 32).truncate 32))
  | 9 => s.fabCue t e.owner.toNat c.key e.argument
  | _ => (true, s.timeMark e.owner.toNat t st (e.argument.truncate 32))

/-! ### One launch (R111 to R113) -/

/-- R111: the launch comes after the key by more than a deferral. -/
def CueSlot.isLate (c : CueSlot) (st : ST) : Bool := c.late || (earlier c.key st && !c.deferred)

/-- R111: the launch comes later than the slack allows. -/
def CueSlot.isVoid (c : CueSlot) (st : ST) : Bool :=
  c.entry.voidAfter && earlier (c.key + BitVec.ofNat 64 (c.entry.slack.toNat * 1000)) st

/-- R112: a `repeat` cue returns to the table with its next key; another frees its slot. -/
def State.cueConsumed (s : State) (n : Nat) (c : CueSlot) : State :=
  let s :=
    if c.entry.repeats then s.putCue n (s.placed { c.entry with key := c.entry.key + c.entry.period.zeroExtend 64 })
    else s.freeCue n
  s.countCues c.entry.owner.toNat

/-- R113: a refused action. -/
def State.cueRefusal (s : State) (n : Nat) (c : CueSlot) (ok : Bool) : State :=
  if ok then s else s.cueFailed n c.entry.action.toNat c.entry.owner.toNat

/-- R111: a late launch. -/
def State.cueLate (s : State) (c : CueSlot) (st : ST) : State :=
  if c.isLate st && !c.entry.voidAfter then (s.bump F.CUE_LATE_COUNT.count).raise 41 else s

/-- A cue launches at an ST. -/
def State.launchCue (s : State) (n : Nat) (c : CueSlot) (st : ST) : State :=
  if c.voided || c.isVoid st then s.voidCue n c
  else
    let r := s.cueAction n c st
    ((r.2.cueRefusal n c r.1).cueLate c st).cueConsumed n c

/-- R109: a cue deferred to a later window. -/
def State.deferCue (s : State) (n : Nat) (c : CueSlot) (next : ST) : State :=
  ((s.putCue n { c with due := next, deferred := true }).bump F.CUE_DEFER_COUNT.count).raise 40

/-! ### The window (R109) -/

/-- The staged cues whose launch falls in the window that starts at w, or fell before it. -/
def State.dueCues (s : State) (w : ST) : List (Nat × CueSlot) :=
  s.cue.slots.filter (fun e => e.2.staged && notLater e.2.due (w + 999))

/-- The ST at which a cue launches: its own, or the start of the window it was late for. -/
def launchSt (w : ST) (c : CueSlot) : ST := if earlier c.due w then w else c.due

/-- A cue placed among launches in the order of their STs; at one ST the rank decides. -/
def launchInsert (w : ST) (c : Nat × CueSlot) : List (Nat × CueSlot) → List (Nat × CueSlot)
  | [] => [c]
  | d :: t => if earlier (launchSt w d.2) (launchSt w c.2) then d :: launchInsert w c t else c :: d :: t

/-- Ranked cues in the order in which they launch (R109). -/
def launchOrder (w : ST) (l : List (Nat × CueSlot)) : List (Nat × CueSlot) := l.foldr (launchInsert w) []

/-- LAUNCH_WINDOW (R109): the first 64 in rank launch, each at its own ST; the rest are deferred in rank order. -/
def State.launchWindow (s : State) : State :=
  if s.awake && s.stValid then
    let w := s.tim.st - BitVec.ofNat 64 (s.tim.st.toNat % 1000)
    let had := if s.cue.winStart = w then s.cue.winCount else 0
    let l := ranked (s.dueCues w)
    let now := launchOrder w (l.take (64 - had))
    let s := { s with cue := { s.cue with winStart := w, winCount := had + now.length } }
    let s := forEach now (fun e s => s.launchCue e.1 e.2 (launchSt w e.2)) s
    forEach (l.drop (64 - had)) (fun e s => s.deferCue e.1 e.2 (w + 1000)) s
  else s

/-- LAUNCH_WINDOW (R109). -/
def execLaunchWindow (s : State) : Host.Outcome State Fault Refusal := done State.launchWindow s

end Sys2Proof.Machine
end

