-- ==== Sys2Proof/Machine/Admission.lean ====
section
/-! DEFINITION. The checks of admission (orders 3 and 5 to 8 of R47), over a recipe and what the device found fitted. -/

namespace Sys2Proof.Machine

/-- What boot training and the straps found (R246, R247): the stepping (0 A0, 1 A1, 2 B0), the DRAM type
(1 LPDDR5X, 2 LPDDR5), the trained rate, the channels in use and the usable capacity. -/
structure Fitted where
  stepping : Nat
  dramType : Nat
  dataRate : Nat
  channels : Nat
  usableMib : Nat
  deriving DecidableEq, Repr

/-- A failed load: error code, section and offset (R47). -/
structure LoadError where
  code : Nat
  section_ : Nat
  offset : Nat
  deriving DecidableEq, Repr

/-- A check whose failure is reported at an offset within a section. -/
def fails (r : Recipe) (code sec : Nat) (c : Chk) : Option LoadError := c.map (fun o => ⟨code, sec, r.secOff sec + o⟩)

/-- R40: the first failing condition of COMPAT. -/
def compatError (r : Recipe) (f : Fitted) : Option LoadError :=
  let b := r.sec 2
  fails r 3 2 (firstOf
    [need (bit (u8 b 0) f.stepping = 1) 0, need (u8 b 6 = 0 || u8 b 6 = f.dramType) 6,
     need (u16 b 8 * 1024 ≤ f.usableMib) 8, need (u16 b 10 = 0 || u16 b 10 ≤ f.dataRate) 10])

/-! PIN (R42, R205, R387) -/

/-- The function a pin entry selects: GPIO line m is m, peripheral function k is 1000 + k. -/
def pinFunction (e : List Byte) : Option Nat :=
  let ball := u16 e 0
  if 524 ≤ ball then none else
  match u8 e 2 with
  | 1 => if ball ≤ 255 then some ball else none
  | 2 =>
    let k := if 256 ≤ ball then ball - 256 else ball
    -- the eighth position of a bus port carries nothing
    if 108 ≤ k && k ≤ 171 && (k - 108) % 8 == 7 then none else some (1000 + k)
  | _ => none

/-- R42, R387: the first failing pin entry. Two entries that name one ball fail, also with one function (log entry 74). -/
def pinError (r : Recipe) : Option LoadError :=
  fails r 7 10 (perEntry r.pinCount (fun e =>
    let p := r.pin e
    let before := (List.range e).map r.pin
    need ((pinFunction p).isSome && before.all (fun q => u16 q 0 != u16 p 0 && pinFunction q != pinFunction p))
      (528 + 4 * e)))

/-- R42, R205: standards and pairs, at the output entry; a pair at its even entry. Pins come before outputs, and the pair of an
output before its standard (log entry 74). -/
def standardError (r : Recipe) : Option LoadError :=
  fails r 7 5 (perEntry 8 (fun n => firstOf
    [need (n % 2 = 1 || r.outPair n == r.outPair (n + 1)) (80 * n),
     need (!r.outEnabled n || r.outStandard n ≠ 5 || 4 ≤ n) (80 * n)]))

/-! RESOURCE (R43, R398) -/

/-- The number of set bits of a mask of w bits. -/
def popCount (m w : Nat) : Nat := ((List.range w).map (bit m)).sum

/-- A total over the first e + 1 partition entries, with the general pool's share. -/
def partTotal (r : Recipe) (general : Nat) (f : List Byte → Nat) (e : Nat) : Nat :=
  general + ((List.range (e + 1)).map (fun k => f (r.partEntry k))).sum

/-- The DMA channel mask of a partition entry. -/
def entryDma (b : List Byte) : Nat := u64 b 16

/-- Two partition entries overlap in system SRAM; an entry without any overlaps none. -/
def sramOverlap (a b : List Byte) : Bool :=
  u16 a 6 != 0 && u16 b 6 != 0 && decide (u16 a 4 < u16 b 4 + u16 b 6) && decide (u16 b 4 < u16 a 4 + u16 a 6)

/-- R398 row PART. The pool's totals alone are reported at the first entry, or at the section (log entry 75). -/
def partError (r : Recipe) : Option LoadError :=
  let general := need (r.generalCueQuota ≤ 4032 && r.generalContexts ≤ 64 && r.generalDma ≤ 256) 0
  fails r 5 3 (firstOf
    [if r.partCount = 0 then general else none,
     perEntry r.partCount (fun e =>
      let b := r.partEntry e
      let before := (List.range e).map r.partEntry
      let named := u8 b 8
      need (partTotal r r.generalCueQuota (fun x => u16 x 10) e ≤ 4032 &&
        partTotal r r.generalContexts (fun x => u8 x 3) e ≤ 64 &&
        partTotal r r.generalDma (fun x => popCount (entryDma x) 64) e ≤ 256 &&
        before.all (fun q => entryDma q &&& entryDma b == 0) &&
        u16 b 4 + u16 b 6 ≤ 256 && before.all (fun q => !sramOverlap q b) &&
        named < r.carveCount && r.carveOwner named == u8 b 0 &&
        within 16 (u8 b 9) 23 && before.all (fun q => u8 q 9 != u8 b 9) &&
        before.all (fun q => u8 q 1 &&& u8 b 1 == 0)) (16 + 32 * e))])

/-- Two carve-outs overlap. -/
def carveOverlap (r : Recipe) (c d : Nat) : Bool :=
  decide (r.carveBase c < r.carveBase d + r.carveSize d) && decide (r.carveBase d < r.carveBase c + r.carveSize c)

/-- R398 row MEM. -/
def memError (r : Recipe) (f : Fitted) : Option LoadError :=
  let shed := r.shedOrder
  let at_ := 16 + 16 * r.carveCount
  fails r 5 4 (firstOf
    [perEntry r.carveCount (fun c =>
       need (r.carveBase c + r.carveSize c ≤ f.usableMib && (List.range c).all (fun d => !carveOverlap r c d) &&
         r.carveBase c % 2 = 0 && r.carveSize c % 2 = 0 && 2 ≤ r.carveSize c &&
         (r.carveOwner c = 255 || r.partDeclared (r.carveOwner c))) (16 + 16 * c)),
     perEntry shed.length (fun k =>
       need (r.layerUsed (shed.getD k 0) && !(shed.take k).contains (shed.getD k 0)) (at_ + k)),
     need ((List.range 48).all (fun n => !r.layerUsed n || shed.contains n)) at_])

/-- Largest pixel clock of a standard in kHz (R205). -/
def standardPclk (std : Nat) : Nat :=
  match std with
  | 2 => 600000
  | 5 => 224000
  | _ => 2200000

/-- Numerator and denominator of the coding efficiency of a standard (R205). -/
def coding (std : Nat) : Nat × Nat :=
  match std with
  | 1 => (128, 132)
  | 3 => (16, 18)
  | _ => (8, 10)

/-- R208 check 2: the link carries the pixels, with bits per pixel in sixteenths. -/
def linkCarries (r : Recipe) (n : Nat) : Bool :=
  let bpp16 := if r.outDsc n = 0 then 48 * r.outDepth n else r.outDsc n
  let (num, den) := coding (r.outStandard n)
  let capacity16 := if r.outStandard n = 2 then 16 * 14400000000 * den else 16 * r.outLanes n * r.outRate n * 10000000 * num
  r.outStandard n == 5 || decide (r.outMaxPclk n * 1000 * bpp16 * den ≤ capacity16)

/-- R207: DSC only where the standard has it, at 8 or 10 bits, with a boot v_active that is a multiple of 8. -/
def dscAllowed (r : Recipe) (n : Nat) : Bool :=
  r.outDsc n == 0 ||
    (r.outStandard n != 2 && r.outStandard n != 5 && r.outDepth n != 6 && r.outTiming n 4 % 8 == 0)

/-- R208 check 3: pixels per second over the enabled outputs, in thousandths. -/
def aggregatePixels (r : Recipe) : Nat :=
  ((List.range 8).map (fun n => if r.outEnabled n then r.outMaxH n * r.outMaxV n * r.outMaxRefresh n else 0)).sum

/-- R214: the two halves of a pair hold identical standard, lanes, link rate, lock fields, panel depth, DSC, timing,
maxima and sync flags; the glaze and substitute colour may differ. -/
def pairIdentical (r : Recipe) (n : Nat) : Bool :=
  let a := r.out n
  let b := r.out (n + 1)
  slice a 2 9 == slice b 2 9 && slice a 12 2 == slice b 12 2 && slice a 16 48 == slice b 16 48

/-- R398 row OUT. -/
def outError (r : Recipe) : Option LoadError :=
  let last := ((List.range 8).filter r.outEnabled).getLast?.getD 0
  fails r 5 5 (perEntry 8 (fun n => firstOf
    [need (!r.outEnabled n || (dscAllowed r n && r.outMaxPclk n ≤ standardPclk (r.outStandard n) && linkCarries r n)) (80 * n),
     need (n ≠ last || aggregatePixels r ≤ 10000000000 * 1000) (80 * n),
     need (n % 2 = 0 || !r.outPair n || pairIdentical r (n - 1)) (80 * n)]))

/-- The general (graphic and video) layers assigned to output o. -/
def generalLayers (r : Recipe) (o : Nat) : List Nat := (List.range 48).filter (fun n => decide (8 ≤ n) && r.layerOut n == o)

/-- R398 row LAYER: R43 rows, R181 and R182, for layer n. -/
def layerOk (r : Recipe) (n : Nat) : Bool :=
  let o := r.layerOut n
  let before := (List.range n).filter (fun m => r.layerOut m == o)
  let general := before.filter (8 ≤ ·)
  r.outEnabled o && !(r.outPair o && o % 2 == 1) &&
  (if n < 8 then before.all (8 ≤ ·)
   else if r.outLarge o then decide (general.length < 8) && general.all (fun m => r.layerZ m != r.layerZ n)
   else general.isEmpty && decide (n < 32) && r.layerZ n == 0) &&
  (r.layerOwner n == 0 || r.layerOwner n == 254 || r.partDeclared (r.layerOwner n - 64)) &&
  (r.layerAxis n == 255 || (decide (32 ≤ n) && (r.axisOf (r.layerAxis n)).isSome))

/-- R181: an output's general layers are complete: 2 to 8 with z from 0 to count − 1 on a large output, 1 on a small. -/
def outputLayersOk (r : Recipe) (o : Nat) : Bool :=
  let l := generalLayers r o
  (!r.outEnabled o) || (r.outPair o && o % 2 == 1) ||
  (if r.outLarge o then decide (2 ≤ l.length) && l.all (fun n => decide (r.layerZ n < l.length)) else l.length == 1)

/-- R398 row LAYER. An output with too few layers or a gap in z is reported at its last layer entry, or at the first
byte of the section when it has none. -/
def layerError (r : Recipe) : Option LoadError :=
  fails r 5 6 (firstOf
    [perEntry 48 (fun n => need (!r.layerUsed n || layerOk r n) (16 * n)),
     perEntry 8 (fun o => need (outputLayersOk r o) (16 * ((generalLayers r o).getLast?.getD 0)))])

/-- h_total of the boot timing of output n. -/
def Recipe.outHTotal (r : Recipe) (n : Nat) : Nat := sum4 (r.out n) 16
/-- v_total of the boot timing of output n. -/
def Recipe.outVTotal (r : Recipe) (n : Nat) : Nat := sum4 (r.out n) 24

/-- R231: the line period is at most 40,000 ns for h_total pixels at pclk kHz. -/
def linePeriodOk (hTotal pclk : Nat) : Bool := decide (hTotal * 1000000 ≤ 40000 * pclk)

/-- R398 row GLAZE: storage (R225) and line period (R231). -/
def glazeError (r : Recipe) : Option LoadError :=
  let lists := ((List.range 8).map (fun n => r.listLen n false + r.listLen n true)).sum
  let atlases := ((List.range r.atlasCount).map (fun a => u32 (r.sec 7) (u32 (r.sec 7) 8 + 16 * a + 4))).sum
  fails r 5 7 (firstOf
    [need (lists ≤ 192 * 1024 && atlases ≤ 64 * 1024) 0,
     perEntry 8 (fun n => need (!r.outEnabled n || linePeriodOk (r.outHTotal n) (r.outPclk n)) (32 + 16 * n))])

/-- R357: the SSI read of an axis fits its sample period. -/
def ssiFits (r : Recipe) (b : List Byte) : Bool :=
  let p := r.ssi (u8 b 1)
  let clocks := u8 b 2 + u8 p 2 + 1
  decide (clocks * 1000000 + (u8 p 5 * 1000 + u16 p 6) * u16 p 0 ≤ u32 b 24 * u16 p 0)

/-- R398 row TIME. -/
def timeError (r : Recipe) : Option LoadError :=
  fails r 5 8 (perEntry r.axisCount (fun e => need (ssiFits r (r.axisEntry e)) (64 + 48 * e)))

/-- R398 row IO: owner codes of DMX ports and GPIO banks. -/
def ioError (r : Recipe) : Option LoadError :=
  let ok (o : Nat) : Bool := o == 0 || o == 255 || r.partDeclared (o - 64)
  fails r 5 10 (firstOf
    [perEntry 16 (fun p => need (u8 (r.dmx p) 0 = 0 || ok (u8 (r.dmx p) 1)) (8 + 16 * p)),
     perEntry 8 (fun b => need (ok (r.gpioOwner b)) (512 + b))])

/-- R398 row AUD: slots and AES67 at 96 kHz (R365, R367). -/
def audError (r : Recipe) : Option LoadError :=
  fails r 5 11 (firstOf
    [perEntry 8 (fun p => need (!r.aud96 || u8 (r.tdm p) 0 = 0 || u8 (r.tdm p) 1 ≠ 2) (16 + 8 * p)),
     need (!r.aud96 || (r.aesRx = 0 && r.aesTx = 0)) 0])

/-- Groups of 16 TX electrodes of controller c (R324). -/
def Recipe.tchGroups (r : Recipe) (c : Nat) : Nat := ceilDiv (u8 (r.tch c) 0) 16

/-- Lowest hop frequency of controller c in kHz. -/
def Recipe.lowestHop (r : Recipe) (c : Nat) : Nat :=
  ((List.range 8).map (fun h => u16 (r.tch c) (8 + 2 * h))).foldl min 65535

/-- R326: the frame budget of controller c, with one re-run, at its lowest hop. -/
def touchBudget (r : Recipe) (c : Nat) : Bool :=
  let b := r.tch c
  let f := r.lowestHop c
  decide (u16 b 4 * 1000 * f + ((r.tchGroups c + 1) * 16 * u8 b 2 + 2 * u8 b 3) * 1000000 ≤ 4166666 * f)

/-- R398 row TCH. -/
def tchError (r : Recipe) : Option LoadError :=
  fails r 5 12 (firstOf
    [perEntry 4 (fun c => need (bit (r.tchMask) c = 0 || touchBudget r c) (32 + 48 * c)),
     perEntry r.regionCount (fun e =>
       need (((List.range e).filter (fun k => u8 (r.region k) 0 == u8 (r.region e) 0)).length < 64) (224 + 16 * e))])

/-! LINEBUDGET (R44, R231) -/

/-- The pixel colour of a palette entry truncated to a panel depth (10-bit channels). -/
def truncColour (p : List Byte) (i depth : Nat) : Nat × Nat × Nat :=
  let w := u32 p (8 * i)
  (bits w 29 20 / 2 ^ (10 - depth), bits w 19 10 / 2 ^ (10 - depth), bits w 9 0 / 2 ^ (10 - depth))

/-- Primitives of a list that meet a line, visible or not (R231). -/
def meeting (l : List Byte) (recs : List (Nat × List Byte)) (line : Nat) : Nat :=
  (recs.filter (fun e => decide (u16 l (e.1 + 4) ≤ line) && decide (line ≤ u16 l (e.1 + 6)))).length

/-- R231: the heartbeat of a list: exactly one, at its index, a RECT, with two opaque colours that differ at panel depth. -/
def heartbeatOk (r : Recipe) (n : Nat) (l : List Byte) : Bool :=
  let recs := (listRecords l).map (·.2)
  let hb := u16 l 2
  let p := r.palette n
  let a := u8 l 4
  let b := u8 l 5
  (recs.filter (fun q => bit (u8 q 3) 1 == 1)).length == 1 && bit (u8 (recs.getD hb []) 3) 1 == 1 &&
  u8 (recs.getD hb []) 0 == 1 && u8 p (8 * a + 4) == 255 && u8 p (8 * b + 4) == 255 &&
  truncColour p a (r.outDepth n) != truncColour p b (r.outDepth n)

/-- R231: line `y` of the active area starts at least 400 µs after frame start, for the given vertical blanking. -/
def heartbeatLate (vBlank y hTotal pclk : Nat) : Bool := decide (400000 * pclk ≤ (vBlank + y) * hTotal * 1000000)

/-- R44, R231: one list of output n. -/
def lineBudgetOk (r : Recipe) (n : Nat) (offline : Bool) : Bool :=
  let l := r.glazeList n offline
  let recs := listRecords l
  let hb := ((recs.map (·.2)).getD (u16 l 2) [])
  let vBlank := r.outTiming n 5 + r.outTiming n 6 + r.outTiming n 7
  decide (recs.length ≤ 4096) && recs.all (fun e => decide (meeting l recs (u16 l (e.1 + 4)) ≤ 64)) &&
  heartbeatOk r n l && heartbeatLate vBlank (u16 hb 4) (r.outHTotal n) (r.outPclk n)

/-- R44, R231: the first list that breaks its line budget, at its header. -/
def budgetError (r : Recipe) : Option LoadError :=
  fails r 6 7 (perEntry 8 (fun n => if r.outEnabled n then firstOf
    [need (lineBudgetOk r n false) (r.listOff n false), need (lineBudgetOk r n true) (r.listOff n true)] else none))

/-! BANDWIDTH (R45, R46) -/

/-- R45: floor(data_rate × 2 × active_channels × 45 / 100). -/
def ceilingOf (dataRate channels : Nat) : Nat := dataRate * 2 * channels * 45 / 100

/-- Bytes per pixel in halves by format bit (R46, R183). -/
def halfBytes (fmtBit : Nat) : Nat :=
  match fmtBit with
  | 0 | 1 => 8
  | 2 => 4
  | 3 => 16
  | 4 | 5 | 9 => 3
  | 6 | 10 => 6
  | 7 => 4
  | _ => 8

/-- The largest B of a formats mask, in halves (R183). -/
def largestHalfBytes (mask : Nat) : Nat :=
  ((List.range 11).map (fun k => if bit mask k = 1 then halfBytes k else 0)).foldl max 0

/-- The scan-out term of layer n, in MB/s rounded up (R46). -/
def scanOutTerm (r : Recipe) (n : Nat) : Nat :=
  let grow := if r.layerAxis n = 255 then 0 else 2 * r.layerMargin n
  ceilDiv ((r.layerMaxW n + grow) * (r.layerMaxH n + grow) * r.outMaxRefresh (r.layerOut n) * largestHalfBytes (r.layerFormats n))
    (2 * 1000 * 1000000)

/-- The term of partition entry b (R46). -/
def partTerm (r : Recipe) (b : List Byte) : Nat :=
  if r.carveEcc (u8 b 8) then ceilDiv (u32 b 12 * 9) 8 else u32 b 12

/-- The reserved sum over the partitions and the layers for which `counted` holds (R46, R263). -/
def reservedOver (r : Recipe) (counted : Nat → Bool) : Nat :=
  ((List.range r.partCount).map (fun e => partTerm r (r.partEntry e))).sum +
  ((List.range 48).map (fun n => if decide (8 ≤ n) && r.layerUsed n && counted n then scanOutTerm r n else 0)).sum

/-- R46: the reserved sum. -/
def reservedSum (r : Recipe) : Nat := reservedOver r (fun _ => true)

/-- R46. -/
def bandwidthError (r : Recipe) (f : Fitted) : Option LoadError :=
  fails r 4 3 (need (reservedSum r ≤ ceilingOf f.dataRate f.channels) 0)

/-- The PIN, RESOURCE, LINEBUDGET and BANDWIDTH checks in the order of R47 and R398. -/
def structureError (r : Recipe) (f : Fitted) : Option LoadError :=
  [pinError r, standardError r, partError r, memError r f, outError r, layerError r, glazeError r, timeError r,
   ioError r, audError r, tchError r, budgetError r, bandwidthError r f].findSome? id

end Sys2Proof.Machine
end

