-- ==== Sys2Proof/Machine/MemCmd.lean ====
section
/-! DEFINITION. The commands of the memory system (11_memory.md): requests and their completion, credit, rows, refresh,
retraining, channel loss and shed mode. -/

namespace Sys2Proof.Machine

/-! ### Ports (R253 to R256) -/

/-- The tag pool of a port. -/
def tagPool (p : Nat) : Nat :=
  if p ≤ 3 then 160 else if p ≤ 9 then 128 else if p = 10 then 192 else if p = 11 then 32 else if p ≤ 14 then 96
  else if p = 15 then 32 else 12

/-- The tags a port holds. -/
def State.portInUse (s : State) (p : Nat) : Nat := (s.mem.inFlight.filter (fun q => q.req.port.val == p)).length

/-- The slots of a channel in use. -/
def State.chanInUse (s : State) (c : Nat) : Nat := (s.mem.inFlight.filter (fun q => q.chan == c)).length

/-- MEM_PORT_STATUS shows the tags held. -/
def State.showTags (s : State) (p : Nat) : State := s.fset F.MEM_PORT_STATUS.in_use (s.portInUse p) p

/-- R255: the level of a CMP port from the fill of its line buffer in ns. -/
def fillLevel (ns : Nat) : Nat := if 3000 < ns then 0 else if 2000 ≤ ns then 1 else if 1000 ≤ ns then 2 else 3

/-- R255: the level of another port from the age of its oldest request, with target T; both in 10 ns. -/
def ageLevel (t age : Nat) : Nat :=
  if t = 0 ∨ 2 * age < t then 0 else if 4 * age < 3 * t then 1 else if age < t then 2 else 3

/-- The age of a port's oldest waiting request, in 10 ns. -/
def State.oldestAge (s : State) (p : Nat) : Nat :=
  match s.mem.waiting.find? (fun q => q.req.port.val == p) with
  | some q => (s.gridTime - q.arrived).toNat / 10
  | none => 0

/-- R255: the level of a waiting request: of the line buffer that it serves on a CMP port, else that of its port. -/
def State.reqLevel (s : State) (q : DramReq) : Nat :=
  if q.req.port.val ≤ 3 then fillLevel q.fillNs
  else ageLevel (s.fget F.MEM_PORT_QOS.target q.req.port) (s.oldestAge q.req.port)

/-- R255: the current level of a port, the highest of its waiting requests. -/
def State.portLevel (s : State) (p : Nat) : Nat :=
  ((s.mem.waiting.filter (fun q => q.req.port.val == p)).map s.reqLevel).foldl max 0

/-- R256: the credit of a port in bytes. -/
def State.credit (s : State) (p : Nat) : Int := Tbl.get 0 s.mem.credit p

/-- R256: the weight of a port; 0 acts as 1. -/
def State.weight (s : State) (p : Nat) : Nat := max 1 (s.fget F.MEM_PORT_QOS.weight p)

/-! ### The choice of a channel (R254, R256) -/

/-- The request hits the open row of its bank. -/
def State.rowHit (s : State) (q : DramReq) : Bool := Tbl.get none s.mem.openRow (q.chan * 16 + q.bank) == some q.row

/-- R258: with inline ECC, accesses that overlap the same 8 data bytes are serialised: another one is in flight. -/
def State.serialised (s : State) (q : DramReq) : Bool :=
  s.inlineEcc q.addr && s.mem.inFlight.any (fun w =>
    decide (w.addr / 8 * 8 < q.addr + q.len) && decide (q.addr / 8 * 8 < w.addr + w.len))

/-- The requests that channel c may take now: their port has a tag, the channel a slot, no exit pause is due (R264), and no access to
the same 8 bytes goes before (R258). -/
def State.ready (s : State) (c : Nat) : List DramReq :=
  if s.chanInUse c < 64 ∧ !s.mem.exiting.contains c then
    s.mem.waiting.filter (fun q =>
      q.chan == c && decide (s.portInUse q.req.port < tagPool q.req.port) && !s.serialised q)
  else []

/-- Keep the elements that satisfy a preference, or all of them where none does. -/
def prefer (f : DramReq → Bool) (l : List DramReq) : List DramReq := if l.any f then l.filter f else l

/-- R256, rules 1 and 2: the highest urgency, then ports that still hold credit. -/
def State.bestClass (s : State) (l : List DramReq) : List DramReq :=
  let top := (l.map s.reqLevel).foldl max 0
  prefer (fun q => decide (0 < s.credit q.req.port)) (l.filter (fun q => s.reqLevel q == top))

/-- R256, rule 4: the first port at or after the turn that has a request, by weighted round robin. -/
def State.turnPort (s : State) (l : List DramReq) : Nat :=
  (((List.range 24).map (fun k => (s.mem.turn + k) % 24)).find? (fun p => l.any (fun q => q.req.port.val == p))).getD 0

/-- R256: the transaction that channel c takes next: the request passed over by 16 hits, else a hit of an open row, else by
weighted round robin (log entry 42). -/
def State.nextReq (s : State) (c : Nat) : Option DramReq :=
  let l := s.bestClass (s.ready c)
  match l.find? (fun q => decide (16 ≤ q.passed)) with
  | some q => some q
  | none =>
    let l := prefer s.rowHit l
    l.find? (fun q => q.req.port.val == s.turnPort l)

/-- The turn moves on after a grant of port p. -/
def State.takeTurn (s : State) (p : Nat) : State :=
  let left := (if p = s.mem.turn ∧ 0 < s.mem.turnLeft then s.mem.turnLeft else s.weight p) - 1
  { s with mem := { s.mem with turn := if left = 0 then (p + 1) % 24 else p, turnLeft := left } }

/-- A transaction is issued: it takes a tag and a slot, and leaves its row open unless `idle_close` is 0 (R250). A hit passes
over the misses of its class. -/
def State.issue (s : State) (q : DramReq) : State :=
  let hit := s.rowHit q
  let level := s.reqLevel q
  let cls := s.bestClass (s.ready q.chan)
  let waiting := (s.mem.waiting.filter (fun w => w.id != q.id)).map (fun w =>
    if hit && !s.rowHit w && cls.any (fun u => u.id == w.id) then { w with passed := w.passed + 1 } else w)
  let row := if s.fget F.MEM_PAGE_CTRL.idle_close = 0 then none else some q.row
  let s := s.takeTurn q.req.port
  let s := { s with mem := { s.mem with
    waiting := waiting, inFlight := s.mem.inFlight ++ [{ q with urgency := level }]
    openRow := Tbl.set none s.mem.openRow (q.chan * 16 + q.bank) row
    rowAt := Tbl.set 0 s.mem.rowAt (q.chan * 16 + q.bank) s.gridTime } }
  s.showTags q.req.port

/-- Issue what can be issued, at most n transactions. -/
def State.issueN (s : State) : Nat → State
  | 0 => s
  | n + 1 =>
    match (List.range 32).findSome? s.nextReq with
    | some q => (s.issue q).issueN n
    | none => s

/-- Issue what can be issued. -/
def State.issueAll (s : State) : State := s.issueN s.mem.waiting.length

/-! ### Requests (R20, R21, R258, R271) -/

/-- The world of an access (R271): an application core's own, else its owner's. The spec gives the management cores no owner: theirs
is what the request says. -/
def State.accessInner (s : State) (r : Requester) : Bool :=
  if r.unit.val < 8 then s.coreInner r.unit
  else if r.unit.val = 8 ∨ r.unit.val = 9 then r.inner
  else s.ownerInner r.owner.toNat

/-- What becomes of a request before it reaches a channel. -/
inductive Admit where
  | fence | error | down | sram | dram | rom
  deriving DecidableEq, Repr

/-- R26: a PCIe access of an instance comes through its BAR2 aperture, of a size fixed at its creation, and lies within the memory
granted to it (log entry 66). -/
def State.apertureOk (s : State) (r : Requester) (addr n : Nat) : Bool :=
  let size := 2 ^ ((s.shape r.owner.toNat).map (·.aperture)).getD 0
  r.unit != 18 || r.owner.toNat == 0 || decide (64 ≤ r.owner.toNat) ||
    (decide (addr + n ≤ s.grantBase r.owner.toNat + size) && decide (s.grantBase r.owner.toNat ≤ addr) && decide (addr + n ≤ s.grantBase r.owner.toNat + s.grantSize r.owner.toNat))

/-- The Boot ROM, which the management cores reach (R20); they are units 8 and 9 (log entry 81). -/
def romAccess (r : Requester) (addr n : Nat) : Bool :=
  decide (addr + n ≤ 0x40000) && (r.unit.val == 8 || r.unit.val == 9)

/-- The ports that a unit's requests may arrive on (R253): of a core its partition's for demand misses, and 10 for what the L3
starts. -/
def State.portsOf (s : State) (unit : Nat) : List Nat :=
  if unit < 8 then [s.recipe.partPort ((s.recipe.corePartition unit).getD 0), 10]
  else if unit = 8 ∨ unit = 9 then [11]
  else if unit = 16 then [12, 13]
  else if unit = 17 then [4, 5, 6, 7, 8, 9]
  else if unit = 18 then [14]
  else if unit = 19 then [0, 1, 2, 3]
  else [15]

/-- The port that a request arrives on: the one it names where its unit may use it, else the unit's first. -/
def State.arrivesOn (s : State) (r : Requester) : Fin 24 :=
  let l := s.portsOf r.unit
  if l.contains r.port.val then r.port else Fin.ofNat 24 (l.headD 15)

/-- A requester as the device knows it: its port, and of an application core the partition that names it (R272). -/
def State.knownRequester (s : State) (r : Requester) : Requester :=
  let r := { r with port := s.arrivesOn r }
  if r.unit.val < 8 then { r with owner := BitVec.ofNat 8 (64 + (s.recipe.corePartition r.unit).getD 0) } else r

/-- The request is a core's own access, and not one that the L3 starts. -/
def isDemand (r : Requester) : Bool := decide (r.unit.val < 8) && r.port.val != 10

/-- A core that was not released issues nothing (R272); its own accesses need it to execute. -/
def State.requesterRuns (s : State) (r : Requester) : Bool :=
  decide (8 ≤ r.unit.val) || (s.hasBit .CPX_STATUS (16 + r.unit.val) && (!isDemand r || s.coreRuns r.unit))

/-- What a request does, as an access of a core. -/
def accessKind (r : Requester) (write : Bool) : AccessKind := if r.fetch then .fetch else if write then .store else .load

/-- The physical address of a request: a core's own goes through its translation (R269). -/
def State.physical (s : State) (r : Requester) (write : Bool) (addr len : Nat) :
    Except (CoreFault × Option Nat) (Nat × Option CoreTlb) :=
  if isDemand r then s.coreAddress r.unit r.owner.toNat r.mode (accessKind r write) r.insn r.short addr len
  else .ok (addr, none)

/-- R20, R21, R26, R258, R262, R271: the first that applies. -/
def State.admitReq (s : State) (r : Requester) (addr n : Nat) : Admit :=
  let last := addr + (n - 1)
  let inner := s.accessInner r
  if romAccess r addr n then .rom
  else if !s.apertureOk r addr n then .error
  else if (s.innerRegion addr || s.innerRegion last) && !inner then .fence
  else if !s.admitsTo inner r.owner.toNat addr || !s.admitsTo inner r.owner.toNat last then .error
  else if isSram addr && isSram last then .sram
  else if !s.isDram addr || !s.isDram last || s.inCheckArea addr n then .error
  else if s.onDownChannel addr then .down
  else .dram

/-- The system memory runs: main domain up, DRAM trained or absent, Day or Dusk (R264). -/
def State.memRuns (s : State) : Bool := s.awake

/-- R271: a refusal: a core takes an access fault on the address that it used, another requester an error response. -/
def State.refuseAccess (s : State) (id : Nat) (r : Requester) (va addr : Nat) (write : Bool) : State :=
  let s := s.fenceCapture r.unit r.owner.toNat addr write r.fetch
  let k := accessKind r write
  if isDemand r then s.coreTrap r.unit ⟨k.accessFault, BitVec.ofNat 64 va, 0, transformed k r.insn r.short⟩
  else s.emit (.response id [] true)

/-- Enqueue a DRAM request. -/
def State.enqueue (s : State) (id : Nat) (r : Requester) (write : Bool) (addr len : Nat) (b : List Byte) (fillNs : Nat) : State :=
  let p := s.placeOf addr
  let q : DramReq := ⟨id, r, write, addr, len, b, p.chan, p.bank, p.row, s.gridTime, fillNs, 0, 0⟩
  { s with mem := { s.mem with waiting := s.mem.waiting ++ [q] } }.issueAll

/-- R281: the lines of an access pass the directory, unless the L3 itself starts it. -/
def State.coherent (s : State) (r : Requester) (write : Bool) (addr len : Nat) : State :=
  if r.port.val = 10 then s else forEach (linesOf addr len) (fun a s => s.throughDirectory r.unit a write) s

/-- The bytes of a write: as many as the request's length. -/
def dataOf (b : List Byte) (len : Nat) : List Byte := (b ++ List.replicate len 0).take len

/-- The bytes that a read of the Boot ROM returns, which the spec does not give; a write gets an error response. -/
def State.romAnswer (s : State) (id len : Nat) (write : Bool) : State :=
  if write then s.emit (.response id [] true)
  else ({ s with draws := s.draws + len }).emit (.response id (freeBytes s.draws len) false)

/-- A request of a known requester at a physical address: refused, answered at once, or queued for its channel. -/
def State.requestOf (s : State) (r : Requester) (write : Bool) (va addr len : Nat) (b : List Byte) (fillNs : Nat) : State :=
  let id := s.mem.nextId
  let a := s.admitReq r addr len
  let s := { s with mem := { s.mem with nextId := id + 1 } }
  match a with
  | .fence => s.refuseAccess id r va addr write
  | .error => s.emit (.response id [] true)
  | .down => (s.memUe r.port r.owner.toNat addr ueChannelDown).emit (.response id [] true)
  | .rom => s.romAnswer id len write
  | .sram => (s.coherent r write addr len).emit (.response id (if write then [] else s.readBytes addr len) false)
  | .dram => (s.coherent r write addr len).enqueue id r write addr len (dataOf b len) fillNs

/-- What a core's own access leaves in the core, before it reaches memory. -/
def State.noteAccess (s : State) (r : Requester) : State := if isDemand r then (s.inMode r.unit r.mode).warm r.unit else s

/-- DRAM_REQUEST of a known requester: a core's access that its translation stops is an exception of the core. -/
def State.knownRequest (s : State) (r : Requester) (write : Bool) (addr len : Nat) (b : List Byte) (fillNs : Nat) : State :=
  match s.physical r write addr len with
  | .error (f, refused) =>
    let s := s.noteAccess r
    (match refused with | some a => s.fenceCapture r.unit r.owner.toNat a false r.fetch | none => s).coreTrap r.unit f
  | .ok (pa, t) =>
    let s := s.noteAccess r
    (match t with | some t => s.coreTlbFill r.unit t | none => s).requestOf r write addr pa len b fillNs

/-- DRAM_REQUEST. -/
def State.dramRequest (s : State) (r : Requester) (write : Bool) (addr len : Nat) (b : List Byte) (fillNs : Nat) : State :=
  let r := s.knownRequester r
  if s.memRuns && s.requesterRuns r then s.knownRequest r write addr len b fillNs else s

/-- The stores of a request to system SRAM. -/
def State.requestStores (s : State) (r : Requester) (write : Bool) (addr len : Nat) (b : List Byte) : List Store :=
  let r := s.knownRequester r
  if s.memRuns && s.requesterRuns r && write then
    match s.physical r write addr len with
    | .ok (pa, _) => if s.admitReq r pa len == .sram then [(pa, dataOf b len)] else []
    | .error _ => []
  else []

/-- DRAM_REQUEST (R253 to R256, R258, R269, R271). -/
def execDramRequest (r : Requester) (write : Bool) (addr : BitVec 64) (len : Nat) (bytes : List Byte) (fillNs : Nat)
    (s : State) : Host.Outcome State Fault Refusal :=
  doneMem (fun s => s.requestStores r write addr.toNat len bytes)
    (fun s => s.dramRequest r write addr.toNat len bytes fillNs) s

/-! ### Completion (R254, R257 to R261) -/

/-- What ECC makes of a completion: the type of an uncorrectable error, or whether an error was corrected. -/
inductive EccOutcome where
  | ok
  | corrected
  | ue (type : Nat)
  deriving DecidableEq, Repr

/-- R257, R258: an outcome counts only where link ECC is enabled on the channel, or inline ECC on the carve-out. -/
def State.eccOutcome (s : State) (q : DramReq) (e : EccResult) : EccOutcome :=
  let link := s.hasBit .MEM_LINK_ECC q.chan
  match e with
  | .clean | .linkWriteOnce => .ok
  | .linkCorrected => if link then .corrected else .ok
  | .linkRead => if link && !q.write then .ue 1 else .ok
  | .linkWriteTwice => if link && q.write then .ue 2 else .ok
  | .inlineSingle => if s.inlineEcc q.addr then .corrected else .ok
  | .inlineDouble => if s.inlineEcc q.addr then .ue 3 else .ok

/-- R257, R265: a corrected error; the event at most once per ms. -/
def State.memCe (s : State) : State :=
  let s := s.bump F.MEM_CE_COUNT.count
  let quiet := match s.mem.ceAt with
    | some t => decide ((s.gridTime - t).toNat < 1000000)
    | none => false
  if quiet then s else { s with mem := { s.mem with ceAt := some s.gridTime } }.raise 241

/-- The owner class of R381: 1 assured, 2 general, 3 manager. -/
def ownerClass (owner : Nat) : Nat := if owner = 0 then 3 else if owner < 64 then 2 else if owner < 72 then 1 else 0

/-- R381: the class, owner and address filters of counter n. -/
def State.pmcDramOk (s : State) (n owner addr : Nat) (filterAddr : Bool) : Bool :=
  let cls := s.fget F.PMC_SEL.class_ n
  let base := (s.get64 .PMC_ADDR_BASE_LO .PMC_ADDR_BASE_HI n).toNat % 2 ^ 48 / 64
  let limit := (s.get64 .PMC_ADDR_LIMIT_LO .PMC_ADDR_LIMIT_HI n).toNat % 2 ^ 48 / 64
  (cls == 0 || cls == ownerClass owner) && s.pmcOwnerOk n owner &&
    (!filterAddr || !s.flag F.PMC_SEL.addr_en n || (decide (base ≤ addr / 64) && decide (addr / 64 ≤ limit)))

/-- R381: count a DRAM code of a port. -/
def State.pmcDram (s : State) (code : Nat) (q : DramReq) (amount : Nat) (filterAddr : Bool) : State :=
  forEach ((s.pmcMatching code q.req.port).filter (fun n => s.pmcDramOk n q.req.owner.toNat q.addr filterAddr))
    (fun n s => s.pmcAdd n amount) s

/-- A completed transaction: bytes moved use up credit (R256) and count in the bandwidth window (R385) and in the counters. -/
def State.moved (s : State) (q : DramReq) : State :=
  let p := q.req.port.val
  let s := { s with
    mem := { s.mem with credit := Tbl.upd 0 s.mem.credit p (· - q.len) }
    evt := { s.evt with bytes := Tbl.upd 0 s.evt.bytes p (· + q.len) } }
  s.pmcDram (if q.write then 7 else 6) q q.len true

/-- R255: a transaction completed at level 3. -/
def State.lateDone (s : State) (q : DramReq) : State :=
  if q.urgency = 3 then (s.bump F.MEM_PORT_LATE.value q.req.port).pmcDram 8 q 1 false else s

/-- The transaction in flight with a number. -/
def State.flying (s : State) (id : Nat) : Option DramReq := s.mem.inFlight.find? (fun q => q.id == id)

/-- TRANSACTION_COMPLETE: the tag and the slot are free, the requester has its answer, and the next requests are issued. -/
def State.transactionComplete (s : State) (id : Nat) (e : EccResult) : State :=
  match s.flying id with
  | none => s
  | some q =>
    let out := s.eccOutcome q e
    let s := { s with mem := { s.mem with inFlight := s.mem.inFlight.filter (fun w => w.id != id) } }.showTags q.req.port
    let s := s.lateDone q
    let s :=
      match out with
      | .ue t => (s.memUe q.req.port q.req.owner.toNat q.addr t).emit (.response id [] true)
      | .corrected => (s.memCe.moved q).emit (.response id (if q.write then [] else s.readBytes q.addr q.len) false)
      | .ok => (s.moved q).emit (.response id (if q.write then [] else s.readBytes q.addr q.len) false)
    s.issueAll

/-- The stores of a completed write. -/
def State.completeStores (s : State) (id : Nat) (e : EccResult) : List Store :=
  match s.flying id with
  | none => []
  | some q =>
    match s.eccOutcome q e with
    | .ue _ => []
    | _ => if q.write then [(q.addr, q.bytes)] else []

/-- TRANSACTION_COMPLETE (R254). -/
def execTransactionComplete (id : Nat) (ecc : EccResult) (s : State) : Host.Outcome State Fault Refusal :=
  doneMem (fun s => s.completeStores id ecc) (fun s => s.transactionComplete id ecc) s

/-- CREDIT_WINDOW: the credit of every port is its reserved bandwidth in MB/s times 100 µs. -/
def State.creditWindow (s : State) : State :=
  let full : Tbl Int := (List.range 24).foldl
    (fun t p => Tbl.set 0 t p (((s.get .MEM_PORT_RESERVE p).toNat * 100 : Nat) : Int)) []
  { s with mem := { s.mem with credit := full } }

/-- CREDIT_WINDOW (R256). -/
def execCreditWindow (s : State) : Host.Outcome State Fault Refusal := done (fun s => s.whenAwake State.creditWindow) s

/-- R250: the bank has had no access for `idle_close` times 10 ns. -/
def State.rowIdle (s : State) (n : Nat) : Bool :=
  decide (s.fget F.MEM_PAGE_CTRL.idle_close * 10 ≤ (s.gridTime - Tbl.get 0 s.mem.rowAt n).toNat)

/-- ROW_IDLE_CLOSE: the row of a bank is closed. -/
def State.rowIdleClose (s : State) (n : Nat) : State :=
  if s.rowIdle n then { s with mem := { s.mem with openRow := Tbl.set none s.mem.openRow n none } } else s

/-- ROW_IDLE_CLOSE (R250). -/
def execRowIdleClose (ch : Fin 32) (bank : Fin 16) (s : State) : Host.Outcome State Fault Refusal :=
  done (fun s => s.rowIdleClose (ch.val * 16 + bank.val)) s

/-- PER_BANK_REFRESH: the device's report makes `hot`. The refresh itself blocks its bank for a time that no figure of the model
shows. -/
def State.bankRefresh (s : State) (ch : Nat) (hot : Bool) : State :=
  let l := if hot then NSet.insert s.mem.hot ch else NSet.erase s.mem.hot ch
  let s := onlyIf (hot && !s.flag F.MEM_STATUS.hot) (fun s => s.raise 246) { s with mem := { s.mem with hot := l } }
  s.fflag F.MEM_STATUS.hot (!l.isEmpty)

/-- PER_BANK_REFRESH (R251). -/
def execPerBankRefresh (ch : Fin 32) (_bank : Fin 16) (hot : Bool) (s : State) : Host.Outcome State Fault Refusal :=
  done (fun s => if s.awake && s.hasBit .MEM_CHAN_ACTIVE ch then s.bankRefresh ch hot else s) s

/-! ### Shed mode (R263) -/

/-- The layer's term still counts. -/
def State.unshed (s : State) (n : Nat) : Bool := !s.flag F.LAYER_STATUS.shed n && !(s.layer n).shedding

/-- The scan-out term of a layer; a cursor layer has 0. -/
def Recipe.layerTerm (r : Recipe) (n : Nat) : Nat := if 8 ≤ n ∧ r.layerUsed n then scanOutTerm r n else 0

/-- The remaining scan-out terms. -/
def State.scanTerms (s : State) : Nat := (((List.range 48).filter s.unshed).map s.recipe.layerTerm).sum

/-- The partition terms. -/
def Recipe.partTerms (r : Recipe) : List Nat := (List.range r.partCount).map (fun e => partTerm r (r.partEntry e))

/-- R263: shed one layer; it leaves the picture at the next frame start (R202). -/
def State.shedLayer (s : State) (n : Nat) : State :=
  let s := s.setLayer n { s.layer n with shedding := true }
  (s.fset F.MEM_STATUS.shed 1).fset F.MEM_STATUS.shed_count (s.fget F.MEM_STATUS.shed_count + 1)

/-- R263: shed layers of the order, from the first not reached, until the sum fits. -/
def State.shedUntil (s : State) (ceiling : Nat) : List Nat → State
  | [] => s
  | n :: t =>
    if s.scanTerms + s.recipe.partTerms.sum ≤ ceiling then s
    else
      let u := s.shedLayer n
      State.shedUntil { u with mem := { u.mem with shedPos := u.mem.shedPos + 1 } } ceiling t

/-- A value cut by a factor, rounded down. -/
def cutBy (f : Option (Nat × Nat)) (v : Nat) : Nat :=
  match f with
  | some (n, d) => v * n / max 1 d
  | none => v

/-- R256, R263: the reserved bandwidth of every port and MEM_RESERVED_NOW, with the factor of a cut. -/
def State.publishReserve (s : State) (f : Option (Nat × Nat)) : State :=
  let r := s.recipe
  let cmp (p : Nat) : Nat :=
    (((List.range 48).filter (fun n => s.unshed n && r.layerUsed n && r.layerOut n / 2 == p)).map r.layerTerm).sum
  let part (p : Nat) : Nat :=
    (((List.range r.partCount).map r.partEntry).map (fun b => if u8 b 9 = p then cutBy f (u32 b 12) else 0)).sum
  let s := forEach (List.range 24) (fun p s =>
    s.put .MEM_PORT_RESERVE (BitVec.ofNat 32 (if p ≤ 3 then cmp p else if 16 ≤ p then part p else 0)) p) s
  s.put .MEM_RESERVED_NOW (BitVec.ofNat 32 (s.scanTerms + (r.partTerms.map (cutBy f)).sum))

/-- R45, R262: the ceiling with the channels that carry traffic. -/
def State.ceilingNow (s : State) : Nat :=
  ceilingOf (s.fget F.SYS_BOOT_STATUS.data_rate) (((List.range 32).filter (fun c => s.hasBit .MEM_CHAN_ACTIVE c)).length)

/-- R262, R263: recompute the ceiling, shed, cut the reserves. -/
def State.recompute (s : State) : State :=
  let c := s.ceilingNow
  let s := s.put .MEM_CEILING_NOW (BitVec.ofNat 32 c)
  if s.admitted then
    let from_ := s.mem.shedPos
    let s := s.shedUntil c (s.recipe.shedOrder.drop from_)
    let s := onlyIf (s.mem.shedPos != from_) (fun s => s.raise 244) s
    let parts := s.recipe.partTerms.sum
    if s.scanTerms + parts ≤ c then s.publishReserve none
    else
      let f := (c - s.scanTerms, parts)
      let cut : Tbl Int := (List.range 24).foldl
        (fun t p => Tbl.set 0 t p (if 16 ≤ p then s.credit p * f.1 / max 1 f.2 else s.credit p)) []
      ({ s with mem := { s.mem with credit := cut } }.publishReserve (some f)).raise 245
  else s

/-! ### Retraining and channel loss (R252, R262, R264) -/

/-- `link_ecc` reads 1 only while link ECC is enabled on every active channel (R257). -/
def State.showLinkEcc (s : State) : State :=
  let on := s.get .MEM_CHAN_ACTIVE
  let s := s.put .MEM_LINK_ECC (s.get .MEM_LINK_ECC &&& on)
  s.fflag F.MEM_STATUS.link_ecc (on != 0 && s.get .MEM_LINK_ECC == on)

/-- R262: an access on the channel ends with an error response. -/
def State.downError (s : State) (q : DramReq) : State :=
  (s.memUe q.req.port q.req.owner.toNat q.addr ueChannelDown).emit (.response q.id [] true)

/-- R262: a channel goes down. -/
def State.channelDown (s : State) (ch : Nat) : State :=
  let lost := (s.mem.inFlight ++ s.mem.waiting).filter (fun q => q.chan == ch)
  let s := { s with mem := { s.mem with
    inFlight := s.mem.inFlight.filter (fun q => q.chan != ch), waiting := s.mem.waiting.filter (fun q => q.chan != ch)
    failedOnce := NSet.erase s.mem.failedOnce ch, exiting := NSet.erase s.mem.exiting ch } }
  let s := forEach (List.range 24) (fun p s => s.showTags p) s
  let s := forEach lost (fun q s => s.downError q) s
  let s := ((s.clearBit .MEM_CHAN_ACTIVE ch).setBit .MEM_CHAN_DOWN ch).showLinkEcc
  (s.raise 243).recompute

/-- A pause may happen on the channel: it carries traffic, in Day and Dusk. -/
def State.mayPause (s : State) (ch : Nat) : Bool := s.awake && s.hasBit .MEM_CHAN_ACTIVE ch

/-- The channels that carry traffic. -/
def State.activeChans (s : State) : List Nat := (List.range 32).filter (fun c => s.hasBit .MEM_CHAN_ACTIVE c)

/-- The interval of R252 is over, or none has begun. -/
def State.intervalOver (s : State) : Bool :=
  match s.mem.interval with
  | some t => decide (s.fget F.MEM_RETRAIN_CTRL.interval_ms * 1000000 ≤ (s.gridTime - t).toNat)
  | none => true

/-- R252: within an interval the channels are retrained one at a time in channel order; the first of them begins it. At exit every
channel may pause (R264). -/
def State.pauseDue (s : State) (ch : Nat) : Bool :=
  s.mem.exiting.contains ch || s.activeChans.find? (fun c => decide (s.mem.retrainNext ≤ c)) == some ch ||
    (s.intervalOver && s.activeChans.head? == some ch)

/-- The pause of a channel takes its place in the interval. -/
def State.notePause (s : State) (ch : Nat) : State :=
  if s.mem.exiting.contains ch then { s with mem := { s.mem with exiting := NSet.erase s.mem.exiting ch } }
  else
    { s with mem := { s.mem with
      interval := if s.activeChans.head? = some ch then some s.gridTime else s.mem.interval, retrainNext := ch + 1 } }

/-- RETRAINING_PAUSE: a first failure is raised, and the pause is repeated 1 ms later. -/
def State.retrainPause (s : State) (ch : Nat) (pass : Bool) : State :=
  let s := s.notePause ch
  (if pass then s else { s with mem := { s.mem with failedOnce := NSet.insert s.mem.failedOnce ch } }.raise 242).issueAll

/-- RETRAINING_PAUSE (R252, R264). -/
def execRetrainingPause (ch : Fin 32) (pass : Bool) (s : State) : Host.Outcome State Fault Refusal :=
  done (fun s => if s.mayPause ch && s.pauseDue ch then s.retrainPause ch pass else s) s

/-- RETRAIN_REPEAT: only after a failure; a second one takes the channel down. -/
def State.retrainRepeat (s : State) (ch : Nat) (pass : Bool) : State :=
  if s.mem.failedOnce.contains ch then
    if pass then { s with mem := { s.mem with failedOnce := NSet.erase s.mem.failedOnce ch } } else s.channelDown ch
  else s

/-- RETRAIN_REPEAT (R252, R262). -/
def execRetrainRepeat (ch : Fin 32) (pass : Bool) (s : State) : Host.Outcome State Fault Refusal :=
  done (fun s => if s.mayPause ch then s.retrainRepeat ch pass else s) s

end Sys2Proof.Machine
end

