-- ==== Sys2Proof/Machine/OutOps.lean ====
section
/-! DEFINITION. The output tails (R204 to R221): timing, lock, links, apply, the freeze detector, and what a frame start does. -/

namespace Sys2Proof.Machine

/-! ### Timing (R204, R209, R213) -/

/-- The shadowed timing of an output, from its registers. -/
def State.shadowTiming (s : State) (o : Nat) : Timing :=
  { hActive := s.fget F.OUT_TIMING_H0.h_active o, hFront := s.fget F.OUT_TIMING_H0.h_front o
    hSync := s.fget F.OUT_TIMING_H1.h_sync o, hBack := s.fget F.OUT_TIMING_H1.h_back o
    vActive := s.fget F.OUT_TIMING_V0.v_active o, vFront := s.fget F.OUT_TIMING_V0.v_front o
    vSync := s.fget F.OUT_TIMING_V1.v_sync o, vBack := s.fget F.OUT_TIMING_V1.v_back o
    pclk := s.fget F.OUT_PCLK.pclk_khz o
    sync := s.fget F.OUT_CTRL.hsync_pos o + 2 * s.fget F.OUT_CTRL.vsync_pos o }

/-- The boot timing of an output (R204). -/
def Recipe.bootTiming (r : Recipe) (o : Nat) : Timing :=
  { hActive := r.outTiming o 0, hFront := r.outTiming o 1, hSync := r.outTiming o 2, hBack := r.outTiming o 3
    vActive := r.outTiming o 4, vFront := r.outTiming o 5, vSync := r.outTiming o 6, vBack := r.outTiming o 7
    pclk := r.outPclk o, sync := r.outSync o }

/-- The timing registers at the recipe's values. -/
def State.loadTimingRegs (s : State) (r : Recipe) (o : Nat) : State :=
  let t := r.bootTiming o
  let s := (s.fset F.OUT_TIMING_H0.h_active t.hActive o).fset F.OUT_TIMING_H0.h_front t.hFront o
  let s := (s.fset F.OUT_TIMING_H1.h_sync t.hSync o).fset F.OUT_TIMING_H1.h_back t.hBack o
  let s := (s.fset F.OUT_TIMING_V0.v_active t.vActive o).fset F.OUT_TIMING_V0.v_front t.vFront o
  let s := (s.fset F.OUT_TIMING_V1.v_sync t.vSync o).fset F.OUT_TIMING_V1.v_back t.vBack o
  let s := s.fset F.OUT_PCLK.pclk_khz t.pclk o
  let s := (s.fset F.OUT_CTRL.hsync_pos (bit t.sync 0) o).fset F.OUT_CTRL.vsync_pos (bit t.sync 1) o
  s.fset F.OUT_SUB_BG.bg (r.outSubBg o) o

/-- Active video begins this many lines after the frame start (R204). -/
def Timing.vBlank (t : Timing) : Nat := t.vFront + t.vSync + t.vBack

/-- R231: the heartbeat of a list starts late enough under a timing. -/
def hbLate (t : Timing) (l : List Byte) : Bool :=
  match recordAt l (u16 l 2) with
  | some r => heartbeatLate t.vBlank (u16 r.2 4) t.hTotal t.pclk
  | none => true

/-- R213: the timing fits output o of a recipe: maxima, exact refresh, DSC, and the timing checks of R231. A total or a pixel
clock of 0 fits nothing (log entry 54). -/
def Recipe.timingFits (r : Recipe) (o : Nat) (t : Timing) : Bool :=
  r.outEnabled o && t.hTotal != 0 && t.vTotal != 0 && t.pclk != 0 &&
  decide (t.hActive ≤ r.outMaxH o) && decide (t.vActive ≤ r.outMaxV o) && decide (t.pclk ≤ r.outMaxPclk o) &&
  decide (t.pclk * 1000000 ≤ r.outMaxRefresh o * t.hTotal * t.vTotal) &&
  (r.outDsc o == 0 || t.vActive % 8 == 0) &&
  linePeriodOk t.hTotal t.pclk && hbLate t (r.glazeList o false) && hbLate t (r.glazeList o true)

/-- The timing without the sync polarities. -/
def Timing.shape (t : Timing) : Timing := { t with sync := 0 }

/-! ### Links (R206, R215, R216) -/

/-- R216: success of a training. -/
def State.linkTrained (s : State) (o : Nat) : State :=
  let r := s.tailRecipe
  let dsc := r.outDsc o != 0
  let s := (s.setLink o lnkUp 0).fset F.OUT_LINK_INFO.link_rate (r.outRate o) o
  let s := (s.fset F.OUT_LINK_INFO.lanes (r.outLanes o) o).fflag F.OUT_LINK_INFO.dsc dsc o
  (s.fset F.OUT_LINK_INFO.slices (if dsc then dscSlices (s.out o).timing.hActive else 1) o).raise (224 + o)

/-! ### Enable, disable and apply (R212, R213, R215) -/

/-- R212: the state in which the generator starts. -/
def State.startLock (s : State) (o : Nat) : Nat :=
  if s.tailRecipe.outLockSource o = 0 ∨ !s.stValid then lockFreeRun else s.alignLock o

/-- The generator of an output starts (R209, R212). -/
def State.startOut (s : State) (o : Nat) : State :=
  let s := s.setOut o { s.out o with vAdjust := 0, pclkTrim := 0, frames := 0, still := 0 }
  ((s.setLock o (s.startLock o)).fset F.OUT_STATUS.clk_present 1 o).train o

/-- The generator and the link of an output stop (R215); no background is in use (R220). -/
def State.stopOut (s : State) (o : Nat) : State :=
  (((s.setLock o 0).fset F.OUT_STATUS.clk_present 0 o).fset F.OUT_STATUS.substitute 0 o).setLink o lnkDisabled 0

/-- R212: enable or disable one output. An output that the OUT section leaves disabled has no timing, and stays off
(log entry 55). -/
def State.enableOut (s : State) (o : Nat) (en : Bool) : State :=
  if !s.tailRecipe.outEnabled o then s
  else
    let s := s.fflag F.OUT_CTRL.enable en o
    if en == s.outOn o then s else if en then s.startOut o else s.stopOut o

/-- R213: the new timing of one output. A change of anything but the polarities stops the link and retrains. -/
def State.takeTiming (s : State) (o : Nat) (t : Timing) : State :=
  let old := (s.out o).timing
  let s := s.setOut o { s.out o with timing := t }
  if old.shape = t.shape ∨ !s.outOn o then s
  else
    let s := s.setOut o { s.out o with dark := true, vAdjust := 0, pclkTrim := 0 }
    (s.setLock o (s.startLock o)).train o

/-- R213, R214: `apply` on both halves of a locked pair, or on none. -/
def State.applyTiming (s : State) (o : Nat) : State :=
  let t := s.shadowTiming o
  if (s.halves o).all (fun h => s.tailRecipe.timingFits h t) then forEach (s.halves o) (fun h s => s.takeTiming h t) s
  else s.fset F.OUT_STATUS.apply_err 1 o

/-- R233: a recipe passed its signature check: an output whose entry differs from the one in force is reconfigured, and sends no
pixel until its link has trained. -/
def State.adoptOut (s : State) (old new : Recipe) : State :=
  forEach (List.range 8) (fun o s =>
    if old.out o = new.out o then s
    else
      let s := (s.stopOut o).loadTimingRegs new o
      let s := s.setOut o { OutState.initial with
        timing := new.bootTiming o, dark := new.outEnabled o, sinkDsc := (s.out o).sinkDsc, frzCtrl := (s.out o).frzCtrl
        frzWin := (s.out o).frzWin }
      s.enableOut o (new.outEnabled o)) s

/-- Registers and enables at admission (R213, R215): an identical entry goes on scanning. -/
def State.admitOut (s : State) (r : Recipe) : State :=
  forEach (List.range 8) (fun o s => (s.loadTimingRegs r o).enableOut o (r.outEnabled o)) s

/-! ### Power states (R71, R73, R217) -/

/-- R217: entry to Twilight. A link that is not up sleeps too, and trains when it wakes (log entry 136). -/
def State.outsTwilight (s : State) : State :=
  forEach ((List.range 8).filter s.outOn) (fun o s =>
    let r := s.tailRecipe
    let s := s.setOut o { s.out o with linkWas := s.linkOf o }
    if r.openLdi o then s.setLink o lnkDisabled 0
    else s.setLink o (if r.outStandard o = 4 then lnkPsr else lnkStandby) 0) s

/-- R71: in Night and Eclipse every output is disabled. -/
def State.outsNight (s : State) : State := forEach ((List.range 8).filter s.outOn) (fun o s => s.stopOut o) s

/-- R73: what the island loads from the OUT section on the exit from Eclipse. -/
def State.outsReload (s : State) (r : Recipe) : State :=
  forEach (List.range 8) (fun o s =>
    let s := (s.loadTimingRegs r o).fflag F.OUT_CTRL.enable (r.outEnabled o) o
    s.setOut o { OutState.initial with timing := r.bootTiming o, sinkDsc := (s.out o).sinkDsc }) s

/-- The exit to Day: sleeping links come back up, and outputs that were disabled by Night or Eclipse start again. -/
def State.outsDay (s : State) : State :=
  forEach (List.range 8) (fun o s =>
    if s.outOn o then
      if s.linkOf o = lnkStandby ∨ s.linkOf o = lnkPsr then s.wakeLink o
      else if s.tailRecipe.openLdi o ∧ s.linkOf o = lnkDisabled then s.setLink o lnkUp 0
      else s
    else if s.flag F.OUT_CTRL.enable o && s.tailRecipe.outEnabled o then s.startOut o
    else s) s

/-! ### Lock (R209 to R212) -/

/-- The frame grid of R209. -/
def State.outGrid (s : State) (o : Nat) : Grid :=
  ⟨BitVec.ofNat 64 (s.tailRecipe.outAnchor o), (s.out o).timing.period32, 2 ^ 32⟩

/-- R210: the grid of targets, if the output has one now. A genlock grid runs on past j = m − 1, so that a frame start just
before the next pulse has its target (log entry 56). -/
def State.targetGrid (s : State) (o : Nat) : Option Grid :=
  if s.lockOf o = lockFreeRun then none
  else if s.tailRecipe.outLockSource o = 1 ∨ s.lockOf o = lockMismatch then some (s.outGrid o)
  else if s.lockOf o = lockHold then none
  else
    let x := s.genIn (s.tailRecipe.outGenlock o)
    match x.lastV, x.period with
    | some v, some p => some ⟨stAdd v (s.tailRecipe.outLockOffset o), p, max 1 (s.tailRecipe.outDivide o)⟩
    | _, _ => none

/-- R211: |e|, in 2^-32 ns, exceeds one line period. -/
def Timing.overLine (t : Timing) (e : Int) : Bool := decide (t.hTotal * 1000000 * 2 ^ 32 < e.natAbs * t.pclk)

/-- R211, step 1: the lines by which v_front changes. -/
def Timing.lineStep (t : Timing) (e : Int) : Int :=
  let c : Int := (max 1 (t.vTotal / 100) : Nat)
  let want := roundDiv (-e * t.pclk) (t.hTotal * 1000000 * 2 ^ 32)
  max (1 - (t.vFront : Int)) (max (-c) (min c want))

/-- R211, step 2: the trim in ppm, against the error and within 500; its size is a free value (log entry 57). -/
def trimAgainst (e : Int) (free : Nat) : Int := -(e.sign) * ((free % 501 : Nat) : Int)

/-- R212: the state in which a frame start with error e leaves an output, and its count towards R211 step 3. -/
def lockNext (t : Timing) (st good : Nat) (e : Int) : Nat × Nat :=
  if st = lockLocked then (if t.overLine e then (lockAligning, 0) else (lockLocked, 0))
  else if st = lockAligning then
    if e.natAbs ≤ 4 * 2 ^ 32 then (if 8 ≤ good + 1 then (lockLocked, 0) else (lockAligning, good + 1)) else (lockAligning, 0)
  else (st, 0)

/-- R211: the measurement at a frame start with error e. -/
def State.correct (s : State) (o : Nat) (e : Int) : State :=
  let t := (s.out o).timing
  let far := t.overLine e
  let nx := lockNext t (s.lockOf o) (s.out o).good e
  let s := if nx.1 = s.lockOf o then s else s.setLock o nx.1
  let trim := if far then 0 else trimAgainst e (Config.freeNat s.draws)
  let s := s.drawn
  (s.setOut o { s.out o with
    good := nx.2, vAdjust := if far then t.lineStep e else 0, pclkTrim := trim }).put .OUT_LOCK_ERR
    (BitVec.ofInt 32 (saturate 32 (wholeNs e))) o

/-- R212: ST has become valid under an output with a lock source, or is not valid. -/
def State.freeOrAlign (s : State) (o : Nat) : State :=
  let want := s.startLock o
  if want = lockFreeRun then (if s.lockOf o = lockFreeRun then s else s.setLock o lockFreeRun)
  else if s.lockOf o = lockFreeRun then s.setLock o (s.alignLock o)
  else s

/-- R209: the frame index of a frame start. -/
def State.frameIndex (s : State) (o : Nat) (fs : ST) : W32 :=
  if s.lockOf o = lockFreeRun then BitVec.ofNat 32 (s.out o).frames
  else
    let g := s.outGrid o
    BitVec.ofInt 32 (roundDiv (stDiff fs g.anchor * g.den) (g.num : Int))

/-- R209 to R212 at a frame start: the odd half of a locked pair runs on the generator of the even one (R214). -/
def State.lockFrame (s : State) (o : Nat) (fs : ST) : State :=
  let s :=
    if s.oddHalf o then
      let s := if s.lockOf o = s.lockOf (o - 1) then s else s.setLock o (s.lockOf (o - 1))
      s.put .OUT_LOCK_ERR (s.get .OUT_LOCK_ERR (o - 1)) o
    else
      let s := s.freeOrAlign o
      match s.targetGrid o with
      | some g => s.correct o (g.error32 fs (g.nearest fs))
      | none => s
  let s := s.put .OUT_FRAME_INDEX (s.frameIndex o fs) o
  s.setOut o { s.out o with frames := (s.out o).frames + 1, lastFs := fs }

/-! ### Freeze detector (R219) -/

/-- An enabled window: its width is not 0. -/
def winOn (w : W32 × W32) : Bool := w.2.toNat % 65536 != 0

/-- The freeze windows as the registers give them. -/
def State.frzRegs (s : State) (o : Nat) : List (W32 × W32) :=
  (List.range 4).map (fun k => (s.get .OUT_FRZ_WIN_POS o k, s.get .OUT_FRZ_WIN_SIZE o k))

/-- The detector counts: it is enabled and `frames` is not 0. -/
def frzOn (ctrl : W32) : Bool := F.OUT_FRZ_CTRL.enable.of ctrl == 1 && F.OUT_FRZ_CTRL.frames.of ctrl != 0

/-- The CRC register of a freeze window, or its start value. -/
def OutState.acc (x : OutState) (k : Nat) : W32 := x.sigAcc.getD k 0xFFFFFFFF

/-- R219: the signatures of the frame that ended; a disabled window has none. -/
def OutState.signatures (x : OutState) : List W32 :=
  (List.range 4).map (fun k => if winOn (x.frzWin.getD k (0, 0)) then x.acc k ^^^ 0xFFFFFFFF else 0)

/-- R219 at the end of a frame that should change. -/
def State.frzCount (s : State) (o : Nat) (same : Bool) : State :=
  let n := F.OUT_FRZ_CTRL.frames.of (s.out o).frzCtrl
  if same then
    let c := min n (s.fget F.OUT_FRZ_COUNT.count o + 1)
    let s := s.fset F.OUT_FRZ_COUNT.count c o
    if c = n ∧ !s.flag F.OUT_STATUS.frozen o then (s.fset F.OUT_STATUS.frozen 1 o).raise (208 + o) else s
  else (s.fset F.OUT_FRZ_COUNT.count 0 o).fset F.OUT_STATUS.frozen 0 o

/-- R219: a frame has ended: its signatures, and the settings of the next. -/
def State.frzEnd (s : State) (o : Nat) : State :=
  let x := s.out o
  let sigs := x.signatures
  let s := forEach (List.range 4) (fun k s => s.put .OUT_FRZ_SIG (sigs.getD k 0) o k) s
  let s := if frzOn x.frzCtrl && x.shouldChange && x.sigKnown then s.frzCount o (sigs == x.sigs) else s
  s.setOut o { s.out o with
    sigs := sigs, sigKnown := true, sigAcc := [], frzCtrl := s.get .OUT_FRZ_CTRL o, frzWin := s.frzRegs o }

/-- The layers that an output shows, and how far to the right its columns start in their canvas (R214). -/
def State.shownLayers (s : State) (o : Nat) : List Nat × Nat :=
  if s.oddHalf o then (s.recipe.layersOf (o - 1), (s.out o).timing.hActive) else (s.recipe.layersOf o, 0)

/-- The destination of a layer meets a window of the output. -/
def meetsWindow (v : LayerSet) (shift : Nat) (w : W32 × W32) : Bool :=
  let x : Int := (w.1.toNat % 65536 + shift : Nat)
  let y : Int := (w.1.toNat / 65536 : Nat)
  winOn w && decide (LayerSet.dstX v < x + (w.2.toNat % 65536 : Nat)) && decide (x < LayerSet.dstX v + LayerSet.dstW v) &&
    decide (LayerSet.dstY v < y + (w.2.toNat / 65536 : Nat)) && decide (y < LayerSet.dstY v + LayerSet.dstH v)

/-- A frame with `content_changed` became current on the layer at the last frame start. -/
def LayerState.newContent (x : LayerState) : Bool := x.fresh && (x.current.map (·.changed)).getD false

/-- R219: the frame that starts should change. -/
def State.shouldChange (s : State) (o : Nat) : Bool :=
  let l := s.shownLayers o
  l.1.any (fun n =>
    let x := s.layer n
    x.newContent && LayerSet.ctrl x.live 0 && (s.out o).frzWin.any (meetsWindow x.live l.2))

/-! ### A frame start (R180) -/

/-- R220: main content is replaced by the substitute background. -/
def State.substituteNow (s : State) (o : Nat) : Bool := !(s.up && s.hasBit .CMP_STATUS o)

/-- R217: panel self refresh of an eDP output: entered in Day after two whole frames without a change, and left at the first frame
start at which something has changed. -/
def State.psrStep (s : State) (o : Nat) : State :=
  let x := s.out o
  let moved := x.glazeChanged || (s.awake && (s.shownLayers o).1.any (fun n => (s.layer n).newContent))
  let still := if moved then 0 else min 3 (x.still + 1)
  let s := s.setOut o { x with still := still, glazeChanged := false }
  if s.tailRecipe.outStandard o = 4 then
    if s.day ∧ s.linkOf o = lnkUp ∧ still = 3 then s.setLink o lnkPsr 0
    else if s.awake ∧ s.linkOf o = lnkPsr ∧ still = 0 then s.setLink o lnkUp 0
    else s
  else s

/-- CMP composes: it runs in Day and Dusk, for an admitted recipe. -/
def State.composing (s : State) : Bool := s.awake && s.admitted

/-- R13, R180, R209 to R220, R239: one frame start of an output. -/
def State.frameStart (s : State) (o : Nat) (actual : ST) : State :=
  if s.scans o then
    let s := s.lockFrame o actual
    let s := s.frzEnd o
    let x := s.out o
    let s := s.setOut o { x with dark := x.dark && s.linkOf o != lnkUp, underrunFrame := false, hbAcc := 0xFFFFFFFF }
    let s := s.fflag F.OUT_STATUS.substitute (s.substituteNow o) o
    let s := s.islFrameStart o (x.hbAcc ^^^ 0xFFFFFFFF)
    let s := if s.composing then s.cmpFrameStart o actual else s
    let s := s.setOut o { s.out o with shouldChange := s.composing && s.shouldChange o }
    (s.psrStep o).refreshIsl
  else s

/-- R218: a line with an underrun pixel. -/
def State.underrunLine (s : State) (o line : Nat) : State :=
  let s := (s.bump F.OUT_UNDERRUN_COUNT.count o).fset F.OUT_UNDERRUN_LINE.line line o
  if (s.out o).underrunFrame then s
  else ((s.setOut o { s.out o with underrunFrame := true }).fset F.OUT_STATUS.underrun 1 o).raise (200 + o)

end Sys2Proof.Machine
end

