-- ==== Sys2Proof/Machine/VirOps.lean ====
section
/-! DEFINITION. Virtual instances (R284 to R303): states, port ranges, creation, the reset of an instance, and its container. -/

namespace Sys2Proof.Machine

/-! ### States (R286) -/

/-- NONE. -/
def instNone : Nat := 0
/-- ACTIVE. -/
def instActive : Nat := 1
/-- FREEZING. -/
def instFreezing : Nat := 2
/-- FROZEN. -/
def instFrozen : Nat := 3
/-- SAVING. -/
def instSaving : Nat := 4
/-- RESTORING. -/
def instRestoring : Nat := 5
/-- RESETTING. -/
def instResetting : Nat := 6
/-- DESTROYING. -/
def instDestroying : Nat := 7

/-! The error codes of R286, R292 and R300. -/
/-- ERR_VIR_POOL. -/
def errPool : Nat := 1
/-- ERR_VIR_ARG. -/
def errArg : Nat := 2
/-- ERR_VIR_STATE. -/
def errState : Nat := 3
/-- ERR_VIR_SHAPE. -/
def errShape : Nat := 4
/-- ERR_VIR_VERSION. -/
def errVersion : Nat := 5
/-- ERR_VIR_CRC. -/
def errCrc : Nat := 6
/-- ERR_VIR_BUSY. -/
def errBusy : Nat := 7
/-- ERR_VIR_MEM. -/
def errMem : Nat := 8
/-- ERR_VIR_ABORTED. -/
def errAborted : Nat := 9

/-- Enter a state; the guest's page 1 shows it too. -/
def State.setInst (s : State) (i st : Nat) : State := (s.fset F.VIR_INST_STATE.state st i).fset F.INST_STATUS.state st i

/-- VIR_INST_STATE.err. -/
def State.instErr (s : State) (i err : Nat) : State := s.fset F.VIR_INST_STATE.err err i

/-- The channels of an instance. -/
def State.instChans (s : State) (i : Nat) : List Nat :=
  match s.shape i with
  | some h => (List.range h.dmaCount).map (h.dmaFirst + ·)
  | none => []

/-- The layers of an instance, ascending. -/
def State.instLayers (s : State) (i : Nat) : List Nat := ((s.shape i).map (·.layers)).getD []

/-! ### Ports (R285) -/

/-- The instances of port p: first and number. -/
def State.portRange (s : State) (p : Nat) : Nat × Nat :=
  (s.fget F.VIR_PORT_CFG.first_instance p, s.fget F.VIR_PORT_CFG.total_vfs p)

/-- The port in whose range an instance lies. -/
def State.portOf (s : State) (i : Nat) : Option Nat :=
  (List.range 4).find? (fun p => decide ((s.portRange p).1 ≤ i) && decide (i < (s.portRange p).1 + (s.portRange p).2))

/-- R285: a range lies within 1 to `general_max_instances` and overlaps that of no other port. -/
def State.rangeOk (s : State) (p first n : Nat) : Bool :=
  n == 0 || (decide (1 ≤ first) && decide (first + n ≤ s.recipe.generalMaxInstances + 1) &&
    (List.range 4).all (fun q => q == p || (s.portRange q).2 == 0 ||
      decide (first + n ≤ (s.portRange q).1) || decide ((s.portRange q).1 + (s.portRange q).2 ≤ first)))

/-- R285: a write of a port's offer. An `ap_log2` outside 24 to 36 is refused in the same way (log entry 61). -/
def State.portCfg (s : State) (p : Nat) (v : W32) : State :=
  if s.vir.vfEnable.contains p then s
  else if s.rangeOk p (F.VIR_PORT_CFG.first_instance.of v) (F.VIR_PORT_CFG.total_vfs.of v) ∧
      24 ≤ F.VIR_PORT_CFG.ap_log2.of v ∧ F.VIR_PORT_CFG.ap_log2.of v ≤ 36 then
    (((s.fset F.VIR_PORT_CFG.total_vfs (F.VIR_PORT_CFG.total_vfs.of v) p).fset F.VIR_PORT_CFG.first_instance
      (F.VIR_PORT_CFG.first_instance.of v) p).fset F.VIR_PORT_CFG.ap_log2 (F.VIR_PORT_CFG.ap_log2.of v) p).fset
      F.VIR_PORT_CFG.cfg_err 0 p
  else s.fset F.VIR_PORT_CFG.cfg_err 1 p

/-! ### The pool (R292, R303) -/

/-- The shapes in use: instance and shape. -/
def State.shapes (s : State) : List (Nat × Shape) := s.vir.shapes.filterMap (fun e => e.2.map (fun h => (e.1, h)))

/-- A sum over the instances. -/
def State.granted (s : State) (f : Shape → Nat) : Nat := (s.shapes.map (fun e => f e.2)).sum

/-- What a context slot that no owner holds shows as owner: a wedged slot of an instance that was destroyed. -/
def noOwner : Nat := 255

/-- Context slots that are out of the pool. -/
def State.lostContexts (s : State) : Nat := (s.vir.wedged.filter (fun c => s.ctxOwner c == noOwner)).length

/-- VIR_STATUS and VIR_POOL_FREE. -/
def State.showPool (s : State) : State :=
  let s := (s.fset F.VIR_STATUS.created s.shapes.length).fset F.VIR_STATUS.wedged
    ((List.range 64).filter (fun i => s.flag F.VIR_INST_STATE.wedged i)).length
  let s := s.fset F.VIR_POOL_FREE_0.cue_slots (s.recipe.generalCueQuota - s.granted (·.cueQuota))
  let s := s.fset F.VIR_POOL_FREE_0.dma_channels (s.recipe.generalDma - s.granted (·.dmaCount))
  s.fset F.VIR_POOL_FREE_1.contexts (s.recipe.generalContexts - (s.granted (·.contexts) + s.lostContexts))

/-- The layers of a 48-bit mask. -/
def maskLayers (lo hi : W32) : List Nat := (List.range 48).filter (fun n => if n < 32 then lo.getLsbD n else hi.getLsbD (n - 32))

/-- The shape in the create registers (R292). -/
def State.askedShape (s : State) : Shape :=
  { queues := s.fget F.VIR_CREATE_SHAPE.queues, vectors := s.fget F.VIR_CREATE_SHAPE.vectors,
    contexts := s.fget F.VIR_CREATE_SHAPE.contexts, cueQuota := s.fget F.VIR_CREATE_QUOTA.cue_quota,
    dmaFirst := s.fget F.VIR_CREATE_QUOTA.dma_first, dmaCount := s.fget F.VIR_CREATE_QUOTA.dma_count,
    layers := maskLayers (s.get .VIR_CREATE_LAYERS_LO) (s.get .VIR_CREATE_LAYERS_HI),
    dramBase := s.fget F.VIR_CREATE_DRAM_BASE.mib, dramSize := s.fget F.VIR_CREATE_DRAM_SIZE.mib, aperture := 0 }

/-- R292, order 2. -/
def State.shapeBad (s : State) (port : Nat) (h : Shape) : Bool :=
  h.queues == 0 || decide (16 < h.queues) || h.vectors == 0 || decide (32 < h.vectors)
    || (h.dmaCount != 0 && (decide (h.dmaFirst < 64) || decide (256 < h.dmaFirst + h.dmaCount)))
    || h.layers.any (fun n => !(s.recipe.layerUsed n && s.recipe.layerOwner n == 254))
    || h.dramBase % 2 != 0 || h.dramSize % 2 != 0 || h.dramSize == 0
    || decide (2 ^ s.fget F.VIR_PORT_CFG.ap_log2 port < h.dramSize * mib)

/-- R292, order 3. -/
def State.poolShort (s : State) (h : Shape) : Bool :=
  decide (s.recipe.generalCueQuota < s.granted (·.cueQuota) + h.cueQuota)
    || decide (s.recipe.generalContexts < s.granted (·.contexts) + s.lostContexts + h.contexts)
    || decide (s.recipe.generalDma < s.granted (·.dmaCount) + h.dmaCount)

/-- R292, order 4. -/
def State.shapeBusy (s : State) (h : Shape) : Bool :=
  s.shapes.any (fun e => h.layers.any (fun n => e.2.layers.contains n) ||
    (decide (h.dmaFirst < e.2.dmaFirst + e.2.dmaCount) && decide (e.2.dmaFirst < h.dmaFirst + h.dmaCount)
      && h.dmaCount != 0 && e.2.dmaCount != 0))

/-- R292, order 5: the DRAM range in one carve-out of the pool, apart from other grants. -/
def State.shapeMemBad (s : State) (h : Shape) : Bool :=
  !(List.range s.recipe.carveCount).any (fun c => s.recipe.carveOwner c == 255 &&
      decide (s.recipe.carveBase c ≤ h.dramBase) &&
      decide (h.dramBase + h.dramSize ≤ s.recipe.carveBase c + s.recipe.carveSize c))
    || s.shapes.any (fun e => decide (h.dramBase < e.2.dramBase + e.2.dramSize) &&
      decide (e.2.dramBase < h.dramBase + h.dramSize))

/-- R292: the first failure of a create; 0 none. -/
def State.createError (s : State) (i : Nat) (h : Shape) : Nat :=
  match s.portOf i with
  | none => errState
  | some p =>
    if s.instState i ≠ instNone then errState
    else if s.shapeBad p h then errArg
    else if s.poolShort h then errPool
    else if s.shapeBusy h then errBusy
    else if s.shapeMemBad h then errMem
    else 0

/-- R299: the bytes of a container. -/
def saveSize (h : Shape) : Nat :=
  64 + 64 + 4800 + 64 * h.queues + 32 * h.cueQuota + 256 * h.layers.length + 128 * h.dmaCount

/-- A register of pages 0 to 5 of an instance, of its cue window, or of the window of one of its layers. -/
def pageKey (i : Nat) (layers : List Nat) (r : RegKey) : Bool :=
  (r.reg.info.block == .INS && r.i == i)
    || (r.reg.info.block == .CUE && r.reg.info.ni == 73 && r.i == cueWindowOf i)
    || (r.reg.info.block == .CMP && r.reg.info.ni == 48 && layers.contains r.i && r.reg != .LAYER_ID && r.reg != .LAYER_STATUS)

/-- R292, R301: pages 0 to 7 are cleared; `rel_vector`, MBOX_RX_VEC and TFAULT_VEC read 255. State and vectors stay. -/
def State.clearPages (s : State) (i : Nat) : State :=
  let status := s.get .INST_STATUS i
  let s := (s.dropRegs (pageKey i (s.instLayers i))).put .INST_STATUS status i
  let s := s.fset F.INST_STATUS.tfault 0 i
  let s := forEach (s.instLayers i) (fun n s => s.setLayer n { s.layer n with pending := some LayerSet.initial }) s
  s.countCues i

/-- Store a shape. -/
def State.setShape (s : State) (i : Nat) (h : Option Shape) : State :=
  { s with vir := { s.vir with shapes := Tbl.set none s.vir.shapes i h } }

/-- R292, step 4: the instance is created. Its aperture keeps the size that its port's offer has now (R26), and a message that waited
in its page 3 goes with the page. -/
def State.createInst (s : State) (i : Nat) (h : Shape) : State :=
  let port := (s.portOf i).getD 0
  let s := s.setShape i (some { h with aperture := s.fget F.VIR_PORT_CFG.ap_log2 port })
  let s := (s.clearPages i).fset F.VIR_MB_STATUS.tx_busy 0 i
  let s := (s.put .VIR_INST_STATE 0 i).fset F.VIR_INST_STATE.port port i
  let s := ((s.put .INST_STATUS 0 i).fset F.INST_STATUS.number i i).fset F.INST_STATUS.vectors h.vectors i
  let s := s.put .VIR_INST_RESTORE_INFO 0 i
  let s := s.fset F.VIR_INST_SAVE_SIZE.size (saveSize h) i
  let s := forEach (s.instChans i) (fun c s => s.fset F.CH_CFG.form 1 c) s
  ((s.setInst i instActive).countCues i).showPool

/-- CREATE (R292): a refused create changes nothing but the error that it reports. -/
def State.create (s : State) (i : Nat) : State :=
  let s := s.fset F.VIR_CREATE_CTRL.inst i
  let err := s.createError i s.askedShape
  let s := s.fset F.VIR_CREATE_STATUS.err err
  if err = 0 then s.createInst i s.askedShape else s.raise 272

/-! ### Mailboxes (R289) -/

/-- Both messages of an instance are discarded. -/
def State.dropMail (s : State) (i : Nat) : State :=
  (s.put .VIR_MB_STATUS 0 i).bitTo .VIR_MB_PENDING (i % 32) false 0 (i / 32)

/-! ### Translations (R297) -/

/-- A cached translation is matched by an invalidation: pages of the owner from the first on, all for 0. -/
def invMatches (owner : Nat) (r : Nat × Nat) (t : TlbEntry) : Bool :=
  t.owner == owner && (r.2 == 0 || (decide (t.page < r.1 + r.2) && decide (r.1 < t.page + t.size)))

/-- No engine holds a matching translation any longer. -/
def State.dropTlb (s : State) (owner : Nat) (r : Nat × Nat) : State :=
  { s with vir := { s.vir with tlb := s.vir.tlb.filter (fun t => !invMatches owner r t) } }

/-- The invalidation in progress of an instance. -/
def State.setInv (s : State) (i : Nat) (r : Option (Nat × Nat)) : State :=
  { s with vir := { s.vir with inv := Tbl.set none s.vir.inv i r } }.fflag F.INV_STATUS.busy r.isSome i

/-! ### The reset of an instance (R301 to R303) -/

/-- R117: the unstaged cues of an instance are cancelled; staged ones are voided at launch. -/
def State.killCues (s : State) (i : Nat) : State :=
  let keepCue := fun (c : Nat × CueSlot) => c.2.entry.owner.toNat != i || c.2.staged
  let mark := fun (c : Nat × CueSlot) => if c.2.entry.owner.toNat = i then (c.1, { c.2 with voided := true }) else c
  { s with cue := { s.cue with slots := (s.cue.slots.filter keepCue).map mark } }.countCues i

/-- R317: a channel of the instance stops, at once or when its reads drain. -/
def State.stopChan (s : State) (c : Nat) : State :=
  if s.chState c = chRunning ∨ s.chState c = chPausing then s.fset F.CH_STATUS.state chPausing c else s.dmaStop c

/-- R301: the steps that a reset takes at once. -/
def State.resetSteps (s : State) (i : Nat) : State :=
  let s := forEach (s.ctxsOf i) (fun c s => s.ctxDestroyOp c) s
  let s := forEach (s.instChans i) (fun c s => s.stopChan c) s
  let s := s.killCues i
  let s := forEach (s.instLayers i) (fun n s => s.hideLayer n) s
  let s := (s.dropTlb i (0, 0)).setInv i none
  let s := { s with vir := { s.vir with container := Tbl.set [] s.vir.container i [] } }
  (s.dropMail i).clearPages i

/-- R286, R301: a reset of an instance starts. It ends a freeze, save or restore, which records ERR_VIR_ABORTED. -/
def State.flrStart (s : State) (i : Nat) : State :=
  let st := s.instState i
  if 1 ≤ st ∧ st ≤ 5 then
    let s := onlyIf (st == instFreezing || st == instSaving || st == instRestoring) (fun s => s.instErr i errAborted) s
    ((s.setInst i instResetting).msixClear i).resetSteps i
  else s

/-- Every context of the instance is gone, or HUNG. -/
def State.ctxsGone (s : State) (i : Nat) : Bool := (s.ctxsOf i).all (fun c => s.ctxState c == ctxHung)

/-- R317: the channels whose reads have drained stop. -/
def State.drainChans (s : State) (i : Nat) : PacketEffect :=
  (s.instChans i).foldl (fun r c =>
    if r.2.chState c = chPausing then
      let w := r.2.dmaDrain c
      (r.1 ++ w.1, w.2.dmaStop c)
    else r) ([], s)

/-- R302: contexts that are HUNG wedge the instance, and their slots are not used again. -/
def State.wedge (s : State) (i : Nat) : State :=
  let l := s.ctxsOf i
  if l.isEmpty then s
  else
    let s := { s with vir := { s.vir with wedged := l.foldl NSet.insert s.vir.wedged } }
    ((s.fset F.VIR_INST_STATE.wedged 1 i).fset F.INST_STATUS.wedged 1 i).raise 270

/-- FLR_DONE (R301, R302). -/
def State.flrDone (s : State) (i : Nat) : PacketEffect :=
  if s.instState i = instResetting ∧ s.ctxsGone i then
    let r := s.drainChans i
    (r.1, ((r.2.wedge i).setInst i instActive).showPool.raise 269)
  else noStore s

/-- DESTROY_DONE (R303): the resources go back to the pool; a wedged slot stays out of it. -/
def State.destroyDone (s : State) (i : Nat) : PacketEffect :=
  if s.instState i = instDestroying ∧ s.ctxsGone i then
    let r := s.drainChans i
    let s := r.2.wedge i
    let s := forEach (s.ctxsOf i) (fun c s => s.fset F.CTX_CFG.owner noOwner c) s
    let s := (s.put .VIR_INST_SAVE_SIZE 0 i).setShape i none
    let s := (s.fset F.INST_STATUS.vectors 0 i).setInst i instNone
    (r.1, (s.countCues i).showPool)
  else noStore s

end Sys2Proof.Machine
end

