-- ==== Sys2Proof/Machine/VirSave.lean ====
section
/-! DEFINITION. The container of an instance (R299, R300): what a save collects and how a restore loads it. -/

namespace Sys2Proof.Machine

/-! ### What a save collects -/

/-- The registers of a context that its QUEUE section keeps. -/
def queueRegs : List Reg :=
  [.CTX_CFG, .CTX_SLICE, .CTX_RING_LO, .CTX_RING_HI, .CTX_RING_SIZE, .CTX_HEAD, .CTX_TAIL, .CTX_SAVE_LO, .CTX_SAVE_HI,
   .CTX_STATE]

/-- The registers of a channel that its DMA section keeps. -/
def chanRegs : List Reg :=
  [.CH_BASE_LO, .CH_BASE_HI, .CH_CQ_LO, .CH_CQ_HI, .CH_CQ_HEAD, .CH_STATUS, .CH_VEC, .CH_CFG, .CH_TRIG, .CH_CUR_LO, .CH_CUR_HI,
   .CH_DONE_BYTES, .CH_MISSED_COUNT]

/-- The words of registers at one index. -/
def State.regWords (s : State) (l : List Reg) (i : Nat) : List W32 := l.map (fun r => s.get r i)

/-- Load registers at one index. -/
def State.putWords (s : State) (l : List Reg) (w : List W32) (i : Nat) : State :=
  (l.zip w).foldl (fun s e => s.put e.1 e.2 i) s

/-- The kind of a layer: cursor, graphic, video. -/
def layerKind (n : Nat) : Nat := if isCursor n then 0 else if isVideo n then 2 else 1

/-- What two granted layers must share (R300). -/
def State.layerTraits (s : State) (n : Nat) : List Nat :=
  [layerKind n, s.recipe.layerMaxW n, s.recipe.layerMaxH n, s.recipe.layerFormats n, s.recipe.layerAxis n]

/-- Bytes as words, low byte first. -/
def toWords (b : List Byte) : List W32 := (List.range (b.length / 4)).map (fun j => BitVec.ofNat 32 (u32 b (4 * j)))

/-- Words as bytes. -/
def fromWords (w : List W32) : List Byte := w.flatMap (fun x => leBytes 4 x.toNat)

/-- A channel: registers, its place in the run, and the descriptor in progress. -/
def State.chanWords (s : State) (c : Nat) : List W32 :=
  let x := s.chan c
  s.regWords chanRegs c ++ [BitVec.ofNat 32 x.taken, BitVec.ofNat 32 (x.unfinished.toNat + 2 * x.readable.toNat)] ++ toWords x.desc

/-- The unstaged cues of an instance. -/
def State.unstaged (s : State) (i : Nat) : List CueEntry :=
  (s.cue.slots.filter (fun c => c.2.entry.owner.toNat == i && !c.2.staged)).map (·.2.entry)

/-- R299: the content of a container. -/
def State.collect (s : State) (i : Nat) (h : Shape) : Config.Saved :=
  { queues := h.queues, vectors := h.vectors, contexts := h.contexts, cueQuota := h.cueQuota, dmaCount := h.dmaCount,
    dramSize := h.dramSize, kinds := h.layers.map s.layerTraits,
    msix := (List.range 32).map (fun v => [s.get .INST_MSIX_ADDR_LO i v, s.get .INST_MSIX_ADDR_HI i v,
      s.get .INST_MSIX_DATA i v, s.get .INST_MSIX_CTRL i v]),
    pending := s.get .INST_PBA i, completion := (List.range 16).map (fun q => s.get64 .QCOMP_LO .QCOMP_HI i q),
    toManager := (List.range 512).map (fun k => s.get .INST_MB_TX i k),
    toGuest := (List.range 512).map (fun k => s.get .INST_MB_RX i k),
    flags := [s.flag F.INST_MB_TX_STATUS.tx_busy i, s.flag F.VIR_MB_STATUS.tx_busy i],
    root := s.get64 .TT_ROOT_LO .TT_ROOT_HI i, vecs := [s.fget F.TFAULT_VEC.vector i, s.fget F.MBOX_RX_VEC.vector i],
    open_ := (s.ctxsOf i).map (s.regWords queueRegs), cues := (s.unstaged i).map CueEntry.words,
    layers := h.layers.map (fun n => (s.layer n).live),
    frames := h.layers.map (fun n => (s.layer n).current.map (fun f => (f.tag, f.addr, f.da))),
    chans := (s.instChans i).map s.chanWords }

/-- The header of a container, with a CRC field (R299). -/
def State.containerHeader (s : State) (i size crc : Nat) : List Byte :=
  [0x44, 0x56, 0x49, 0x53] ++ leBytes 2 1 ++ leBytes 1 s.fuses.stepping ++ leBytes 1 0 ++ leBytes 4 size ++ leBytes 4 crc
    ++ leBytes 8 s.tim.st.toNat ++ leBytes 2 (s.fget F.FAB_STATUS.star) ++ leBytes 1 i ++ leBytes 37 0

/-- R299: the whole container. -/
def State.containerOf (s : State) (i : Nat) (h : Shape) : List Byte :=
  let body := fitBytes (saveSize h - 64) (Config.encodeSaved s.fuses.stepping (s.collect i h))
  s.containerHeader i (saveSize h) (crc32 (s.containerHeader i (saveSize h) 0 ++ body)) ++ body

/-- R299: the unstaged cues go, and every queued frame but the current one is released. -/
def State.saveDrop (s : State) (i : Nat) : State :=
  let left := s.cue.slots.filter (fun c => c.2.entry.owner.toNat != i || c.2.staged)
  let s := { s with cue := { s.cue with slots := left } }
  (forEach (s.instLayers i) (fun n s => s.flushLayer n) s).countCues i

/-! ### The checks of a restore (R300) -/

/-- The preconditions: no open context, no cue, no queued frame. -/
def State.restoreReady (s : State) (i : Nat) : Bool :=
  (s.ctxsOf i).isEmpty && s.cuesOf i == 0 && (s.instLayers i).all (fun n => (s.layer n).queue.isEmpty)

/-- Magic, size and CRC of the container in a buffer of n bytes. -/
def containerSound (b : List Byte) (n : Nat) : Bool :=
  let size := u32 b 8
  slice b 0 4 == [0x44, 0x56, 0x49, 0x53] && decide (4928 ≤ size) && decide (size ≤ n) && decide (size ≤ b.length)
    && crc32 (slice b 0 12 ++ leBytes 4 0 ++ slice b 16 (size - 16)) == u32 b 12

/-- The steppings on which a container may be restored. -/
def steppingFits (src dst : Nat) : Bool := (src == 0 && dst == 0) || (src == 1 && (dst == 1 || dst == 2)) || (src == 2 && dst == 2)

/-- What a container holds. -/
def containerContent (b : List Byte) : Config.Saved := Config.decodeSaved (u8 b 6) (slice b 64 (u32 b 8 - 64))

/-- R300: the shape of the slot equals that of the container. -/
def State.shapeEquals (s : State) (i : Nat) (x : Config.Saved) : Bool :=
  match s.shape i with
  | none => false
  | some h => h.queues == x.queues && h.vectors == x.vectors && h.contexts == x.contexts && h.cueQuota == x.cueQuota
      && h.dmaCount == x.dmaCount && h.dramSize == x.dramSize && h.layers.map s.layerTraits == x.kinds

/-- R300: the first failure; 0 none. -/
def State.restoreError (s : State) (i : Nat) (b : List Byte) : Nat :=
  if !s.restoreReady i then errState
  else if !containerSound b (s.fget F.VIR_INST_BUF_LEN.len i) then errCrc
  else if u16 b 4 ≠ 1 ∨ !steppingFits (u8 b 6) s.fuses.stepping then errVersion
  else if !s.shapeEquals i (containerContent b) then errShape
  else 0

/-! ### Loading (R300) -/

/-- The pages. -/
def State.loadPages (s : State) (i : Nat) (x : Config.Saved) : State :=
  let s := x.msix.zipIdx.foldl (fun s e =>
    (((s.put .INST_MSIX_ADDR_LO (wordAt e.1 0) i e.2).put .INST_MSIX_ADDR_HI (wordAt e.1 1) i e.2).put .INST_MSIX_DATA
      (wordAt e.1 2) i e.2).put .INST_MSIX_CTRL (wordAt e.1 3) i e.2) s
  let s := s.put .INST_PBA x.pending i
  let s := x.completion.zipIdx.foldl (fun s e => s.put64 .QCOMP_LO .QCOMP_HI e.1 i e.2) s
  let s := x.toManager.zipIdx.foldl (fun s e => (s.put .INST_MB_TX e.1 i e.2).put .VIR_MB_RX e.1 i e.2) s
  let s := x.toGuest.zipIdx.foldl (fun s e => s.put .INST_MB_RX e.1 i e.2) s
  let up := x.flags.getD 0 false
  let down := x.flags.getD 1 false
  let s := ((s.fflag F.INST_MB_TX_STATUS.tx_busy up i).fflag F.VIR_MB_STATUS.rx_valid up i).bitTo .VIR_MB_PENDING (i % 32) up 0
    (i / 32)
  let s := (s.fflag F.VIR_MB_STATUS.tx_busy down i).fflag F.INST_MB_RX_STATUS.rx_valid down i
  let s := s.put64 .TT_ROOT_LO .TT_ROOT_HI x.root i
  (s.fset F.TFAULT_VEC.vector (x.vecs.getD 0 255) i).fset F.MBOX_RX_VEC.vector (x.vecs.getD 1 255) i

/-- One context: allocated, loaded and frozen. What its registers do not hold is in its save area. -/
def State.loadContext (s : State) (i : Nat) (w : List W32) : State :=
  match s.freeSlot with
  | none => s
  | some c =>
    let s := (s.ctxOpen c i (F.CTX_CFG.queue.of (wordAt w 0))).putWords queueRegs w c
    let s := s.fset F.CTX_CFG.owner i c
    let r := s.engineRead .gfx i ((s.get64 .CTX_SAVE_LO .CTX_SAVE_HI c).toNat % 2 ^ 48 / 65536 * 65536) 65536
    let x := Config.decodeContext r.bytes
    let y : CtxState :=
      { CtxState.initial with
        consts := x.consts, bindings := x.bindings, pipe := x.pipe, calls := x.calls, callAt := x.callAt,
        pass := x.pass.map (fun p => { p with chunks := 0 }) }
    ((r.s.setCtx c y).fflag F.CTX_STATE.saved y.pass.isSome c).setCtxState c ctxFrozen

/-- One channel, in the paused state. -/
def State.loadChan (s : State) (c : Nat) (w : List W32) : State :=
  let s := (s.putWords chanRegs w c).fset F.CH_STATUS.state chPaused c
  let n := chanRegs.length
  let x : ChanState :=
    { taken := (wordAt w n).toNat, unfinished := (wordAt w (n + 1)).getLsbD 0, crcWait := false,
      desc := fromWords (w.drop (n + 2)), readable := (wordAt w (n + 1)).getLsbD 1 }
  s.setChan c ({ x with crcWait := descFeeds (s.chRing c) x } : ChanState)

/-- The words of a layer's window, in the order of its register set (R187). -/
def State.putShadow (s : State) (n : Nat) (w : List W32) : State :=
  let s := ((((s.put .LAYER_CTRL (wordAt w 0) n).put .LAYER_FMT (wordAt w 1) n).put .LAYER_SRC_SIZE (wordAt w 2) n).put .LAYER_CROP
    (wordAt w 3) n).put .LAYER_DST_POS (wordAt w 4) n
  let s := ((s.put .LAYER_DST_SIZE (wordAt w 5) n).put .LAYER_PITCH (wordAt w 6) n 0).put .LAYER_PITCH (wordAt w 7) n 1
  let s := ((s.put .LAYER_PLANE_OFF (wordAt w 8) n 0).put .LAYER_PLANE_OFF (wordAt w 9) n 1).put .LAYER_META_OFF (wordAt w 10) n
  let s := (List.range 4).foldl (fun s k =>
    (s.put .LAYER_OPQ_POS (wordAt w (11 + 2 * k)) n k).put .LAYER_OPQ_SIZE (wordAt w (12 + 2 * k)) n k) s
  (List.range 3).foldl (fun s k => s.put .WARP_K (wordAt w (19 + k)) n k) s

/-- A layer's registers. -/
def State.loadLayer (s : State) (n : Nat) (w : List W32) : State :=
  (s.putShadow n w).setLayer n { s.layer n with live := w, pending := none, hidden := false }

/-- A current frame is submitted again with nb = 0, unless its da has passed. -/
def State.loadFrame (s : State) (i n : Nat) (f : BitVec 16 × BitVec 64 × ST) : State :=
  if s.stValid ∧ f.2.2 ≠ 0 ∧ notLater f.2.2 s.tim.st then s.bump F.VIR_INST_RESTORE_INFO.frames_dropped i
  else s.submit n { tag := f.1, addr := f.2.1, nb := 0, da := f.2.2, changed := true, ref := none, flipped := false }

/-- A saved cue is armed again through the instance's window, or dropped and counted. -/
def State.loadCue (s : State) (i : Nat) (w : List W32) : State :=
  let r := s.arm i (CueEntry.ofWords w)
  if r.1 = 0 then r.2.2 else s.bump F.VIR_INST_RESTORE_INFO.cues_dropped i

/-- R300: the steps of a restore. -/
def State.loadSaved (s : State) (i : Nat) (x : Config.Saved) : State :=
  let s := s.loadPages i x
  let s := forEach x.open_ (fun w s => s.loadContext i w) s
  let s := forEach ((s.instChans i).zip x.chans) (fun e s => s.loadChan e.1 e.2) s
  let s := forEach ((s.instLayers i).zip x.layers) (fun e s => s.loadLayer e.1 e.2) s
  let s := s.put .VIR_INST_RESTORE_INFO 0 i
  let s := forEach ((s.instLayers i).zip x.frames) (fun e s =>
    match e.2 with
    | some f => s.loadFrame i e.1 f
    | none => s) s
  forEach x.cues (fun w s => s.loadCue i w) s

end Sys2Proof.Machine
end

