-- ==== Sys2Proof/Machine/VirCmd.lean ====
section
/-! DEFINITION. The commands of virtual instances (13_instances.md). -/

namespace Sys2Proof.Machine

/-! ### Ports (R284, R285) -/

/-- VF_ENABLE (R285): while `total_vfs` is 0, and on a port that the recipe does not enable (R284), it has no effect; set, it locks the port's VIR_PORT_CFG. -/
def State.vfEnableOp (s : State) (p : Nat) (set : Bool) : State :=
  if set then
    if s.fget F.VIR_PORT_CFG.total_vfs p = 0 ∨ s.recipe.hostPorts ≤ p then s
    else ({ s with vir := { s.vir with vfEnable := NSet.insert s.vir.vfEnable p } }).fset F.VIR_PORT_CFG.locked 1 p
  else ({ s with vir := { s.vir with vfEnable := NSet.erase s.vir.vfEnable p } }).fset F.VIR_PORT_CFG.locked 0 p

/-- VF_ENABLE (R285). -/
def execVfEnable (p : Fin 4) (set : Bool) (s : State) : Host.Outcome State Fault Refusal :=
  done (fun s => s.whenUp (fun s => s.vfEnableOp p set)) s

/-- VIR_PORT_CFG (R285). -/
def execVirPortCfg (a : Agent) (p : Fin 4) (value : W32) (s : State) : Host.Outcome State Fault Refusal :=
  done (fun s => s.byManager a s.awake (fun s => s.portCfg p value)) s

/-- TRANSLATED_REQUEST (R284): a Translated request and an ATS Translation Request alike are an Unsupported Request. -/
def execTranslatedRequest (p : Fin 4) (_translated : Bool) (s : State) : Host.Outcome State Fault Refusal :=
  done (fun s => if s.up && decide (p.val < s.recipe.hostPorts) then s.emit (.unsupported p) else s) s

/-! ### Controls of an instance (R286, R292, R298 to R303) -/

/-- CREATE (R292). -/
def execCreate (a : Agent) (i : Fin 64) (s : State) : Host.Outcome State Fault Refusal :=
  done (fun s => s.byManager a s.awake (fun s => s.create i)) s

/-- R286: a control acts in the states that the table allows, and records ERR_VIR_STATE otherwise. One that acts clears the error
(log entry 62). -/
def State.control (s : State) (i : Nat) (allowed : List Nat) (f : State → PacketEffect) : PacketEffect :=
  if allowed.contains (s.instState i) then f (s.instErr i 0) else noStore (s.instErr i errState)

/-- A control in the instance's block. -/
def State.managed (s : State) (a : Agent) (f : State → PacketEffect) : PacketEffect :=
  if a = .manager ∧ s.awake then f s else noStore (s.emit (.busError a))

/-- R298: every engine quiesces the instance at its next boundary. -/
def State.freezeInst (s : State) (i : Nat) : PacketEffect :=
  let s := s.setInst i instFreezing
  let r := chain ((s.ctxsOf i).map (fun c s => s.ctxFreezeOp c)) s
  (r.1, (forEach (s.instChans i) (fun c s => s.dmaPause c) r.2).frozenCheck i)

/-- INSTANCE_FREEZE (R298). -/
def execInstFreeze (a : Agent) (i : Fin 64) (s : State) : Host.Outcome State Fault Refusal :=
  packetEnd (fun s => s.managed a (fun s => s.control i [instActive] (fun s => s.freezeInst i))) s

/-- R286: a FROZEN instance is ACTIVE again, its contexts and channels go on. -/
def State.resumeInst (s : State) (i : Nat) : State :=
  let s := s.setInst i instActive
  let s := forEach (s.ctxsOf i) (fun c s => s.ctxResumeOp c) s
  forEach (s.instChans i) (fun c s => s.dmaResume c) s

/-- INSTANCE_RESUME (R286). -/
def execInstResume (a : Agent) (i : Fin 64) (s : State) : Host.Outcome State Fault Refusal :=
  packetEnd (fun s => s.managed a (fun s => s.control i [instFrozen] (fun s => noStore (s.resumeInst i)))) s

/-- R299: a save of an instance. The buffer address has no bits below 64. -/
def State.saveInst (s : State) (i : Nat) : State :=
  match s.shape i with
  | none => s.instErr i errState
  | some h =>
    if s.fget F.VIR_INST_BUF_LEN.len i < saveSize h then s.instErr i errArg
    else
      let b := s.containerOf i h
      (({ s with vir := { s.vir with container := Tbl.set [] s.vir.container i b } }).setInst i instSaving).saveDrop i

/-- SAVE (R299). -/
def execSave (a : Agent) (i : Fin 64) (s : State) : Host.Outcome State Fault Refusal :=
  packetEnd (fun s => s.managed a (fun s => s.control i [instFrozen] (fun s => noStore (s.saveInst i)))) s

/-- SAVE_DONE (R299): the container has left through host port 0. -/
def State.saveDone (s : State) (i : Nat) : State :=
  if s.instState i = instSaving ∧ s.awake then
    let addr := (s.get64 .VIR_INST_BUF_LO .VIR_INST_BUF_HI i).toNat / 64 * 64
    let s := s.emit (.hostWrite 0 addr (Tbl.get [] s.vir.container i))
    let s := { s with vir := { s.vir with container := Tbl.set [] s.vir.container i [] } }
    (s.setInst i instFrozen).raise 267
  else s

/-- SAVE_DONE (R299). -/
def execSaveDone (i : Fin 64) (s : State) : Host.Outcome State Fault Refusal := done (fun s => s.saveDone i) s

/-- R300: a restore is checked, and refused in ACTIVE or under way. -/
def State.restoreInst (s : State) (i : Nat) (b : List Byte) : State :=
  let err := s.restoreError i b
  if err = 0 then
    ({ s with vir := { s.vir with container := Tbl.set [] s.vir.container i b } }).setInst i instRestoring
  else (s.instErr i err).raise 272

/-- RESTORE (R300): the operand is what the buffer holds. -/
def execRestore (a : Agent) (i : Fin 64) (container : List Byte) (s : State) : Host.Outcome State Fault Refusal :=
  packetEnd (fun s => s.managed a (fun s => s.control i [instActive] (fun s => noStore (s.restoreInst i container)))) s

/-- RESTORE_DONE (R300). -/
def State.restoreDone (s : State) (i : Nat) : State :=
  if s.instState i = instRestoring ∧ s.awake then
    let s := s.loadSaved i (containerContent (Tbl.get [] s.vir.container i))
    let s := { s with vir := { s.vir with container := Tbl.set [] s.vir.container i [] } }
    (s.setInst i instFrozen).raise 268
  else s

/-- RESTORE_DONE (R300). -/
def execRestoreDone (i : Fin 64) (s : State) : Host.Outcome State Fault Refusal := done (fun s => s.restoreDone i) s

/-- DESTROY (R303). -/
def execDestroy (a : Agent) (i : Fin 64) (s : State) : Host.Outcome State Fault Refusal :=
  packetEnd (fun s => s.managed a (fun s => s.control i [instActive, instFreezing, instFrozen]
    (fun s => noStore ((s.setInst i instDestroying).resetSteps i)))) s

/-- DESTROY_DONE (R303). -/
def execDestroyDone (i : Fin 64) (s : State) : Host.Outcome State Fault Refusal := packetEnd (fun s => s.destroyDone i) s

/-- FLR (R301). -/
def execFlr (i : Fin 64) (s : State) : Host.Outcome State Fault Refusal :=
  done (fun s => s.whenUp (fun s => s.flrStart i)) s

/-- FLR_DONE (R301, R302). -/
def execFlrDone (i : Fin 64) (s : State) : Host.Outcome State Fault Refusal := packetEnd (fun s => s.flrDone i) s

/-! ### Mailboxes (R289) -/

/-- Page 2 takes writes in NONE, so that the guest can ask for creation (R287), and in ACTIVE (R298, R301). -/
def State.pageTwoOpen (s : State) (i : Nat) : Bool := i != 0 && (s.instState i == instNone || s.instState i == instActive)

/-- An access of a guest to its BAR0. -/
def State.byGuest (s : State) (i : Fin 64) (f : State → State) : State := if s.awake then f s else s.emit (.busError (.guest i))

/-- GUEST_MAILBOX_GO (R289). -/
def State.guestGo (s : State) (i : Nat) : State :=
  if s.pageTwoOpen i && !s.flag F.INST_MB_TX_STATUS.tx_busy i then
    let s := (s.fset F.INST_MB_TX_STATUS.tx_busy 1 i).copyWords .INST_MB_TX i .VIR_MB_RX i
    ((s.fset F.VIR_MB_STATUS.rx_valid 1 i).setBit .VIR_MB_PENDING (i % 32) 0 (i / 32)).raise 264
  else s

/-- GUEST_MAILBOX_GO (R289). -/
def execGuestMailboxGo (i : Fin 64) (s : State) : Host.Outcome State Fault Refusal :=
  done (fun s => s.byGuest i (fun s => s.guestGo i)) s

/-- VIR_MB_RX_POP (R289). -/
def State.managerPop (s : State) (i : Nat) : State :=
  if s.flag F.VIR_MB_STATUS.rx_valid i then
    ((s.fset F.VIR_MB_STATUS.rx_valid 0 i).clearBit .VIR_MB_PENDING (i % 32) 0 (i / 32)).fset F.INST_MB_TX_STATUS.tx_busy 0 i
  else s

/-- VIR_MB_RX_POP (R289). -/
def execVirMbRxPop (a : Agent) (i : Fin 64) (s : State) : Host.Outcome State Fault Refusal :=
  done (fun s => s.byManager a s.awake (fun s => s.managerPop i)) s

/-- VIR_MB_TX_GO (R289). -/
def State.managerGo (s : State) (i : Nat) : State :=
  if s.flag F.VIR_MB_STATUS.tx_busy i then s
  else
    let s := (s.fset F.VIR_MB_STATUS.tx_busy 1 i).copyWords .VIR_MB_TX i .INST_MB_RX i
    (s.fset F.INST_MB_RX_STATUS.rx_valid 1 i).msixGuest i (s.fget F.MBOX_RX_VEC.vector i)

/-- VIR_MB_TX_GO (R289). -/
def execVirMbTxGo (a : Agent) (i : Fin 64) (s : State) : Host.Outcome State Fault Refusal :=
  done (fun s => s.byManager a s.awake (fun s => s.managerGo i)) s

/-- GUEST_MAILBOX_POP (R304): page 3. -/
def State.guestPop (s : State) (i : Nat) : State :=
  if s.pageOneOpen i && s.flag F.INST_MB_RX_STATUS.rx_valid i then
    ((s.fset F.INST_MB_RX_STATUS.rx_valid 0 i).fset F.VIR_MB_STATUS.tx_busy 0 i).raise 265
  else s

/-- GUEST_MAILBOX_POP (R289, R304). -/
def execGuestMailboxPop (i : Fin 64) (s : State) : Host.Outcome State Fault Refusal :=
  done (fun s => s.byGuest i (fun s => s.guestPop i)) s

/-! ### Invalidation (R293, R297) -/

/-- An access of an instance, internal ones included, to its page 1. -/
def State.byInstance (s : State) (i : Nat) (f : State → State) : State := if s.awake then f s else s.emit (.busError (agentOf i))

/-- The first page that INV_ADDR names. -/
def State.invPage (s : State) (i : Nat) : Nat := (s.get64 .INV_ADDR_LO .INV_ADDR_HI i).toNat % 2 ^ 48 / 4096

/-- INVALIDATION (R297): `go`, which a busy invalidation ignores. -/
def State.invGo (s : State) (i : Nat) : State :=
  if s.pagesOpen i && !s.flag F.INV_STATUS.busy i then s.setInv i (some (s.invPage i, s.fget F.INV_PAGES.pages i)) else s

/-- INVALIDATION (R297). -/
def execInvalidation (i : Fin 72) (s : State) : Host.Outcome State Fault Refusal :=
  done (fun s => s.byInstance i (fun s => s.invGo i)) s

/-- TT_ROOT_WRITE (R293, R297): the root, and an invalidation of everything. -/
def State.rootWrite (s : State) (i : Nat) (high : Bool) (v : W32) : State :=
  if s.pageOneOpen i then
    (if high then s.put .TT_ROOT_HI (v &&& 0xF#32) i else s.put .TT_ROOT_LO (v &&& 0xFFFFF001#32) i).setInv i (some (0, 0))
  else s

/-- TT_ROOT_WRITE (R297). -/
def execTtRootWrite (i : Fin 72) (high : Bool) (value : W32) (s : State) : Host.Outcome State Fault Refusal :=
  done (fun s => s.byInstance i (fun s => s.rootWrite i high value)) s

/-- INVALIDATION_DONE (R297). -/
def State.invDone (s : State) (i : Nat) : State :=
  match Tbl.get none s.vir.inv i with
  | some r => (s.dropTlb i r).setInv i none
  | none => s

/-- INVALIDATION_DONE (R297). -/
def execInvalidationDone (i : Fin 72) (s : State) : Host.Outcome State Fault Refusal :=
  done (fun s => s.whenUp (fun s => s.invDone i)) s

end Sys2Proof.Machine
end

