-- ==== Sys2Proof/Machine/ResetOps.lean ====
section
/-! DEFINITION. Resets (R53 to R59, R71, R78, R81): what an island reset and a main-domain reset leave, the causes, and the release
of the main domain. -/

namespace Sys2Proof.Machine

/-! ### Causes (R53, R56, R71) -/

/-- A source of a main-domain reset is recorded; one that arrives in Night or Eclipse also sets `wake`. -/
def State.resetCause (s : State) (f : Fld) : State :=
  onlyIf (decide (3 ≤ s.pwr.state)) (fun s => s.fset F.SYS_RESET_CAUSE.wake 1) (s.fset f 1)

/-! ### What stops at a reset -/

/-- Haptic drive and audio end at the pins (R337, R373). -/
def State.quietPins (s : State) : State :=
  let s := if s.aud.running then s.audEnd else s
  forEach ((List.range 16).filter (fun n => bit s.recipe.hapMask n == 1)) (fun n s => s.emit (.haptic n 0 0 false false)) s

/-- R78: mailbox messages in flight are discarded, and the island hears no MAIN_ALIVE. -/
def State.dropMailbox (s : State) : State :=
  { s with isl := { s.isl with rx := [], waits := [], mail := [], alive := false } }

/-- R51: a load in progress is abandoned; the island keeps what it knows of signed recipes (R49, R232). -/
def State.dropLoad (s : State) : State :=
  { s with
    rcp :=
      { s.rcp with
        phase := .idle, image := [], loading := Recipe.empty, admitted := none, tartalFw := none, limited := false } }

/-- R81, R88, R91: with ST valid TIME goes to HOLDOVER, and its rate stays at the last estimate. -/
def State.holdTime (s : State) : State :=
  if s.stValid && s.timeState != timeHoldover then s.toHoldover else s

/-- R71: in Night and Eclipse the reset starts the exit; in every other state the device is in Day again. -/
def PowerState.atReset (p : PowerState) : PowerState :=
  if 3 ≤ p.state then { PowerState.initial with state := p.state, exiting := true } else PowerState.initial

/-- The blocks of the main domain, and memory, after their reset; registers of the main domain at their reset values (R11). -/
def State.dropMain (s : State) : State :=
  { s.dropRegs (fun r => r.reg.info.dom == .main) with
    ram := [], pwr := s.pwr.atReset, axes := [], shadows := [], cue := CueState.initial, fab := FabState.initial
    gfx := GfxState.initial, cmp := CmpState.initial, mem := MemState.initial, cpx := CpxState.initial
    vir := VirState.initial, dma := DmaState.initial, crc := CrcState.initial, tch := [], latches := [], hap := []
    sio := { SioState.initial with driven := s.sio.driven }
    aud := { AudState.initial with stopped := s.aud.stopped }, evt := EvtState.initial
    dom := { s.dom with mainUp := false, bridgeOpen := false, tartalChecked := false, trained := false } }

/-- R81, R88, R100: with ST valid TIME_STATUS is held over a main-domain reset, with the HOLDOVER entered by it. -/
def State.keepTime (s : State) (valid : Bool) (status : W32) : State :=
  if valid then
    { s.put .TIME_STATUS status with tim := { s.tim with resetPending := true, changePending := false, goodCount := 0 } }
  else s

/-- R12, R53: the reset of the main domain. Island and output tails stay as they are; links that slept in Twilight come up. -/
def State.mainDown (s : State) : State :=
  let valid := s.stValid
  let s := s.quietPins.holdTime
  let s := if s.pwr.state = 2 then s.outsDay else s
  ((s.dropMailbox.dropLoad.dropMain).keepTime valid (s.get .TIME_STATUS)).refreshIsl

/-- R56: overlapping sources make one reset. -/
def State.mainReset (s : State) : State := if s.dom.mainUp then s.mainDown else s

/-! ### Island reset (R54) -/

/-- R54: the whole device held. What the world drives into it stays: SYS_RESETn, PERST#, supplies, GPIO levels, bit clocks. -/
def State.islandDown (s : State) : State :=
  let s := s.quietPins
  { State.reset with
    fuses := s.fuses, sent := s.sent, draws := s.draws, pending := s.pending
    dom := { Domains.initial with
      resetnLow := s.dom.resetnLow, perst := s.dom.perst, suppliesOut := s.dom.suppliesOut, coreLost := s.dom.coreLost }
    sio := { SioState.initial with driven := s.sio.driven }
    aud := { AudState.initial with stopped := s.aud.stopped } }

/-- R61 step 1: the island starts in ROM; SYS_RESETn is sampled from now on (R55). -/
def State.islandStart (s : State) (ddrSel : BitVec 3) : State :=
  { s with dom := { s.dom with porn := true, island := .booting, ddrSel := ddrSel, filterArmed := s.dom.resetnLow } }

/-- The words of the public identity key: 65 bytes in 17 words (R123). -/
def State.showIdentity (s : State) : State :=
  forEach (List.range 17) (fun k s => s.put .ISL_ID_KEY (BitVec.ofNat 32 (u32 Config.identityKey (4 * k))) 0 k) s

/-- R60: a firmware image stands where it should, has at most its largest size, and is signed with the Paltil firmware key. -/
def firmwareChecks (fw : FwImage) (offset largest : Nat) : Bool :=
  fw.offset == offset && decide (fw.bytes.length ≤ largest) && Config.sha384 fw.key == Config.paltilKeyHash &&
    Config.ecdsaP384 fw.key fw.sig fw.bytes

/-- R60: the check of the island firmware. -/
def islandImageOk (fw : FwImage) : Bool := firmwareChecks fw 0 0x100000

/-- R60: the check of Tartal. -/
def tartalImageOk (fw : FwImage) : Bool := firmwareChecks fw 0x400000 0xC00000

/-- R61 step 2, R62: the island firmware has been checked. The 8 s count of a low SYS_RESETn starts now (R58). -/
def State.islandChecked (s : State) (fw : FwImage) : State :=
  let s := s.fflag F.SYS_BOOT_STATUS.honour_hold s.fuses.honourHold
  if islandImageOk fw then
    let s := { s with
      dom := { s.dom with island := .running, stuckArmed := s.dom.resetnLow && !s.fuses.honourHold }
      isl := { s.isl with firmware := true }
      rcp := { s.rcp with islandFw := some fw } }
    let s := (s.fset F.SYS_BOOT_STATUS.island_ok 1).fset F.ISL_STATUS.standby_ok 1
    s.showIdentity.refreshIsl
  else
    ({ s with dom := { s.dom with island := .inRom } }.fset F.SYS_BOOT_STATUS.island_ok 0).refreshIsl

/-! ### SYS_RESETn (R55, R58, R59) -/

/-- The pin goes low. In the ignore period nothing follows but that the release timer stops. -/
def State.resetnFall (s : State) : State :=
  let d := { s.dom with resetnLow := true }
  if s.dom.ignoring then { s with dom := { d with releaseArmed := false } }
  else if s.dom.island = .inReset then { s with dom := d }
  else { s with dom := { d with
    filterArmed := true
    stuckArmed := s.dom.island == .running && decide (s.pwr.state < 3) && !s.fuses.honourHold } }

/-- The pin has been low for 10 µs. -/
def State.resetnFiltered (s : State) : State :=
  if s.dom.filterArmed && s.dom.resetnLow then
    ({ s with dom := { s.dom with filterArmed := false, pinHold := true } }.resetCause F.SYS_RESET_CAUSE.pin).mainReset
  else s

/-- The pin goes high. -/
def State.resetnRise (s : State) : State :=
  { s with dom := { s.dom with
    resetnLow := false, filterArmed := false, stuckArmed := false, pinHold := false, releaseArmed := s.dom.ignoring } }

/-- R58: the pin has been low for 8 s; its hold ends and it is ignored. -/
def State.resetnStuck (s : State) : State :=
  if s.dom.stuckArmed && s.dom.resetnLow && !s.dom.filterArmed then
    { s with dom := { s.dom with stuckArmed := false, pinHold := false, ignoring := true, stuckEvent := true } }.fset
      F.SYS_RESET_CAUSE.stuck 1
  else s

/-- R58 step 3: the pin has been high for 100 ms. -/
def State.resetnHonour (s : State) : State :=
  if s.dom.releaseArmed && !s.dom.resetnLow then
    { s with dom := { s.dom with releaseArmed := false, ignoring := false } }
  else s

/-! ### PERST# (R53) -/

/-- R53: PERST# of host port 1 to 3 resets that port's controller and its instances (R286). -/
def State.portReset (s : State) (p : Nat) : State :=
  let r := s.portRange p
  let l := (List.range r.2).map (r.1 + ·)
  let s := { s with vir := { s.vir with
    vfEnable := NSet.erase s.vir.vfEnable p, linkDown := NSet.insert s.vir.linkDown p } }
  forEach l (fun i s => (s.msixClear i).flrStart i) (s.fset F.VIR_PORT_CFG.locked 0 p)

/-- PERST# goes low. -/
def State.perstLow (s : State) (p : Nat) : State :=
  let s := { s with dom := { s.dom with perst := NSet.insert s.dom.perst p } }
  if s.dom.island = .inReset then s
  else if p = 0 then (s.resetCause F.SYS_RESET_CAUSE.perst).mainReset
  else s.whenUp (fun s => s.portReset p)

/-- PERST# goes high. The links of ports 1 to 3 that the recipe enables come up once it is admitted. -/
def State.perstHigh (s : State) (p : Nat) : State :=
  let s := { s with dom := { s.dom with perst := NSet.erase s.dom.perst p } }
  if p ≠ 0 ∧ s.admitted ∧ p < s.recipe.hostPorts then { s with vir := { s.vir with linkDown := NSet.erase s.vir.linkDown p } } else s

/-! ### Requests of software -/

/-- R53: `full` with its key. -/
def State.fullReset (s : State) (value : W32) : State :=
  if F.SYS_RESET_CTRL.full.of value = 1 ∧ F.SYS_RESET_CTRL.key.of value = 0xA5 then
    (s.resetCause F.SYS_RESET_CAUSE.soft).mainReset
  else s

/-- R51, R53: a loader request, then a full reset. -/
def State.toLoaderReset (s : State) : State :=
  (({ s with dom := { s.dom with loaderPending := true } }.resetCause F.SYS_RESET_CAUSE.soft).resetCause
    F.SYS_RESET_CAUSE.loader).mainReset

/-! ### Supplies and temperature (R390, R392) -/

/-- A main supply leaves its range. -/
def State.supplyLost (s : State) (x : Supply) : State :=
  let s := { s with dom := { s.dom with
    suppliesOut := if s.dom.suppliesOut.contains x then s.dom.suppliesOut else s.dom.suppliesOut ++ [x]
    coreLost := s.dom.coreLost || x == .vddCore } }
  if s.dom.island = .inReset then s else ((s.resetCause F.SYS_RESET_CAUSE.supply).mainReset).refreshIsl

/-- Every main supply is back in range. -/
def State.suppliesBack (s : State) : State :=
  { s with dom := { s.dom with suppliesOut := [], coreLost := false } }.refreshIsl

/-- The hottest of the readings and the first sensor that gives it. -/
def hottest : List Int → Nat → Int × Nat
  | [], i => (0, i)
  | [t], i => (t, i)
  | t :: u :: l, i =>
    let r := hottest (u :: l) (i + 1)
    if t < r.1 then r else (t, i)

/-- R392: a trip at 115 °C, released once every sensor reads 95 °C or less. -/
def State.sensorTrip (s : State) (temps : List Int) : State :=
  if temps.any (fun t => decide (115 ≤ t)) then
    let s := { s with dom := { s.dom with thermalTrip := true, thermTripn := false } }
    ((s.fset F.SYS_TEMP.trip 1).resetCause F.SYS_RESET_CAUSE.thermal).mainReset
  else if s.dom.thermalTrip && temps.all (fun t => decide (t ≤ 95)) then
    { s with dom := { s.dom with thermalTrip := false, thermTripn := true } }
  else s

/-- R392: the sensors are read. -/
def State.sensors (s : State) (temps : List Int) : State :=
  if s.dom.island = .inReset ∨ temps = [] then s
  else
    let h := hottest temps 0
    let s := (s.fset F.SYS_TEMP.tj (unsignedBits 9 h.1)).fset F.SYS_TEMP.sensor h.2
    (s.fflag F.SYS_TEMP.over (decide (105 < h.1))).sensorTrip temps

/-! ### Release (R56, R61 step 3) -/

/-- No source holds the main domain, and the island has booted. -/
def State.mayRelease (s : State) : Bool :=
  !s.dom.mainUp && (s.dom.island == .running || s.dom.island == .inRom) && (!s.dom.resetnLow || s.dom.ignoring)
    && !s.dom.perst.contains 0 && s.dom.suppliesOut.isEmpty && !s.dom.thermalTrip && s.pwr.state == 0

/-- The interface number of the island firmware; 0 in ROM (R62). -/
def State.islandIf (s : State) : Nat :=
  if s.dom.island = .running then ((s.rcp.islandFw).map (·.iface)).getD 0 else 0

/-- R48, R61 step 3: the main domain is released and the load begins. TIME resumes from the island time copy (R14); the links of
host ports 1 to 3 stay down until admission. -/
def State.releaseMain (s : State) (loaderReqn : Bool) : State :=
  let s := { s with
    dom := { s.dom with mainUp := true, bridgeOpen := true, toLoader := !loaderReqn || s.dom.loaderPending }
    tim := { s.tim with st := s.tim.islandCopy }
    vir := { s.vir with linkDown := [1, 2, 3] } }
  let s := forEach (List.range 24) (fun p s => s.fset F.MEM_PORT_STATUS.pool (tagPool p) p) s
  let s := if s.stValid then s.setAdjust s.tim.adjust else s
  (s.fset F.SYS_RCP_IFACE.island_if s.islandIf).refreshIsl

end Sys2Proof.Machine
end

