-- ==== Sys2Proof/Machine/LoadOps.lean ====
section
/-! DEFINITION. The boot steps after the release of the main domain and the load of a recipe (R38 to R50, R61 to R64, R247): Tartal,
boot training, the fetch, the signature, the verdict, and what admission writes. -/

namespace Sys2Proof.Machine

/-! ### The loader state and the end of a load (R47, R48) -/

/-- SYS_RCP_STATUS.state. -/
def rcpLoading : Nat := 0
/-- LOADER. -/
def rcpLoader : Nat := 1
/-- ADMITTED. -/
def rcpAdmitted : Nat := 2

/-- The state of the recipe load. -/
def State.rcpState (s : State) : Nat := s.fget F.SYS_RCP_STATUS.state

/-- R48: the loader state is entered, and the pending request is cleared. -/
def State.enterLoader (s : State) : State :=
  { s.fset F.SYS_RCP_STATUS.state rcpLoader with dom := { s.dom with loaderPending := false } }

/-- No load runs. -/
def State.loadIdle (s : State) : State :=
  { s.fset F.SYS_RCP_STATUS.busy 0 with rcp := { s.rcp with phase := .idle, image := [], loading := Recipe.empty } }

/-- R47, R48 step 6′: a load fails. -/
def State.loadFail (s : State) (verdict : Nat) (e : LoadError) : State :=
  let s := (s.loadIdle.fset F.SYS_RCP_STATUS.verdict verdict).fset F.SYS_RCP_STATUS.err e.code
  (s.put .SYS_RCP_ERR_DETAIL (BitVec.ofNat 32 (e.section_ % 256 + 256 * e.offset))).enterLoader.refreshIsl

/-! ### Tartal (R61 step 4, R62) -/

/-- R78: the island sends its status again once Tartal runs. -/
def State.resendStatus (s : State) : State := if s.islRuns then s.mailArrive 0 (mailBytes 5 0 0 s.statusBytes) else s

/-- R58 step 2: the stuck release is reported once Tartal runs. -/
def State.reportStuck (s : State) : State :=
  if s.dom.stuckEvent then { s with dom := { s.dom with stuckEvent := false } }.raise 0 else s

/-- R61 step 4, R62: Tartal has been checked. -/
def State.tartalChecked (s : State) (fw : FwImage) : State :=
  let s := { s with dom := { s.dom with tartalChecked := true } }
  if tartalImageOk fw then
    let s := { s with rcp := { s.rcp with tartalFw := some fw } }
    let s := (s.fset F.SYS_BOOT_STATUS.tartal_ok 1).fset F.SYS_RCP_IFACE.tartal_if fw.iface
    let s := s.reportStuck.resendStatus
    if s.dom.toLoader then s.enterLoader else s
  else ((s.fset F.SYS_BOOT_STATUS.tartal_ok 0).fset F.SYS_RCP_IFACE.tartal_if 0).enterLoader

/-! ### Boot training (R61 step 5, R246, R247, R257) -/

/-- R246: the DRAM type and the rate that the straps select; 0 where they are reserved. -/
def strapRate (sel : Nat) : Nat × Nat :=
  match sel with
  | 0 => (1, 8533)
  | 1 => (1, 7500)
  | 2 => (1, 6400)
  | 4 => (2, 6400)
  | 5 => (2, 5500)
  | 6 => (2, 4267)
  | _ => (0, 0)

/-- What training found on a channel; one without a report does not pass. -/
def chanReport (l : List ChanReport) (c : Nat) : ChanReport := l.getD c ⟨false, 0, false⟩

/-- R247: the channels that stay: those that pass with the density of the lowest that passes. -/
def trainedChannels (l : List ChanReport) : List Nat :=
  match (List.range 32).filter (fun c => (chanReport l c).passes) with
  | [] => []
  | c :: t => c :: t.filter (fun d => (chanReport l d).densityMib == (chanReport l c).densityMib)

/-- R247: the fitted capacity in MiB. -/
def fittedMib (l : List ChanReport) : Nat :=
  match trainedChannels l with
  | [] => 0
  | c :: _ => 32 * (chanReport l c).densityMib

/-- R247: the usable capacity in MiB. -/
def usableMib (l : List ChanReport) : Nat :=
  let a := (trainedChannels l).length
  if a = 32 then fittedMib l else if 16 ≤ a then fittedMib l * a / 32 / 2 * 2 else 0

/-- R247: a fold is set up. -/
def folds (l : List ChanReport) : Bool := decide (16 ≤ (trainedChannels l).length) && decide ((trainedChannels l).length < 32)

/-- A set of channels as a mask. -/
def chanMask (l : List Nat) : W32 := BitVec.ofNat 32 (l.map (fun c => 2 ^ c)).sum

/-- R61 step 5: training is over. Under a reserved strap value no channel trains. -/
def State.bootTrain (s : State) (l : List ChanReport) : State :=
  let strap := strapRate s.dom.ddrSel.toNat
  let l := if strap.1 = 0 then [] else l
  let on := trainedChannels l
  let s := { s with
    dom := { s.dom with trained := true }
    mem := { s.mem with folded := if folds l then (List.range 32).filter (fun c => !on.contains c) else [] } }
  let s := (s.fset F.SYS_BOOT_STATUS.channels on.length).fset F.SYS_BOOT_STATUS.data_rate strap.2
  let s := (s.fset F.MEM_STATUS.dram_type strap.1).fflag F.MEM_STATUS.folded (folds l)
  let s := (s.fset F.MEM_CAPACITY.usable_mib (usableMib l)).fset F.MEM_CAPACITY.fitted_gib (fittedMib l / 1024)
  let s := s.put .MEM_CHAN_ACTIVE (chanMask on)
  (s.put .MEM_LINK_ECC (chanMask (on.filter (fun c => (chanReport l c).linkEcc)))).showLinkEcc

/-! ### The fetch (R50, R399) -/

/-- R50: a push starts a fetch of the length that the register gives, or is refused. -/
def State.pushStart (s : State) : State :=
  if s.rcpState = rcpLoader ∧ !s.flag F.SYS_RCP_STATUS.busy then
    let len := s.fget F.SYS_RCP_PUSH_LEN.len
    let s := ((s.fset F.SYS_RCP_STATUS.busy 1).fset F.SYS_RCP_STATUS.source 1).put .SYS_RCP_ID 0
    { s with rcp := { s.rcp with phase := .fetch, image := [], loading := ⟨len, []⟩ } }
  else s.fset F.SYS_RCP_STATUS.push_refused 1

/-- The image has been copied: the format checks (order 1 of R47). -/
def State.imageFetched (s : State) (image : List Byte) (len : Nat) : State :=
  match formatError image len with
  | some e => s.loadFail 0 ⟨1, e.section_, e.offset⟩
  | none =>
    let r := imageRecipe image
    let s := { s with rcp := { s.rcp with phase := .sign, image := image, loading := r } }
    s.fset F.SYS_RCP_IFACE.recipe_if (u8 (r.sec 2) 1)

/-- R48: Tartal reads the recipe from flash. -/
def State.readsFlash (s : State) : Bool :=
  s.awake && s.rcpState == rcpLoading && s.rcp.phase == .idle && s.rcp.tartalFw.isSome && !s.dom.toLoader

/-- R399: from flash, the header first and then `total_size` bytes; from host memory the length that the push gave. -/
def State.imageArrives (s : State) (image : List Byte) : State :=
  if s.awake && s.rcp.phase == .fetch then
    let s := (s.fset F.SYS_RCP_STATUS.busy 0).fset F.SYS_RCP_STATUS.state rcpLoading
    s.imageFetched (image.take s.rcp.loading.size) s.rcp.loading.size
  else if s.readsFlash then
    let len := max 64 (u32 image 8)
    ((s.fset F.SYS_RCP_STATUS.source 0).put .SYS_RCP_ID 0).imageFetched (image.take len) len
  else s

/-! ### Signature (R38, R39, R48 step 3, R49) -/

/-- No root slot is programmed (R39). -/
def Fuses.unfused (f : Fuses) : Bool := !f.rootA.programmed && !f.rootB.programmed

/-- A slot accepts a key. -/
def RootSlot.takes (x : RootSlot) (d : Digest) : Bool := x.programmed && !x.revoked && x.digest == d

/-- R38, R39: the signer's key is accepted. -/
def Fuses.takesKey (f : Fuses) (key : List Byte) : Bool :=
  f.unfused || f.rootA.takes (Config.sha384 key) || f.rootB.takes (Config.sha384 key)

/-- The signed data of an image (R37). -/
def signedData (image : List Byte) (r : Recipe) : List Byte := image.take (r.secOff 16 + 112)

/-- R38: the failure of the signature check, if it fails. -/
def State.signError (s : State) : Option LoadError :=
  let r := s.rcp.loading
  let key := slice (r.sec 16) 8 97
  if !s.fuses.takesKey key then some ⟨2, 16, r.secOff 16 + 8⟩
  else if !Config.ecdsaP384 key (slice (r.sec 16) 112 96) (signedData s.rcp.image r) then some ⟨2, 16, r.secOff 16 + 112⟩
  else none

/-- The first four bytes of a digest as a little-endian word. -/
def digestWord (d : Digest) : W32 :=
  d.extractLsb' 352 8 ++ d.extractLsb' 360 8 ++ d.extractLsb' 368 8 ++ d.extractLsb' 376 8

/-- R49: the island adopts the OUT section of a recipe whose signature it accepts; in ROM it keeps the outputs disabled. -/
def State.adoptSigned (s : State) (r : Recipe) : State :=
  if s.dom.island = .running then
    let old := s.tailRecipe
    let other := s.rcp.otherSigned || (match s.rcp.earlier with
      | some e => e != r
      | none => false)
    { s with rcp := { s.rcp with signed := some r, otherSigned := other } }.adoptOut old r
  else s

/-- R48 step 3. -/
def State.signCheck (s : State) : State :=
  if s.up && s.rcp.phase == .sign then
    match s.signError with
    | some e => s.loadFail 0 e
    | none =>
      let r := s.rcp.loading
      let s := s.put .SYS_RCP_ID (digestWord (Config.sha384 (signedData s.rcp.image r)))
      let s := s.fflag F.SYS_RCP_STATUS.unfused s.fuses.unfused
      { s.adoptSigned r with rcp := { (s.adoptSigned r).rcp with phase := .admitting } }.refreshIsl
  else s

/-! ### The verdict (R41, R63) -/

/-- A number lies in an accepted range. -/
def accepts (lo hi n : Nat) : Bool := decide (lo ≤ n) && decide (n ≤ hi)

/-- R63: 1 Run, 2 Run-limited, 3 Held. -/
def State.verdict (s : State) (r : Recipe) : Nat :=
  let b := r.sec 2
  match s.rcp.islandFw, s.rcp.tartalFw with
  | some i, some t =>
    if s.dom.island ≠ .running then 3
    else if !(accepts i.recipeMin i.recipeMax (u8 b 1) && accepts i.otherMin i.otherMax t.iface) then 3
    else if !(accepts (u8 b 2) (u8 b 3) t.iface && accepts t.recipeMin t.recipeMax (u8 b 1)) then 3
    else if !(accepts (u8 b 4) (u8 b 5) i.iface && accepts t.otherMin t.otherMax i.iface) then 2
    else if s.fuses.unfused then 2
    else 1
  | _, _ => 3

/-- What the device found fitted. -/
def State.fitted (s : State) : Fitted :=
  { stepping := s.fuses.stepping, dramType := s.fget F.MEM_STATUS.dram_type
    dataRate := s.fget F.SYS_BOOT_STATUS.data_rate, channels := s.fget F.SYS_BOOT_STATUS.channels
    usableMib := s.fget F.MEM_CAPACITY.usable_mib }

/-! ### What admission writes (R48 step 6) -/

/-- R73: the digests of firmware, header and directory, OUT and GLAZE. -/
def State.recipeDigests (s : State) (image : List Byte) (r : Recipe) : List Digest :=
  [((s.rcp.islandFw).map (fun fw => Config.sha384 fw.bytes)).getD 0, Config.sha384 (image.take (64 + 16 * u16 image 12)), Config.sha384 (r.sec 5),
    Config.sha384 (r.sec 7)]

/-- The recipe is admitted and locked. -/
def State.setAdmitted (s : State) (r : Recipe) (verdict : Nat) : State :=
  let d := s.recipeDigests s.rcp.image r
  let s := { s.loadIdle with rcp := { s.loadIdle.rcp with
    admitted := some r, earlier := some r, otherSigned := false, limited := verdict == 2, digests := d } }
  let s := (s.fset F.SYS_RCP_STATUS.state rcpAdmitted).fset F.SYS_RCP_STATUS.locked 1
  ((s.fset F.SYS_RCP_STATUS.verdict verdict).fset F.SYS_RCP_STATUS.err 0).put .SYS_RCP_ERR_DETAIL 0

/-- R271: the inner regions in 64 KiB: system SRAM and carve-outs of inner partitions, CPX, ISL mailbox channel 1. -/
def innerRegions (r : Recipe) : List (Nat × Nat) :=
  let inner := (List.range 8).filter (fun p => r.partDeclared p && r.partWorld p == 1)
  (inner.flatMap (fun p =>
    [(256 + r.partSramBase p, r.partSramSize p),
     (dramBase / 65536 + 16 * r.carveBase (r.partCarve p), 16 * r.carveSize (r.partCarve p))])).filter (fun e => e.2 != 0)
    ++ [(0x1B00, 256), (islFenceBase, 1)]

/-- R271 to R279: the fence table, the debug enables, and the cores that partitions name. -/
def State.admitCores (s : State) (r : Recipe) : State :=
  let s := forEach ((List.range 32).zip (innerRegions r)) (fun e s =>
    (s.put .CPX_FENCE_REGION_BASE (BitVec.ofNat 32 e.2.1) e.1).put .CPX_FENCE_REGION_SIZE (BitVec.ofNat 32 e.2.2) e.1) s
  let s := s.put .CPX_DBG_EN (BitVec.ofNat 32 (r.dbgOuter % 4 + 4 * (r.dbgInner % 4)))
  forEach ((List.range 8).filter (fun c => (r.corePartition c).isSome)) (fun c s =>
    let s := s.setCore c { CoreState.initial with pc := Config.monitorEntry }
    s.put .CPX_STATUS (s.get .CPX_STATUS ||| BitVec.ofNat 32 (2 ^ c + 2 ^ (16 + c)))) s

/-- The word of LAYER_ID (R182). -/
def layerIdWord (r : Recipe) (n : Nat) : W32 :=
  if r.layerUsed n then
    BitVec.ofNat 32 (n + r.layerOut n * 64 + (if n < 8 then 0 else r.layerZ n % 8) * 512 + (decide (32 ≤ n)).toNat * 4096 + (decide (n < 8)).toNat * 8192
      + (r.layerAxis n != 255).toNat * 16384 + 2147483648)
  else BitVec.ofNat 32 n

/-- R179 to R202: bin pool, layers, and CMP ready on every enabled output. -/
def State.admitPicture (s : State) (r : Recipe) : State :=
  let s := s.fset F.GFX_BIN_FREE.chunks (r.binPoolMib * 16)
  let s := forEach (List.range 48) (fun n s => s.put .LAYER_ID (layerIdWord r n) n) s
  (s.fset F.CMP_STATUS.ready (((List.range 8).filter r.outEnabled).map (fun o => 2 ^ o)).sum).raise 176

/-- R45, R249, R256: mapping set, ceiling, reserves. -/
def State.admitMemory (s : State) (r : Recipe) : State :=
  let s := s.fset F.MEM_STATUS.map_set r.mapSet
  (s.put .MEM_CEILING_NOW (BitVec.ofNat 32 s.ceilingNow)).publishReserve none

/-- R123: the certificate of this star verifies. -/
def certOk (r : Recipe) : Bool :=
  match (List.range r.certCount).find? (fun c => (r.cert c).take 65 == Config.identityKey.take 65) with
  | some c => Config.ecdsaP384 r.fabRoot (slice (r.cert c) 80 96) ((r.cert c).take 80)
  | none => false

/-- R80, R123, R131, R143: links. Without a valid certificate every port is REFUSED with reason CERT. -/
def State.admitFab (s : State) (r : Recipe) (verdict : Nat) : State :=
  if !r.has 9 then s
  else if certOk r then
    let fixed := decide (r.fabStar < 4096)
    let star := if fixed then r.fabStar else 0xFFF
    let s := { s with fab := { s.fab with enabled := true } }
    let s := (s.fset F.FAB_STATUS.star star).fflag F.FAB_STATUS.numbered fixed
    let s := (s.fflag F.FAB_STATUS.secure (verdict == 1)).fset F.FAB_STATUS.master 1
    let s := s.fset F.FAB_STATUS.master_star star
    let s := { s with fab := { s.fab with masterPriority := r.masterPriority } }
    forEach ((List.range 8).filter s.portEnabled) (fun p s => s.setPort p portDown) s
  else forEach (List.range 8) (fun p s => s.refuseLink p 3) s

/-- R80, R88: TIME learns its source: the first load under FREE, HOLDOVER to FREE, else acquisition. -/
def State.admitTime (s : State) (r : Recipe) : State :=
  let s := s.fset F.TIME_STATUS.source r.timeSource
  let s :=
    if r.timeSource ≠ srcFree then s
    else if s.timeState = timeUnset then (s.firstLoad s.tim.islandCopy).enterTime timeFree
    else (s.setAdjust 0).enterTime timeFree
  forEach ((List.range 8).filter (fun a => (r.axisOf a).isSome)) (fun a s =>
    (s.setAxis a { AxisState.initial with lastInstant := s.gridTime - 1 }).fset F.AXIS_STATUS.state axAcquiring a) s

/-- R285, R288, R303: the internal instances, the links of host ports 1 to 3, the pool. -/
def State.admitInstances (s : State) (r : Recipe) : State :=
  let s := { s with vir := { s.vir with linkDown := [1, 2, 3].filter (fun p =>
    s.dom.perst.contains p || decide (r.hostPorts ≤ p)) } }
  let s := forEach ((List.range 8).filter r.partDeclared) (fun p s =>
    (s.setInst (64 + p) instActive).fset F.INST_STATUS.number (64 + p) (64 + p)) s
  forEach (0 :: 255 :: (List.range 8).map (64 + ·)) (fun o s => s.countCues o) s.showPool

/-- R323, R329, R334: touch controllers with their thresholds, haptic channels at rest. -/
def State.admitTouch (s : State) (r : Recipe) : State :=
  let s := forEach ((List.range 4).filter (fun c => bit r.tchMask c == 1)) (fun c s =>
    let s := (s.fset F.TCH_CTRL.enable 1 c).setBit .TCH_STATUS c
    (s.put .TCH_THRESH (BitVec.ofNat 32 (u32 (r.tch c) 28)) c).put .TCH_THRESH2 (BitVec.ofNat 32 (u32 (r.tch c) 32)) c) s
  forEach ((List.range 16).filter (fun n => bit r.hapMask n == 1)) (fun n s => s.hapEnter n hapIdle) s

/-- R341: the registers of DMX port p. -/
def State.admitDmx (s : State) (r : Recipe) (p : Nat) : State :=
  let b := r.dmx p
  let s := ((s.fset F.DMX_CFG.mode (u8 b 0) p).fset F.DMX_CFG.start_code (u8 b 9) p).fset F.DMX_CFG.slot_count (u16 b 6) p
  let s := (s.fset F.DMX_TIMING.break_us (u16 b 2) p).fset F.DMX_TIMING.mab_us (u16 b 4) p
  let s := (s.fset F.DMX_TIMING2.interslot_us (u8 b 8) p).fset F.DMX_TIMING2.refresh_ms (u16 b 10) p
  s.fset F.DMX_STATUS.state (if u8 b 0 = 0 then dmxOff else dmxIdle) p

/-- R341, R355, R359: DMX ports, GPIO outputs at their initial levels, encoders at the levels of their lines. -/
def State.admitIo (s : State) (r : Recipe) : State :=
  let s := forEach (List.range 16) (fun p s => s.admitDmx r p) s
  let s := forEach (List.range 8) (fun b s =>
    let high := (List.range 32).filter (fun l =>
      match r.gpioPad b l with
      | some pad => bit pad 6 == 1 && bit pad 7 == 1
      | none => false)
    s.put .GPIO_OUT (chanMask high) b) s
  forEach ((List.range 16).filter (fun n => bit r.encMask n == 1)) (fun n s =>
    let f := Config.freeNat s.draws
    s.drawn.setEncoder n ⟨f % 2 == 1, f / 2 % 2 == 1, 0⟩) s

/-- R48 step 6: the configuration is written. -/
def State.admitRecipe (s : State) (verdict : Nat) : State :=
  let r := s.rcp.loading
  let s := ((s.setAdmitted r verdict).admitCores r).admitPicture r
  let s := ((s.admitMemory r).admitFab r verdict).admitInstances r
  let s := ((s.admitTouch r).admitIo r).admitTime r
  ((s.audBegin.admitOut r).installGlaze r).refreshIsl.raise 1

/-- R45, R46: the ceiling and the reserved sum, once order 8 is reached. -/
def State.showBandwidth (s : State) (r : Recipe) : State :=
  (s.put .SYS_RCP_BW_CEILING (BitVec.ofNat 32 (ceilingOf s.fitted.dataRate s.fitted.channels))).put .SYS_RCP_BW_ADMITTED
    (BitVec.ofNat 32 (reservedSum r))

/-- R47 orders 3 to 8, R48 steps 4 to 6. -/
def State.admission (s : State) : State :=
  if s.up && s.rcp.phase == .admitting && s.dom.trained then
    let r := s.rcp.loading
    match compatError r s.fitted with
    | some e => s.loadFail 0 e
    | none =>
      let v := s.verdict r
      if v = 3 then s.loadFail 3 ⟨8, 2, r.secOff 2 + 1⟩
      else
        match structureError r s.fitted with
        | some e => (if e.code = 4 then s.showBandwidth r else s).loadFail v e
        | none => (s.showBandwidth r).admitRecipe v
  else s

end Sys2Proof.Machine
end

