-- ==== Sys2Proof/Machine/LoadCmd.lean ====
section
/-! DEFINITION. The commands of the boot sequence and of the recipe load (02_recipe.md, 03_reset_power.md, 11_memory.md). -/

namespace Sys2Proof.Machine

/-- TARTAL_CHECK (R61, R62), once for each release of the main domain. -/
def execTartalCheck (fw : FwImage) (s : State) : Host.Outcome State Fault Refusal :=
  done (fun s => if s.up && !s.dom.tartalChecked then s.tartalChecked fw else s) s

/-- DRAM_BOOT_TRAINING (R61, R247), once for each release of the main domain. -/
def execDramBootTraining (chans : List ChanReport) (s : State) : Host.Outcome State Fault Refusal :=
  done (fun s => if s.up && !s.dom.trained then s.bootTrain chans else s) s

/-- RECIPE_IMAGE_FETCH (R399). -/
def execRecipeImageFetch (image : List Byte) (s : State) : Host.Outcome State Fault Refusal :=
  done (fun s => s.imageArrives image) s

/-- SIGNATURE_CHECK (R38). -/
def execSignatureCheck (s : State) : Host.Outcome State Fault Refusal := done State.signCheck s

/-- ADMISSION (R47). -/
def execAdmission (s : State) : Host.Outcome State Fault Refusal := done State.admission s

/-- PUSH (R50). -/
def execPush (a : Agent) (s : State) : Host.Outcome State Fault Refusal :=
  done (fun s => s.byManagerInner a s.awake State.pushStart) s

end Sys2Proof.Machine
end

