-- ==== Sys2Proof/Machine/Glaze.lean ====
section
/-! DEFINITION. What a glaze renderer draws on a line (R227 to R230), the mixer, and the line CRCs (R237). Geometry is worked in
doubled coordinates: pixel (x, y) has its centre at (2x + 1, 2y + 1) (log entries 129 to 134). -/

namespace Sys2Proof.Machine

/-! ### Pixel membership (R229, R230) -/

/-- A number as an integer, doubled, at the centre of its pixel. -/
def centre (n : Nat) : Int := 2 * (n : Int) + 1

/-- RECT: x0 to x1 on every line of the envelope. -/
def rectHas (r : List Byte) (x : Nat) : Bool := decide (u16 r 8 ≤ x) && decide (x ≤ u16 r 10)

/-- The centre of the corner circle that a coordinate faces; none between the corners. -/
def cornerAt (lo hi : Nat) (radius c : Int) : Option Int :=
  let a := 2 * (lo : Int) + 2 * radius
  let b := 2 * (hi : Int) + 2 - 2 * radius
  if c < a then some a else if b < c then some b else none

/-- RRECT: a rectangle of whole pixels with quarter circles inscribed at its corners (log entry 129). -/
def rrectHas (r : List Byte) (x y : Nat) : Bool :=
  let k : Int := u16 r 12
  rectHas r x &&
    (match cornerAt (u16 r 8) (u16 r 10) k (centre x), cornerAt (u16 r 4) (u16 r 6) k (centre y) with
    | some a, some b => decide ((centre x - a) * (centre x - a) + (centre y - b) * (centre y - b) ≤ 4 * k * k)
    | _, _ => true)

/-- LINE: the centre lies within width/2 of the segment from (x_a, y_top) to (x_b, y_bottom), taken between the centres of those
pixels (log entry 130). -/
def lineHas (r : List Byte) (x y : Nat) : Bool :=
  let dx := centre (u16 r 10) - centre (u16 r 8)
  let dy := centre (u16 r 6) - centre (u16 r 4)
  let px := centre x - centre (u16 r 8)
  let py := centre y - centre (u16 r 4)
  let w : Int := u8 r 12
  let t := px * dx + py * dy
  let n := dx * dx + dy * dy
  if t ≤ 0 then decide (px * px + py * py ≤ w * w)
  else if n ≤ t then decide ((px - dx) * (px - dx) + (py - dy) * (py - dy) ≤ w * w)
  else decide ((px * dy - py * dx) * (px * dy - py * dx) ≤ w * w * n)

/-- The vertices of a POLY, at the centres of the pixels that they name. -/
def polyVertices (r : List Byte) : List (Int × Int) :=
  (List.range (u8 r 8)).map (fun i => (centre (u16 r (16 + 4 * i)), centre (u16 r (18 + 4 * i))))

/-- The edges of a closed polygon. -/
def polyEdges (l : List (Int × Int)) : List ((Int × Int) × Int × Int) := l.zip (l.drop 1 ++ l.take 1)

/-- Which side of an edge a point lies on: 0 on its line. -/
def sideOf (e : (Int × Int) × Int × Int) (px py : Int) : Int :=
  (e.2.1 - e.1.1) * (py - e.1.2) - (px - e.1.1) * (e.2.2 - e.1.2)

/-- A point on an edge. -/
def onEdge (px py : Int) (e : (Int × Int) × Int × Int) : Bool :=
  sideOf e px py == 0 && decide (min e.1.1 e.2.1 ≤ px) && decide (px ≤ max e.1.1 e.2.1) && decide (min e.1.2 e.2.2 ≤ py) &&
    decide (py ≤ max e.1.2 e.2.2)

/-- What an edge adds to the winding number around a point. -/
def winding (px py : Int) (e : (Int × Int) × Int × Int) : Int :=
  if e.1.2 ≤ py ∧ py < e.2.2 ∧ 0 < sideOf e px py then 1
  else if e.2.2 ≤ py ∧ py < e.1.2 ∧ sideOf e px py < 0 then -1
  else 0

/-- POLY: the centre is inside under the fill rule, even-odd or non-zero; on an edge it is open which (log entry 131). -/
def polyHas (r : List Byte) (x y : Nat) : Bool :=
  let l := polyEdges (polyVertices r)
  if l.any (onEdge (centre x) (centre y)) then Config.edgeInside x y
  else
    let w := (l.map (winding (centre x) (centre y))).sum
    if u8 r 9 = 0 then w % 2 != 0 else w != 0

/-! ### Glyphs (R227, R229) -/

/-- The directory entry of an atlas. -/
def atlasEntry (assets : List Byte) (a : Nat) : List Byte := slice assets (u32 assets 8 + 16 * a) 16

/-- The entry of a glyph, if the atlas has it. -/
def glyphEntry (assets : List Byte) (a g : Nat) : Option (List Byte) :=
  if a < u8 assets 1 ∧ g < u16 (atlasEntry assets a) 10 then some (slice assets (u32 (atlasEntry assets a) 0 + 8 * g) 8) else none

/-- Coverage of a pixel of a glyph in sixteenths: rows start on byte boundaries, the leftmost pixel in the high bits (log entry
132). -/
def glyphCover (assets : List Byte) (a : Nat) (g : List Byte) (i j : Nat) : Nat :=
  let bpp := u8 (atlasEntry assets a) 8
  let row := (u8 g 0 * bpp + 7) / 8
  let v := u8 assets (u32 (atlasEntry assets a) 0 + u32 g 4 + j * row + i * bpp / 8) / 2 ^ (8 - bpp - i * bpp % 8) % 2 ^ bpp
  if bpp = 1 then 16 * v else if v = 15 then 16 else v

/-- The coverages at a pixel of the cells of a run, in order: cells stand from x on, by advance (log entry 133). -/
def cellCovers (assets : List Byte) (r : List Byte) (x y : Nat) : Nat → List Nat → List Nat
  | _, [] => []
  | pen, g :: t =>
    match glyphEntry assets (u8 r 8) g with
    | none => cellCovers assets r x y pen t
    | some e =>
      let top := u16 r 4 + u8 e 3
      (if pen ≤ x ∧ x < pen + u8 e 0 ∧ top ≤ y ∧ y < top + u8 e 1 then [glyphCover assets (u8 r 8) e (x - pen) (y - top)] else []) ++
        cellCovers assets r x y (pen + u8 e 2) t

/-- The coverages of a primitive at a pixel, in sixteenths: none where it does not belong to it. -/
def primCovers (assets : List Byte) (r : List Byte) (x y : Nat) : List Nat :=
  let one (b : Bool) : List Nat := if b then [16] else []
  match u8 r 0 with
  | 1 => one (rectHas r x)
  | 2 => one (rrectHas r x y)
  | 3 => one (lineHas r x y)
  | 4 => one (polyHas r x y)
  | 5 => cellCovers assets r x y (u16 r 10) ((List.range (u8 r 9)).map (fun i => u16 r (16 + 2 * i)))
  | _ => []

/-! ### Composing a line (R230) -/

/-- A pixel while it is composed: alpha, and the channels in 10-bit units times alpha. -/
structure GlazeSum where
  a : Rat
  r : Rat
  g : Rat
  b : Rat
  deriving DecidableEq, Repr

/-- A composed pixel: alpha 0 to 255, and its colour word at panel depth. -/
structure GlazePx where
  a : Nat
  word : W32
  deriving DecidableEq, Repr

/-- A palette entry composed over a pixel, at a coverage in sixteenths (log entry 134). -/
def GlazeSum.over (s : GlazeSum) (entry cover : Nat) : GlazeSum :=
  let a : Rat := ((entry / 2 ^ 32 % 256 * cover : Nat) : Rat) / 4080
  let mix (hi : Nat) (old : Rat) : Rat := ((entry / 2 ^ hi % 1024 : Nat) : Rat) * a + old * (1 - a)
  ⟨a + s.a * (1 - a), mix 20 s.r, mix 10 s.g, mix 0 s.b⟩

/-- A primitive drawn on a pixel of its envelope. -/
def glazePrim (assets palette : List Byte) (x y : Nat) (s : GlazeSum) (r : List Byte) : GlazeSum :=
  if bit (u8 r 3) 0 = 1 ∧ u16 r 4 ≤ y ∧ y ≤ u16 r 6 then
    (primCovers assets r x y).foldl (fun s c => s.over (u64 palette (8 * u8 r 2)) c) s
  else s

/-- The pixel at panel depth: the colour truncated, the alpha a whole number. -/
def GlazeSum.px (s : GlazeSum) (depth : Nat) : GlazePx :=
  let cut (c : Rat) : Nat := (c / s.a).floor.toNat / 2 ^ (10 - depth)
  if s.a = 0 then ⟨0, 0⟩ else ⟨min 255 (roundOpen (s.a * 255)).toNat, pixelWord depth (cut s.r) (cut s.g) (cut s.b)⟩

/-- A white pixel. -/
def whitePx (depth : Nat) : GlazePx :=
  let c := 2 ^ depth - 1
  ⟨255, pixelWord depth c c c⟩

/-- The panel depth of an output. -/
def State.depth (s : State) (o : Nat) : Nat := s.tailRecipe.outDepth o

/-- R230: line y of an output as its renderer r draws it. -/
def State.glazeLine (s : State) (o r y : Nat) : List GlazePx :=
  let t := (s.out o).timing
  let c := ((s.glz o).rend r).copy
  let page := s.fget F.ISL_GLAZE_STATUS.page o
  let recs := (listRecords (if page = 1 then c.front.normal else c.front.offline)).map Prod.snd
  let palette := slice c.assets (u32 c.assets 4 + 2048 * o) 2048
  (List.range t.hActive).map (fun x =>
    if page = 1 ∨ page = 2 then (recs.foldl (glazePrim c.assets palette x y) ⟨0, 0, 0, 0⟩).px (s.depth o)
    else if page = 3 ∧
        Config.builtinInk (s.fget F.SYS_RCP_STATUS.err) (s.fget F.SYS_RCP_STATUS.verdict) t.hActive t.vActive x y then
      whitePx (s.depth o)
    else ⟨0, 0⟩)

/-! ### The mixer and the checks (R230, R237) -/

/-- A channel of a pixel word at panel depth. -/
def channelOf (depth hi : Nat) (w : W32) : Nat := w.toNat / 2 ^ hi % 1024 / 2 ^ (10 - depth)

/-- R230: round((g × a + m × (255 − a)) / 255). -/
def mixChannel (g m a : Nat) : Nat := (2 * (g * a + m * (255 - a)) + 255) / 510

/-- Glaze over main content, at panel depth. -/
def mixPx (depth : Nat) (g : GlazePx) (m : W32) : W32 :=
  let f (hi : Nat) : Nat := mixChannel (channelOf depth hi g.word) (channelOf depth hi m) g.a
  pixelWord depth (f 20) (f 10) (f 0)

/-- The bits that faults turn over at a column. -/
def errAt (l : List (Nat × W32)) (x : Nat) : W32 := l.foldl (fun w e => if e.1 = x then w ^^^ e.2 else w) 0

/-- A line with its faults. -/
def withErr (l : List (Nat × W32)) (line : List GlazePx) : List GlazePx :=
  line.zipIdx.map (fun e => { e.1 with word := e.1.word ^^^ errAt l e.2 })

/-- The CRC-32 register after pixel words (R29, R237: each a little-endian word). -/
def crcWords (acc : W32) (l : List W32) : W32 := (l.flatMap (fun w => leBytes 4 w.toNat)).foldl crc32Byte acc

/-- A line CRC (R237): over the words of the pixels whose composed alpha is 255. -/
def lineCrc (line : List GlazePx) (words : List W32) : W32 :=
  crcWords 0xFFFFFFFF ((line.zip words).filterMap (fun e => if e.1.a = 255 then some e.2 else none)) ^^^ 0xFFFFFFFF

/-- R239: the columns of the heartbeat on line y of a list. -/
def hbColumns (l : List Byte) (x y : Nat) : Bool :=
  match recordAt l (u16 l 2) with
  | some r => bit (u8 r.2 3) 0 == 1 && decide (u16 r.2 4 ≤ y) && decide (y ≤ u16 r.2 6) && rectHas r.2 x
  | none => false

end Sys2Proof.Machine
end

