-- ==== Sys2Proof/Machine/Scan.lean ====
section
/-! DEFINITION. The end of a line (R17, R218, R219, R230, R237): main content with its underrun pixels, the mixer, the pixels that
leave, and the line CRCs. -/

namespace Sys2Proof.Machine

/-- R220: the substitute background at panel depth (log entry 137). -/
def State.substitutePx (s : State) (o : Nat) : W32 :=
  let w : W32 := s.get .OUT_SUB_BG o
  let cut (hi : Nat) : Nat := w.toNat / 2 ^ hi % 1024 / 2 ^ (10 - s.depth o)
  pixelWord (s.depth o) (cut 20) (cut 10) (cut 0)

/-- R218: pixels that composition has not placed in time repeat the last good one; before any of the line, the last of the line
before it. -/
def fillMissing (missing : List Nat) : W32 → Nat → List W32 → List W32
  | _, _, [] => []
  | last, x, w :: t =>
    if missing.contains x then last :: fillMissing missing last (x + 1) t else w :: fillMissing missing w (x + 1) t

/-- R218: what an underrun pixel takes at the start of a line: on line 1 the substitute background. -/
def State.lastGoodAt (s : State) (o y : Nat) : W32 := if y = 0 then s.substitutePx o else (s.out o).lastGood

/-- R219: the columns of a line inside a freeze window. -/
def inWindow (w : W32 × W32) (x y : Nat) : Bool :=
  let x0 := w.1.toNat % 65536
  let y0 := w.1.toNat / 65536
  decide (x0 ≤ x) && decide (x < x0 + w.2.toNat % 65536) && decide (y0 ≤ y) && decide (y < y0 + w.2.toNat / 65536)

/-- R219: the running CRCs of the windows after a line. -/
def OutState.sigLine (x : OutState) (y : Nat) (line : List Px) : List W32 :=
  (List.range 4).map (fun k =>
    crcWords (x.acc k) (line.zipIdx.filterMap (fun e => if inWindow (x.frzWin.getD k (0, 0)) e.2 y then some e.1.word10 else none)))

/-- Main content that no rule gives: CMP does not run, and the substitute background is not in use. -/
def freeLine (draws w depth : Nat) : List W32 :=
  (List.range w).map (fun x => pixelWord depth (Config.freeNat (draws + 3 * x) % 2 ^ depth)
    (Config.freeNat (draws + 3 * x + 1) % 2 ^ depth) (Config.freeNat (draws + 3 * x + 2) % 2 ^ depth))

/-- Line y of main content at the PHY input, at panel depth: the substitute background (R220), what CMP composes and dithers
(R201), or in Twilight a free line (log entry 138). -/
def State.mainLine (s : State) (o y : Nat) (missing : List Nat) : List W32 × State :=
  let w := (s.out o).timing.hActive
  let d := s.depth o
  if s.flag F.OUT_STATUS.substitute o then (List.replicate w (s.substitutePx o), s)
  else if s.composing then
    let r := s.composeLine o y
    let line := r.1.zipIdx.map (fun e =>
      ditherPx d (Tbl.get 0 s.cmp.liveDither o) ((s.get .OUT_FRAME_INDEX o).toNat % 4) e.2 y e.1)
    let sent := fillMissing missing (s.lastGoodAt o y) 0 line
    (sent, r.2.setOut o { r.2.out o with lastGood := sent.getLast?.getD (s.lastGoodAt o y), sigAcc := (s.out o).sigLine y r.1 })
  else (freeLine s.draws w d, { s with draws := s.draws + 3 * w })

/-- R218: composition has missed pixels of an active line. -/
def State.underruns (s : State) (o : Nat) (b : LineObs) : Bool :=
  s.composing && !s.flag F.OUT_STATUS.substitute o && decide (1 ≤ b.line) && decide (b.line ≤ (s.out o).timing.vActive) &&
    b.missing.any (fun x => decide (x < (s.out o).timing.hActive))

/-- R17, R230, R237: glaze is mixed over a line of main content, the pixels leave unless the link is down or dark, and the CRCs are
taken. -/
def State.mixLine (s : State) (o y : Nat) (b : LineObs) (main : List W32) : LineCrcs × State :=
  let a := s.fget F.ISL_GLAZE_STATUS.active o
  let own := withErr b.activeErr (s.glazeLine o a y)
  let other := withErr b.standbyErr (s.glazeLine o (1 - a) y)
  let mixed := if s.mixes o then List.zipWith (mixPx (s.depth o)) own main else main
  let phy := mixed.zipIdx.map (fun e => e.1 ^^^ errAt b.phyErr e.2)
  let list := if s.fget F.ISL_GLAZE_STATUS.page o = 1 then (s.glzCopy o).front.normal else (s.glzCopy o).front.offline
  let hb := (own.zip phy).zipIdx.filterMap (fun e => if e.1.1.a = 255 ∧ hbColumns list e.2 y then some e.1.2 else none)
  let s := s.setOut o { s.out o with hbAcc := crcWords (s.out o).hbAcc hb }
  (⟨lineCrc own (own.map GlazePx.word), lineCrc other (other.map GlazePx.word), lineCrc own phy⟩,
    if s.linkOf o = lnkUp ∧ !(s.out o).dark then s.emit (.scanLine o (y + 1) phy) else s)

/-- LINE_END (R218, R230, R237): the line is composed, mixed and sent; underrun is counted; the island checks the line. On a line of
the blanking nothing is drawn, and the CRCs are those of no pixel. -/
def State.lineEnd (s : State) (o : Nat) (b : LineObs) : State :=
  if s.scans o then
    if 1 ≤ b.line ∧ b.line ≤ (s.out o).timing.vActive then
      let under := s.underruns o b
      let m := s.mainLine o (b.line - 1) b.missing
      let r := m.2.mixLine o (b.line - 1) b m.1
      (if under then r.2.underrunLine o b.line else r.2).lineCheck o b r.1
    else s.lineCheck o b ⟨0, 0, 0⟩
  else s

end Sys2Proof.Machine
end

