-- ==== Sys2Proof/Machine/OutCmd.lean ====
section
/-! DEFINITION. The commands of the output tails (09_outputs.md): frame starts and line ends, enables, timing, links and the
genlock reference. -/

namespace Sys2Proof.Machine

/-- FRAME_START (R180). -/
def execFrameStart (o : Fin 8) (actual : ST) (s : State) : Host.Outcome State Fault Refusal :=
  done (fun s => s.frameStart o actual) s

/-- LINE_END (R237). -/
def execLineEnd (o : Fin 8) (obs : LineObs) (s : State) : Host.Outcome State Fault Refusal :=
  done (fun s => s.lineEnd o obs) s

/-- A write to the OUT window: the manager alone reaches it (R20). The odd half of a locked pair ignores OUT_CTRL (R214). -/
def State.outWrite (s : State) (a : Agent) (o : Nat) (f : State → State) : State :=
  if !s.clocked .OUT || a != .manager then s.emit (.busError a) else if s.oddHalf o then s else (f s).refreshIsl

/-- OUTPUT_ENABLE (R212). -/
def execOutputEnable (a : Agent) (o : Fin 8) (en : Bool) (s : State) : Host.Outcome State Fault Refusal :=
  done (fun s => s.outWrite a o (fun s => forEach (s.halves o) (fun h s => s.enableOut h en) s)) s

/-- APPLY (R213). -/
def execApplyTiming (a : Agent) (o : Fin 8) (s : State) : Host.Outcome State Fault Refusal :=
  done (fun s => s.outWrite a o (fun s => s.applyTiming o)) s

/-- R216: `retrain` on every enabled half. -/
def State.retrain (s : State) (o : Nat) : State := forEach ((s.halves o).filter s.outOn) (fun h s => s.train h) s

/-- RETRAIN (R216). -/
def execRetrain (a : Agent) (o : Fin 8) (s : State) : Host.Outcome State Fault Refusal :=
  done (fun s => s.outWrite a o (fun s => s.retrain o)) s

/-- HOT_PLUG: OpenLDI has none. -/
def State.hotPlug (s : State) (o : Nat) (sinkDsc : Bool) : State :=
  if s.tailRecipe.openLdi o || s.dom.island == .inReset then s
  else
    let s := (s.setOut o { s.out o with sinkDsc := sinkDsc }).fset F.OUT_STATUS.hpd 1 o
    if s.outOn o && !s.outSleeps o then s.train o else s

/-- HOT_PLUG (R216). -/
def execHotPlug (o : Fin 8) (sinkDsc : Bool) (s : State) : Host.Outcome State Fault Refusal :=
  done (fun s => (s.hotPlug o sinkDsc).refreshIsl) s

/-- HOT_PLUG_LOSS: the link alone is lost and trains again (log entry 58), or hot plug goes. A link that sleeps in Twilight stays
asleep and trains when it wakes. -/
def State.hotPlugLoss (s : State) (o : Nat) (linkOnly : Bool) : State :=
  if s.tailRecipe.openLdi o || s.dom.island == .inReset then s
  else if linkOnly then
    if !s.outSleeps o ∧ (s.linkOf o = lnkUp ∨ s.linkOf o = lnkPsr) then (s.train o).raise (216 + o) else s
  else
    let was := s.flag F.OUT_STATUS.hpd o
    let s := s.fset F.OUT_STATUS.hpd 0 o
    if s.outOn o && was then
      (if s.outSleeps o then s.setOut o { s.out o with linkWas := lnkWaitHpd } else s.setLink o lnkWaitHpd 0).raise (216 + o)
    else s

/-- HOT_PLUG_LOSS (R216). -/
def execHotPlugLoss (o : Fin 8) (linkOnly : Bool) (s : State) : Host.Outcome State Fault Refusal :=
  done (fun s => (s.hotPlugLoss o linkOnly).refreshIsl) s

/-- TRAINING_DONE: only a link in training ends it. -/
def State.trainingDone (s : State) (o : Nat) (ok : Bool) : State :=
  if s.linkOf o = lnkTraining then (if ok then s.linkTrained o else s.setLink o lnkFailed 2) else s

/-- TRAINING_DONE (R216). -/
def execTrainingDone (o : Fin 8) (ok : Bool) (s : State) : Host.Outcome State Fault Refusal :=
  done (fun s => (s.trainingDone o ok).refreshIsl) s

/-- TRAINING_RETRY (R216): a FAILED link trains again. -/
def execTrainingRetry (o : Fin 8) (s : State) : Host.Outcome State Fault Refusal :=
  done (fun s => if s.linkOf o = lnkFailed then s.train o else s) s

/-- GENLOCK_REFERENCE_LOSS: the outputs that follow the input hold their last period and phase; TIME shows that the input
stopped (R77). -/
def State.genlockLoss (s : State) (input : Nat) : State :=
  let s := forEach (s.genOutputs input) (fun o s => s.setLock o lockHold) s
  let s := s.setGenIn input { s.genIn input with run := 0, lost := true }
  if s.timeSource = srcGenlock ∧ s.recipe.timePort = input then s.fset F.TIME_STATUS.clk_present 0 else s

/-- GENLOCK_REFERENCE_LOSS (R212). -/
def execGenlockReferenceLoss (input : Fin 2) (s : State) : Host.Outcome State Fault Refusal :=
  done (fun s => s.genlockLoss input) s

/-- R219: the count is 0 and `frozen` clear. -/
def State.frzClear (s : State) (o : Nat) : State := (s.fset F.OUT_FRZ_COUNT.count 0 o).fset F.OUT_STATUS.frozen 0 o

/-- OUT_FRZ_CLR (R219). -/
def execOutFrzClr (a : Agent) (o : Fin 8) (s : State) : Host.Outcome State Fault Refusal :=
  done (fun s => s.byManager a (s.clocked .OUT) (fun s => s.frzClear o)) s

end Sys2Proof.Machine
end

