-- ==== Sys2Proof/Machine/PowerOps.lean ====
section
/-! DEFINITION. The power ladder (R66 to R73): the checks of an entry request, the commit point, and the exit to Day. -/

namespace Sys2Proof.Machine

/-! ### Entry requests (R67) -/

/-- The exit time of a state in ns (R66). -/
def exitNs (p : Nat) : Nat :=
  match p with
  | 1 => 10000
  | 2 => 100000
  | 3 => 1000000
  | _ => 10000000

/-- A time-keyed cue is armed for a launch earlier than an ST. -/
def State.cueBefore (s : State) (t : ST) : Bool :=
  s.cue.slots.any (fun c => !c.2.entry.axisKeyed && earlier c.2.key t)

/-- R67: the first reason to refuse entry to a state, in the order of the rule; 0 none. -/
def State.entryRefusal (s : State) (target : Nat) (pendingWakes : BitVec 11) : Nat :=
  if 4 < target ∨ bit s.recipe.permitted target = 0 then 1
  else if (List.range 11).any (fun b => pendingWakes.getLsbD b && s.wakeEnabled b && wakeActs b target) then 2
  else if 2 ≤ target ∧ s.cueBefore (s.tim.st + BitVec.ofNat 64 (exitNs target + 100000)) then 4
  else if target = 4 ∧ s.flag F.SYS_RCP_STATUS.source then 5
  else 0

/-- R67: a request from Day. -/
def State.entryRequest (s : State) (target : Nat) (pendingWakes : BitVec 11) : State :=
  let s := s.fset F.PMU_STATE_CTRL.target target
  if target = 0 ∨ !s.day ∨ s.flag F.PMU_STATE_STATUS.entering then s
  else
    let reason := s.entryRefusal target pendingWakes
    if reason = 0 then { s.fset F.PMU_STATE_STATUS.entering 1 with pwr := { s.pwr with target := target } }
    else s.refuseEntry reason

/-! ### The commit point (R69) -/

/-- R264, R311: what the commit waits for: descriptors in progress, and for Twilight and below DRAM transactions in flight. -/
def State.entryWaits (s : State) : Bool :=
  (List.range 16).any (fun e => s.flag F.ENG_STATUS.busy e) || (decide (2 ≤ s.pwr.target) && !s.mem.inFlight.isEmpty)

/-- The link that Twilight keeps (R66): that of the time port, or the lowest where the star follows none (log entry 96). -/
def State.idleLink (s : State) : Option Nat :=
  match s.timePortOf with
  | some p => some p
  | none => (List.range 8).find? s.linked

/-- Every link but one that may stay goes down, without an event that any block could still record, and the election is settled by
what is left: a star joined to no other is its own master (R80, R84). -/
def State.fabOff (s : State) (stays : Option Nat) : State :=
  let ports := (List.range 8).filter (fun p =>
    stays != some p && decide (portVerify ≤ s.portState p) && decide (s.portState p ≤ portStall))
  let s := forEach ports (fun p s => (s.setPort p portDown).updPort p (fun _ => PortState.initial)) s
  if s.fab.enabled ∧ ports ≠ [] then s.settleMaster else s

/-- What stops on the way to a state. -/
def State.settle (s : State) (target : Nat) : State :=
  let s := if 2 ≤ target ∧ s.aud.running then s.audEnd else s
  if target = 2 then s.outsTwilight.fabOff s.idleLink else if 3 ≤ target then s.outsNight.fabOff none else s

/-- R66 to R73: the state is entered, the host link in L2 from Night on (R71); EV_PMU_ENTERED goes out while everything still runs. -/
def State.enterState (s : State) : State :=
  let target := s.pwr.target
  let s := ((s.fset F.PMU_STATE_STATUS.entering 0).raise 378).deliver
  let s := s.settle target
  { s with
    pwr :=
      { state := target, target := target, exiting := false, causes := 0
        aotArmed := s.get .PMU_AOT_WAKE != 0
        lookAhead := decide (2 ≤ target) && s.cue.slots.any (fun c => !c.2.entry.axisKeyed) }
    rcp := { s.rcp with stored := if target = 4 then s.rcp.digests else s.rcp.stored }
    dom := { s.dom with
      pcieWaken := true, hostL2 := decide (3 ≤ target), stuckArmed := s.dom.stuckArmed && decide (target < 3) } }.refreshIsl

/-- ENTRY_COMMIT. -/
def State.commitEntry (s : State) : State :=
  if s.day && s.flag F.PMU_STATE_STATUS.entering && !s.entryWaits then s.enterState else s

/-! ### The exit to Day (R66 to R73) -/

/-- R68: axes are LOST until their samples pass. -/
def State.axesLost (s : State) : State :=
  forEach ((List.range 8).filter (fun a => (s.recipe.axisOf a).isSome)) (fun a s => s.axisDrop a) s

/-- R72: TIME resumes from the always-on timer and acquires its source again. -/
def State.timeResume (s : State) : State :=
  let s := s.sourceLost
  if s.stValid then s.loadSt s.tim.islandCopy else s

/-- R73: what the island lost with its power: lists, indications, messages, checkpoints, and the failures of pairs and renderers;
the output configuration and the initial lists come back from the recipe. -/
def State.islandReload (s : State) : State :=
  let s := { s with
    isl := { s.isl with
      pairs := [], ckpt := (Checkpoint.initial, Checkpoint.initial), ckptNew := false, switching := false, work := [], seen := []
      indications := [], touches := [], again := [], glaze := [], rx := [], waits := [], mail := [], alive := false }
    fab := { s.fab with accepted := [] } }
  let s := forEach [0, 1] (fun c s => (s.setMailRx c []).fset F.ISL_MBOX_STATUS.tx_busy 0 c) s
  let s := forEach (List.range 8) (fun o s => s.put .ISL_GLAZE_STATUS 0 o) (s.fset F.ISL_STATUS.standby_ok 1)
  (s.outsReload s.tailRecipe).installGlaze (s.rcp.earlier.getD Recipe.empty)

/-- R264: every channel pauses for retraining before it carries traffic. -/
def State.memResume (s : State) : State :=
  { s with mem := { s.mem with exiting := (List.range 32).filter (fun c => s.hasBit .MEM_CHAN_ACTIVE c) } }

/-- What the main domain does at the exit from state `was`. -/
def State.mainResume (s : State) (was causes : Nat) : State :=
  let s := ((s.put .PMU_WAKE_CAUSE (BitVec.ofNat 32 causes)).fset F.PMU_STATE_STATUS.last was).raise 377
  let s := if 2 ≤ was then s.axesLost.memResume else s
  let s := if 3 ≤ was then s.timeResume else s
  let s := if 2 ≤ was then s.audBegin.outsDay else s
  s.dmaPickAll.schedule

/-- The exit is complete. A main domain in reset stays so, and only the island and the outputs come back. -/
def State.toDay (s : State) : State :=
  let was := s.pwr.state
  let causes := s.pwr.causes
  let s := { s with
    pwr := PowerState.initial
    dom := { s.dom with
      pcieWaken := decide (was < 3), hostL2 := false
      stuckArmed := s.dom.stuckArmed ||
        (decide (3 ≤ was) && s.dom.resetnLow && !s.dom.ignoring && s.dom.island == IslandMode.running && !s.fuses.honourHold) } }
  let s := if was = 4 then s.islandReload else s
  (if s.up then s.mainResume was causes else s.outsDay).refreshIsl

/-- R73: an exit from Eclipse that finds other images is an island reset. -/
def State.exitDay (s : State) (found : List Digest) : State :=
  if s.pwr.exiting && s.pwr.state != 0 then
    if s.pwr.state = 4 ∧ found ≠ s.rcp.stored then s.islandDown.islandStart s.dom.ddrSel else s.toDay
  else s

/-! ### Timers -/

/-- The always-on timer matches. -/
def State.timerMatch (s : State) : State :=
  if s.pwr.aotArmed && s.pwr.state != 0 then { s with pwr := { s.pwr with aotArmed := false } }.wake 4 else s

/-- The time that runs in a power state: ST, or the island time copy below Twilight (R72). -/
def State.sleepTime (s : State) : ST := if 3 ≤ s.pwr.state then s.tim.islandCopy else s.gridTime

/-- R68: a time-keyed cue is armed whose launch ST lies no further ahead than the exit takes, and 100 µs. -/
def State.lookAheadDue (s : State) : Bool :=
  s.cueBefore (s.sleepTime + BitVec.ofNat 64 (exitNs s.pwr.state + 100001))

/-- R68: the automatic wake, at the latest time that reaches Day 100 µs before the launch (log entry 84). -/
def State.lookAheadWake (s : State) : State :=
  if s.pwr.lookAhead && decide (2 ≤ s.pwr.state) && s.lookAheadDue then s.wake 5 else s

end Sys2Proof.Machine
end

