-- ==== Sys2Proof/Machine/PowerCmd.lean ====
section
/-! DEFINITION. The commands of the power ladder (03_reset_power.md). -/

namespace Sys2Proof.Machine

/-- POWER_STATE_ENTRY (R67). -/
def execPowerStateEntry (a : Agent) (target : BitVec 3) (pendingWakes : BitVec 11) (s : State) :
    Host.Outcome State Fault Refusal :=
  done (fun s => s.byManager a s.awake (fun s => s.entryRequest target.toNat pendingWakes)) s

/-- CORE_WFI_TIMEOUT (R67). -/
def execCoreWfiTimeout (s : State) : Host.Outcome State Fault Refusal :=
  done (fun s => if s.day && s.flag F.PMU_STATE_STATUS.entering then s.refuseEntry 3 else s) s

/-- ENTRY_COMMIT (R69). -/
def execEntryCommit (s : State) : Host.Outcome State Fault Refusal := done State.commitEntry s

/-- WAKE_SOURCE (R69). -/
def execWakeSource (b : Fin 11) (s : State) : Host.Outcome State Fault Refusal := done (fun s => s.wake b) s

/-- EXIT_TO_DAY (R66, R73). -/
def execExitToDay (fw hdr outSec glazeSec : Digest) (s : State) : Host.Outcome State Fault Refusal :=
  doneLoss (fun s => s.exitDay [fw, hdr, outSec, glazeSec]) s

/-- ALWAYS_ON_TIMER_MATCH (R66). -/
def execAlwaysOnTimerMatch (s : State) : Host.Outcome State Fault Refusal := done State.timerMatch s

/-- CUE_LOOKAHEAD_WAKE (R68). -/
def execCueLookaheadWake (s : State) : Host.Outcome State Fault Refusal := done State.lookAheadWake s

end Sys2Proof.Machine
end

