-- ==== Sys2Proof/Machine/SioCmd.lean ====
section
/-! DEFINITION. The commands of show and console I/O (16_show_io.md). The manager reaches its registers; below Dusk SIO is
gated (R361). -/

namespace Sys2Proof.Machine

/-! ### DMX transmit (R343 to R345) -/

/-- DMX_COMMIT_REGISTER (R344, R345). -/
def State.dmxRegisterCommit (s : State) (p : Nat) : State :=
  match s.dmxCommit p with
  | (true, s) => s
  | (false, s) => s.fset F.DMX_STATUS.refused 1 p

/-- DMX_COMMIT_REGISTER (R344). -/
def execDmxCommitRegister (a : Agent) (p : Fin 16) (s : State) : Host.Outcome State Fault Refusal :=
  done (fun s => s.byManager a s.awake (fun s => s.dmxRegisterCommit p)) s

/-- DMX_FETCH_DONE (R344): the bytes of the frame as they stand in memory; a read that ends after `mab_us` is counted. A frame in
progress on entry to Twilight is finished (R361). -/
def State.dmxFetchDone (s : State) (p : Nat) : State :=
  if s.dmxState p == dmxFrame && !(s.dmxPort p).fetched then
    let late := (s.dmxPort p).markEnd < s.tim.ticks
    let r := s.dmxSlots p
    let code : Byte := BitVec.ofNat 8 (F.DMX_CFG.start_code.of (s.dmxPort p).liveCfg)
    onlyIf late (fun s => (s.bump F.DMX_LATE_FETCH_COUNT.count p).raise 344) (r.2.dmxSend p (code :: r.1))
  else s

/-- DMX_FETCH_DONE (R344). -/
def execDmxFetchDone (p : Fin 16) (s : State) : Host.Outcome State Fault Refusal :=
  done (fun s => s.whenUp (fun s => s.dmxFetchDone p)) s

/-- DMX_FRAME_END (R343): the last stop bit of the frame has ended. A frame in progress on entry to Twilight is finished (R361). -/
def State.dmxFrameEnd (s : State) (p : Nat) : State :=
  if s.dmxState p = dmxFrame ∧ (s.dmxPort p).fetched ∧ (s.dmxPort p).endTick ≤ s.tim.ticks then
    s.fset F.DMX_STATUS.state dmxIdle p
  else s

/-- DMX_FRAME_END (R343). -/
def execDmxFrameEnd (p : Fin 16) (s : State) : Host.Outcome State Fault Refusal :=
  done (fun s => s.whenUp (fun s => s.dmxFrameEnd p)) s

/-- R345: no frame has started on the port for `refresh_ms`. -/
def State.dmxStale (s : State) (p : Nat) : Bool :=
  s.dmxAccepts p && s.fget F.DMX_TIMING2.refresh_ms p != 0 && (s.dmxPort p).last.isSome
    && decide (s.fget F.DMX_TIMING2.refresh_ms p * 1000000 ≤ s.tim.ticks - (s.dmxPort p).startTick)

/-- DMX_REFRESH (R345): the last frame again, from the port's own copy. -/
def State.dmxRefresh (s : State) (p : Nat) : State :=
  if s.dmxStale p then (s.dmxStart p).dmxSend p ((s.dmxPort p).last.getD []) else s

/-- DMX_REFRESH (R345). -/
def execDmxRefresh (p : Fin 16) (s : State) : Host.Outcome State Fault Refusal :=
  done (fun s => s.dmxRefresh p) s

/-! ### DMX receive (R346) -/

/-- A received byte is stored in the half in use, start code at byte 0. -/
def State.dmxStoreSlot (s : State) (p : Nat) (v : Byte) : PacketEffect :=
  let x := s.dmxPort p
  let w := s.engineWrite .io (s.dmxHolder p) (s.dmxBuf p + 1024 * x.rxHalf + x.rxBytes.length) [v]
  (w.stores, w.s.setDmx p { x with rxBytes := x.rxBytes ++ [v] })

/-- R346: a slot with a low stop bit discards the frame. -/
def State.dmxDiscard (s : State) (p : Nat) : State :=
  ((s.setDmx p { s.dmxPort p with rxBad := true }).bump F.DMX_RX_ERR_COUNT.count p).raise 346

/-- A whole frame is recorded: data slots, half, start code, and the ST of its break; the other half is next. -/
def State.dmxRecord (s : State) (p : Nat) (breakSt : ST) : State :=
  let x := s.dmxPort p
  let s := (s.fset F.DMX_RX_INFO.slots (x.rxBytes.length - 1) p).fset F.DMX_RX_INFO.half x.rxHalf p
  let s := (s.fset F.DMX_RX_INFO.start_code (u8 x.rxBytes 0) p).fset F.DMX_RX_INFO.valid 1 p
  let s := s.put64 .DMX_RX_ST_LO .DMX_RX_ST_HI breakSt p
  (s.setDmx p { x with rxBytes := [], rxHalf := 1 - x.rxHalf, rxBreak := none }).raise 345

/-- DMX_RX_FRAME_END (R346): the frame being received ends; a discarded one leaves no record. -/
def State.dmxRxFrameEnd (s : State) (p : Nat) : State :=
  match (s.dmxPort p).rxBreak with
  | none => s
  | some t =>
    let x := s.dmxPort p
    if x.rxBad ∨ x.rxBytes = [] then s.setDmx p { x with rxBytes := [], rxBad := false, rxBreak := none } else s.dmxRecord p t

/-- The port receives. -/
def State.dmxReceives (s : State) (p : Nat) : Bool := s.awake && s.dmxMode p == modeRx

/-- DMX_RX_FRAME_END (R346). -/
def execDmxRxFrameEnd (p : Fin 16) (s : State) : Host.Outcome State Fault Refusal :=
  done (fun s => if s.dmxReceives p then s.dmxRxFrameEnd p else s) s

/-- A running frame with no slot discarded yet is discarded; else nothing happens. -/
def State.dmxSlotBad (s : State) (p : Nat) : State :=
  if (s.dmxPort p).rxBreak.isSome && !(s.dmxPort p).rxBad then s.dmxDiscard p else s

/-- R346: a break of at least 88 µs ends the frame before it; with a MAB of at least 8 µs it starts the next. A shorter low is a
slot with a low stop bit (log entry 175). -/
def State.dmxRxBreak (s : State) (p : Nat) (b : DmxBreak) : State :=
  if b.lowNs < 88000 then s.dmxSlotBad p
  else
    let s := s.dmxRxFrameEnd p
    if b.markNs < 8000 then s else s.setDmx p { s.dmxPort p with rxBreak := some b.st, rxBytes := [], rxBad := false }

/-- R346: a slot of the running frame, of at most 513 with the start code. -/
def State.dmxRxByte (s : State) (p : Nat) (v : Byte) (stopOk : Bool) : PacketEffect :=
  let x := s.dmxPort p
  if x.rxBreak.isSome && !x.rxBad && decide (x.rxBytes.length < 513) then
    if stopOk then s.dmxStoreSlot p v else noStore (s.dmxDiscard p)
  else noStore s

/-- DMX_RX_SLOT (R346): a slot, after a break where one precedes it. -/
def State.dmxRxSlot (s : State) (p : Nat) (v : Byte) (stopOk : Bool) (after : Option DmxBreak) : PacketEffect :=
  if s.dmxReceives p then
    (match after with
      | some b => s.dmxRxBreak p b
      | none => s).dmxRxByte p v stopOk
  else noStore s

/-- DMX_RX_SLOT (R346). -/
def execDmxRxSlot (p : Fin 16) (value : Byte) (stopOk : Bool) (after : Option DmxBreak) (s : State) :
    Host.Outcome State Fault Refusal :=
  packetEnd (fun s => s.dmxRxSlot p value stopOk after) s

/-- DMX_RX_INFO_READ (R346). -/
def State.dmxInfoRead (s : State) (a : Agent) (p : Nat) : State :=
  (s.latch64 a .DMX_RX_ST_LO .DMX_RX_ST_HI p (s.get64 .DMX_RX_ST_LO .DMX_RX_ST_HI p)).answer a (s.get .DMX_RX_INFO p)

/-- DMX_RX_INFO_READ (R346). -/
def execDmxRxInfoRead (a : Agent) (p : Fin 16) (s : State) : Host.Outcome State Fault Refusal :=
  done (fun s => s.byManager a s.awake (fun s => s.dmxInfoRead a p)) s

/-! ### RDM (R347 to R349) -/

/-- A write of `rdm_go` queues a transaction on an RDM port that has none; one that cannot start is held. -/
def State.rdmQueue (s : State) (p : Nat) (discovery : Bool) : State :=
  let x := s.dmxPort p
  if s.dmxMode p == modeRdm && x.rdmQueued.isNone && x.rdmRunning.isNone && decide (24 ≤ s.fget F.DMX_RDM_LEN.msg_len p) then
    (s.setDmx p { x with rdmQueued := some discovery }).fflag F.DMX_STATUS.rdm_held (!s.rdmFits p discovery) p
  else s

/-- RDM_TRANSACTION (R347). -/
def execRdmTransaction (a : Agent) (p : Fin 16) (s : State) : Host.Outcome State Fault Refusal :=
  done (fun s => s.byManager a s.awake (fun s => s.rdmQueue p false)) s

/-- RDM_DISCOVERY (R348). -/
def execRdmDiscovery (a : Agent) (p : Fin 16) (s : State) : Host.Outcome State Fault Refusal :=
  done (fun s => s.byManager a s.awake (fun s => s.rdmQueue p true)) s

/-- R347: the request with its checksum, a break of 176 µs and a MAB of 12 µs. -/
def State.rdmSend (s : State) (p : Nat) (discovery : Bool) : State :=
  let r := s.engineRead .io (s.dmxHolder p) (s.rdmAddr p) (s.fget F.DMX_RDM_LEN.msg_len p)
  let s := r.s.setDmx p { r.s.dmxPort p with
    rdmQueued := none, rdmRunning := some discovery, startTick := r.s.tim.ticks
    endTick := r.s.tim.ticks + 188000 + slotsNs (r.bytes.length + 1) 0 }
  let s := (s.fset F.DMX_STATUS.state dmxRdm p).fset F.DMX_STATUS.rdm_held 0 p
  (s.emit (.dmxBreak p 176 12)).emit (.dmxSlots p 0 (r.bytes ++ beBytes 2 (rdmSum r.bytes)))

/-- RDM_START (R349). -/
def State.rdmStart (s : State) (p : Nat) : State :=
  match (s.dmxPort p).rdmQueued with
  | none => s
  | some d => if s.rdmFits p d then s.rdmSend p d else s.fset F.DMX_STATUS.rdm_held 1 p

/-- RDM_START (R349). -/
def execRdmStart (p : Fin 16) (s : State) : Host.Outcome State Fault Refusal :=
  done (fun s => s.whenAwake (fun s => s.rdmStart p)) s

/-- The end of a transaction (R347, step 6). -/
def State.rdmEnd (s : State) (p result : Nat) : State :=
  let s := s.setDmx p { s.dmxPort p with rdmRunning := none }
  ((s.fset F.DMX_STATUS.rdm_result result p).fset F.DMX_STATUS.state dmxIdle p).raise 347

/-- R348: the result of a discovery, with the UID of a valid response. -/
def State.discoveryEnd (s : State) (p : Nat) (bytes : List Byte) (framingOk : Bool) : State :=
  match discUid bytes with
  | some uid =>
    if framingOk then (s.put64 .DMX_RDM_UID_LO .DMX_RDM_UID_HI (BitVec.ofNat 64 uid) p).rdmEnd p 6 else s.rdmEnd p 7
  | none => s.rdmEnd p 7

/-- RDM_RESPONSE (R347, R348): the response is stored 512 bytes after the message, then judged. -/
def State.rdmResponse (s : State) (p : Nat) (bytes : List Byte) (framingOk : Bool) : PacketEffect :=
  match (s.dmxPort p).rdmRunning with
  | none => noStore s
  | some d =>
    let w := s.engineWrite .io (s.dmxHolder p) (s.rdmAddr p + 512) bytes
    (w.stores, if d then w.s.discoveryEnd p bytes framingOk else w.s.rdmEnd p (rdmResult bytes framingOk))

/-- RDM_RESPONSE (R347). -/
def execRdmResponse (p : Fin 16) (bytes : List Byte) (framingOk : Bool) (s : State) : Host.Outcome State Fault Refusal :=
  packetEnd (fun s => if s.awake then s.rdmResponse p bytes framingOk else noStore s) s

/-- RDM_TIMEOUT (R347): NO_RESPONSE, or DISC_NONE, once 2,800 µs have passed since the request. -/
def State.rdmTimeout (s : State) (p : Nat) : State :=
  match (s.dmxPort p).rdmRunning with
  | none => s
  | some d => if (s.dmxPort p).endTick + 2800000 ≤ s.tim.ticks then s.rdmEnd p (if d then 5 else 2) else s

/-- RDM_TIMEOUT (R347). -/
def execRdmTimeout (p : Fin 16) (s : State) : Host.Outcome State Fault Refusal :=
  done (fun s => s.whenAwake (fun s => s.rdmTimeout p)) s

/-! ### MIDI (R350) -/

/-- MIDI_TX (R350): a write to a full FIFO has no effect but `tx_overflow`. -/
def State.midiSend (s : State) (m : Nat) (b : Byte) : State :=
  let x := s.midiPort m
  if !s.recipe.midiEnabled m then s
  else if x.tx.length < 256 then s.setMidi m { x with tx := x.tx ++ [b] }
  else s.fset F.MIDI_STATUS.tx_overflow 1 m

/-- MIDI_TX (R350). -/
def execMidiTx (a : Agent) (m : Fin 4) (byte : Byte) (s : State) : Host.Outcome State Fault Refusal :=
  done (fun s => s.byManager a s.awake (fun s => s.midiSend m byte)) s

/-- A received byte enters the FIFO, or is dropped when it is full. -/
def State.midiQueue (s : State) (m : Nat) (e : MidiRx) : State :=
  let x := s.midiPort m
  if x.rx.length < 256 then
    let s := s.setMidi m { x with rx := x.rx ++ [e] }
    onlyIf x.rx.isEmpty (fun s => s.raise 348) s
  else s.fset F.MIDI_STATUS.rx_overflow 1 m

/-- MIDI_RX_BYTE (R350): stamped with the ST of its start bit. -/
def State.midiReceive (s : State) (m : Nat) (e : MidiRx) : State :=
  if s.awake && s.recipe.midiEnabled m then onlyIf e.ferr (fun s => s.raise 349) (s.midiQueue m e) else s

/-- MIDI_RX_BYTE (R350). -/
def execMidiRxByte (m : Fin 4) (byte : Byte) (ferr : Bool) (startSt : ST) (s : State) : Host.Outcome State Fault Refusal :=
  done (fun s => s.midiReceive m ⟨byte, ferr, startSt⟩) s

/-- An entry as MIDI_RX shows it. -/
def midiWord (e : MidiRx) : W32 :=
  BitVec.ofNat 32 (e.byte.toNat + (if 0xF8 ≤ e.byte.toNat then 256 else 0) + e.ferr.toNat * 512 + 2147483648)

/-- MIDI_RX_READ (R350): the read pops the oldest entry and latches its ST. -/
def State.midiRead (s : State) (a : Agent) (m : Nat) : State :=
  let x := s.midiPort m
  match x.rx with
  | [] => s.answer a 0
  | e :: t => ((s.setMidi m { x with rx := t }).put64 .MIDI_RX_ST_LO .MIDI_RX_ST_HI e.st m).answer a (midiWord e)

/-- MIDI_RX_READ (R350). -/
def execMidiRxRead (a : Agent) (m : Fin 4) (s : State) : Host.Outcome State Fault Refusal :=
  done (fun s => s.byManager a s.awake (fun s => s.midiRead a m)) s

/-! ### LTC (R351, R352) -/

/-- Three frame periods have passed since the last valid frame. -/
def State.ltcOverdue (s : State) (i : Nat) : Bool :=
  decide (3 * ltcNum (s.recipe.ltcEntryRate i) ≤ (s.tim.ticks - Tbl.get 0 s.sio.ltcSeen i) * ltcDen (s.recipe.ltcEntryRate i))

/-- LTC_LOSS (R351): `clk_present` shows whether edges still arrive at the input (R77), of a locked input or one lost before. -/
def State.ltcLoss (s : State) (i : Nat) (edges : Bool) : State :=
  if s.awake && s.recipe.ltcEnabled i && s.ltcOverdue i then
    onlyIf (s.flag F.LTC_IN_STATUS.locked i) (fun s => (s.fset F.LTC_IN_STATUS.locked 0 i).raise 352)
      (s.fflag F.LTC_IN_STATUS.clk_present edges i)
  else s

/-- LTC_LOSS (R351). -/
def execLtcLoss (input : Fin 2) (edges : Bool) (s : State) : Host.Outcome State Fault Refusal :=
  done (fun s => s.ltcLoss input edges) s

/-- LTC_IN_TC_READ (R351): the read latches the stamp and the user bits. -/
def State.ltcInRead (s : State) (a : Agent) (i : Nat) : State :=
  ((s.latch64 a .LTC_IN_ST_LO .LTC_IN_ST_HI i (s.get64 .LTC_IN_ST_LO .LTC_IN_ST_HI i)).latch a .LTC_IN_USER i
    (s.get .LTC_IN_USER i)).answer a (s.get .LTC_IN_TC i)

/-- LTC_IN_TC_READ (R351). -/
def execLtcInTcRead (a : Agent) (input : Fin 2) (s : State) : Host.Outcome State Fault Refusal :=
  done (fun s => s.byManager a s.awake (fun s => s.ltcInRead a input)) s

/-- An enabled LTC output sends (R352). -/
def State.ltcSends (s : State) (o : Nat) : Bool :=
  s.awake && s.stValid && s.flag F.LTC_OUT_CTRL.enable o && s.recipe.ltcEnabled (2 + o)

/-- LTC_OUT_FRAME (R352): frame k starts at the anchor + k × P, with timecode start + k. -/
def State.ltcOutFrame (s : State) (o : Nat) : State :=
  if s.ltcSends o then
    let s := s.ltcAdopt o
    let x := s.ltcOutOf o
    match (s.ltcOutGrid o x.plan.anchor).frameAt s.tim.st with
    | none => s
    | some k =>
      let rate := s.ltcOutRate o
      let n := (((ltcWordNumber rate x.plan.start : Nat) : Int) + k) % (ltcDayFrames rate : Nat)
      let w := ltcWordOf rate n.toNat
      (s.put .LTC_OUT_TC w o).emit (.ltc o w x.plan.user)
  else s

/-- LTC_OUT_FRAME (R352). -/
def execLtcOutFrame (o : Fin 2) (s : State) : Host.Outcome State Fault Refusal := done (fun s => s.ltcOutFrame o) s

/-! ### Faders and encoders (R353 to R355) -/

/-- R354: a passing test publishes the normal conversion before it, and after `recover` of them the fader is valid. -/
def State.faderPass (s : State) (n v : Nat) : State :=
  let x := s.fader n
  let s := (s.setFader n { x with passes := x.passes + 1 }).fset F.FADER_VAL.value v n
  let s :=
    if !s.flag F.FADER_VAL.valid n && decide (s.recipe.faderRecover ≤ x.passes + 1) then
      ((s.fset F.FADER_VAL.valid 1 n).clearBit .FADER_INVALID (n % 32) 0 (n / 32)).raise 354
    else s
  s.faderMove n v

/-- R354: a failed test. -/
def State.faderFail (s : State) (n : Nat) : State :=
  let s := s.setFader n { s.fader n with passes := 0 }
  ((s.fset F.FADER_VAL.valid 0 n).setBit .FADER_INVALID (n % 32) 0 (n / 32)).raise 353

/-- FADER_CONVERSION (R353, R354): normal and test conversions alternate: a test judges the normal conversion before it. -/
def State.faderConversion (s : State) (n : Nat) (test : Bool) (value : Nat) : State :=
  if s.awake && bit s.recipe.faderMask n == 1 then
    if !test then s.setFader n { s.fader n with normal := some value }
    else
      match (s.fader n).normal with
      | none => s
      | some v =>
        let s := s.setFader n { s.fader n with normal := none }
        if s.faderFails v value then s.faderFail n else s.faderPass n v
  else s

/-- FADER_CONVERSION (R353). -/
def execFaderConversion (n : Fin 48) (test : Bool) (value : BitVec 12) (s : State) : Host.Outcome State Fault Refusal :=
  done (fun s => s.faderConversion n test value.toNat) s

/-- ENCODER_TRANSITION (R355): the new levels of both lines, after the glitch filter. -/
def State.encoderStep (s : State) (n : Nat) (a b : Bool) : State :=
  let x := s.encoder n
  if x.a == a && x.b == b then s
  else if x.a != a && x.b != b then
    ((s.setEncoder n { x with a := a, b := b }).bump F.ENC_ERR_COUNT.count n).raise 357
  else
    let s := s.setEncoder n ⟨a, b, s.gridTime⟩
    let s := s.put .ENC_COUNT (s.get .ENC_COUNT n + BitVec.ofInt 32 (encStep x.a a b)) n
    { s with sio := { s.sio with encChanged := true } }.encSignal

/-- R355: levels that last as long as the glitch filter asks. Movement below Dusk is lost (R361): the levels are known, nothing is
counted. -/
def State.encoderLevels (s : State) (n : Nat) (a b : Bool) (heldNs : Nat) : State :=
  if bit s.recipe.encMask n = 0 ∨ heldNs < s.recipe.encFilter then s
  else if s.awake then s.encoderStep n a b
  else s.setEncoder n { s.encoder n with a := a, b := b }

/-- ENCODER_TRANSITION (R355). -/
def execEncoderTransition (n : Fin 16) (a b : Bool) (heldNs : Nat) (s : State) : Host.Outcome State Fault Refusal :=
  done (fun s => s.whenUp (fun s => s.encoderLevels n a b heldNs)) s

/-- ENC_COUNT_READ (R355): the read latches the ST of the last count change into ENC_ST. -/
def execEncCountRead (ag : Agent) (n : Fin 16) (s : State) : Host.Outcome State Fault Refusal :=
  done (fun s => s.byManager ag s.awake (fun s =>
    (s.put64 .ENC_ST_LO .ENC_ST_HI (s.encoder n).changed n).answer ag (s.get .ENC_COUNT n))) s

/-! ### I2C and SPI (R358) -/

/-- The first n bytes of BUS_DATA. -/
def State.busBytes (s : State) (n count : Nat) : List Byte :=
  ((List.range 16).flatMap (fun k => leBytes 4 (s.get .BUS_DATA n k).toNat)).take count

/-- The kind of a bus port: 1 I2C, 2 SPI. -/
def State.busKind (s : State) (n : Nat) : Nat := u8 (s.recipe.bus n) 0

/-- A transfer starts on a port of its kind that is not busy. -/
def State.busStart (s : State) (n target wr rd : Nat) : State :=
  if s.flag F.BUS_STATUS.busy n then s
  else
    ({ s with sio := { s.sio with busReads := Tbl.set 0 s.sio.busReads n rd } }.fset F.BUS_STATUS.busy 1 n).emit
      (.bus n target (s.busBytes n wr) rd)

/-- I2C_TRANSFER (R358): lengths above 64 start nothing. -/
def State.i2cGo (s : State) (n : Nat) : State :=
  let wr := s.fget F.BUS_CFG.wlen n
  let rd := s.fget F.BUS_CFG.rlen n
  if s.busKind n = 1 ∧ wr ≤ 64 ∧ rd ≤ 64 then s.busStart n (s.fget F.BUS_CFG.addr n) wr rd else s

/-- I2C_TRANSFER (R358). -/
def execI2cTransfer (a : Agent) (n : Fin 8) (s : State) : Host.Outcome State Fault Refusal :=
  done (fun s => s.byManager a s.awake (fun s => s.i2cGo n)) s

/-- SPI_TRANSFER (R358): a chip select that the recipe does not give, or a length outside 1 to 64, starts nothing. -/
def State.spiGo (s : State) (n : Nat) : State :=
  let cs := s.fget F.BUS_CFG.addr n % 4
  let len := s.fget F.BUS_CFG.wlen n
  if s.busKind n = 2 ∧ cs < u8 (s.recipe.bus n) 3 ∧ 1 ≤ len ∧ len ≤ 64 then s.busStart n cs len len else s

/-- SPI_TRANSFER (R358). -/
def execSpiTransfer (a : Agent) (n : Fin 8) (s : State) : Host.Outcome State Fault Refusal :=
  done (fun s => s.byManager a s.awake (fun s => s.spiGo n)) s

/-- Bytes placed in BUS_DATA from byte 0. -/
def State.busStore (s : State) (n : Nat) (b : List Byte) : State :=
  let all := b ++ (s.busBytes n 64).drop b.length
  forEach (List.range 16) (fun k s => s.put .BUS_DATA (BitVec.ofNat 32 (u32 all (4 * k))) n k) s

/-- R358: the result of a transfer that ends so; a clock held low for `stretch_ms` or less ends none, and an SPI port has
neither acknowledgement nor stretching. -/
def State.busResult (s : State) (n : Nat) (how : BusEnd) : Option Nat :=
  match how with
  | .complete => some 1
  | .addrNak => if s.busKind n = 1 then some 2 else none
  | .dataNak => if s.busKind n = 1 then some 3 else none
  | .clockLow ns => if s.busKind n = 1 ∧ u8 (s.recipe.bus n) 4 * 1000000 < ns then some 4 else none
  | .dataLow => if s.busKind n = 1 then some 5 else none

/-- BUS_TRANSFER_DONE (R358): the result, and the bytes read until then. -/
def State.busDone (s : State) (n : Nat) (how : BusEnd) (bytes : List Byte) : State :=
  match s.busResult n how with
  | some r =>
    if s.awake && s.flag F.BUS_STATUS.busy n then
      let s := s.busStore n (bytes.take (Tbl.get 0 s.sio.busReads n))
      ((s.fset F.BUS_STATUS.busy 0 n).fset F.BUS_STATUS.result r n).raise 359
    else s
  | none => s

/-- BUS_TRANSFER_DONE (R358). -/
def execBusTransferDone (n : Fin 8) (how : BusEnd) (bytes : List Byte) (s : State) : Host.Outcome State Fault Refusal :=
  done (fun s => s.busDone n how bytes) s

/-! ### GPIO and USB (R359, R360) -/

/-- GPIO_SET_REGISTER (R359). -/
def execGpioSetRegister (a : Agent) (b : Fin 8) (value : W32) (s : State) : Host.Outcome State Fault Refusal :=
  done (fun s => s.byManager a s.awake (fun s => s.gpioDrive b value value)) s

/-- GPIO_CLR (R359). -/
def execGpioClr (a : Agent) (b : Fin 8) (value : W32) (s : State) : Host.Outcome State Fault Refusal :=
  done (fun s => s.byManager a s.awake (fun s => s.gpioDrive b value 0)) s

/-- What drives the ball of a line from outside. -/
def State.driveLine (s : State) (b l : Nat) (high : Bool) : State :=
  { s with sio := { s.sio with driven := Tbl.set 0 s.sio.driven (32 * b + l) (if high then 2 else 1) } }

/-- R359: the edge reaches the line: it exists, an output is moved by it, and its glitch filter of 1 µs, where the pad has one,
lets it pass. -/
def State.edgeSeen (s : State) (b l : Nat) (rising : Bool) (heldNs : Nat) : Bool :=
  match s.recipe.gpioPad b l with
  | none => false
  | some pad =>
    (bit pad 6 == 0 || s.gpioLevel b l != (s.driveLine b l rising).gpioLevel b l) && (bit pad 4 == 0 || decide (1000 ≤ heldNs))

/-- GPIO_EDGE (R359): what drives a line from outside changes it; in Day and Dusk an enabled edge is recorded. -/
def State.gpioPinEdge (s : State) (b l : Nat) (rising : Bool) (heldNs : Nat) : State :=
  let t := s.driveLine b l rising
  if s.awake && s.edgeSeen b l rising heldNs then t.gpioEdge b l rising else t

/-- GPIO_EDGE (R359). -/
def execGpioEdge (b : Fin 8) (line : Fin 32) (rising : Bool) (heldNs : Nat) (s : State) : Host.Outcome State Fault Refusal :=
  done (fun s => s.gpioPinEdge b line rising heldNs) s

/-- USB_OVERCURRENT (R360): the port's power is turned off. -/
def State.usbOvercurrent (s : State) (n : Nat) : State :=
  if bit s.recipe.usbMask n = 1 then
    (({ s with sio := { s.sio with usbOff := NSet.insert s.sio.usbOff n } }).emit (.vbus n false)).raise 362
  else s

/-- USB_OVERCURRENT (R360). -/
def execUsbOvercurrent (n : Fin 4) (s : State) : Host.Outcome State Fault Refusal :=
  done (fun s => s.whenAwake (fun s => s.usbOvercurrent n)) s

end Sys2Proof.Machine
end

