-- ==== Sys2Proof/Machine/Flags.lean ====
section
/-! DEFINITION. What the registers read as whose word follows from other state at the moment of the read, and the words that
an agent holds latched. Every other register reads as its stored word. -/

namespace Sys2Proof.Machine

/-- Microseconds in HOLDOVER, saturating; 0 in any other state. -/
def State.holdoverAge (s : State) : W32 :=
  if s.timeState = timeHoldover then BitVec.ofNat 32 (min ((s.gridTime - s.tim.holdSince).toNat / 1000) (2 ^ 32 - 1)) else 0

/-- The levels of a GPIO bank (R359). -/
def State.gpioWord (s : State) (b : Nat) : W32 :=
  BitVec.ofNat 32 (((List.range 32).map (fun l => (s.gpioLevel b l).toNat * 2 ^ l)).sum)

/-- The word of a register as it stands: time, axes, CRC results, GPIO levels, routes to the island and channel owners follow from
what they show. -/
def State.live (s : State) (r : Reg) (i k : Nat) : W32 :=
  match r with
  | .TIME_ST_LO => lowWord s.tim.st
  | .TIME_ST_HI => highWord s.tim.st
  | .TIME_HOLDOVER_AGE => s.holdoverAge
  | .AXIS_POS_LO => lowWord (BitVec.ofInt 64 (s.axisAt i s.gridTime).1)
  | .AXIS_POS_HI => highWord (BitVec.ofInt 64 (s.axisAt i s.gridTime).1)
  | .AXIS_VEL_LO => lowWord (BitVec.ofInt 64 (s.axisAt i s.gridTime).2)
  | .AXIS_VEL_HI => highWord (BitVec.ofInt 64 (s.axisAt i s.gridTime).2)
  | .AXIS_EVAL_ST_LO => lowWord s.gridTime
  | .AXIS_EVAL_ST_HI => highWord s.gridTime
  | .CRC_RESULT_LO => lowWord (BitVec.ofNat 64 (s.crcResult i))
  | .CRC_RESULT_HI => highWord (BitVec.ofNat 64 (s.crcResult i))
  | .GPIO_IN => s.gpioWord i
  | .MEM_PORT_STATUS => s.get r i k ||| BitVec.ofNat 32 (s.portLevel i * 65536)
  | .EVT_ROUTE => (s.get r i k &&& ~~~1#32) ||| (if islandRouted i then 1#32 else 0#32)
  | .CH_OWNER => BitVec.ofNat 32 (s.dmaHolder i)
  | _ => s.get r i k

/-- The bits of a register that reads show: write-only fields and W1S triggers read 0 (R8; log entry 76 for the W1S bits whose
table does not say so). -/
def Reg.readable (r : Reg) : W32 :=
  (r.fields.filter (fun f => f.access == .rw || f.access == .ro || f.access == .w1c)).foldl
    (fun m f => m ||| BitVec.ofNat 32 ((2 ^ f.width - 1) * 2 ^ f.lo)) 0

/-- The index under which a copy of a register is latched. -/
def shadowIx (i k : Nat) : Nat := i + 4096 * k

/-- A word of the touch report that an agent holds latched (R332). -/
def State.reportWord (s : State) (a : Agent) (r : Reg) (c k : Nat) : Option W32 :=
  match s.latches.find? (fun l => l.agent == a && l.ctrl == c) with
  | some l => (l.words.find? (fun w => w.1 == r && w.2.1 == k)).map (·.2.2)
  | none => none

/-- What a read of a register returns to an agent: a latched word, else the live one. -/
def State.shown (s : State) (a : Agent) (r : Reg) (i k : Nat) : W32 :=
  (((s.latched a r (shadowIx i k)).or (s.reportWord a r i k)).getD (s.live r i k)) &&& r.readable

end Sys2Proof.Machine
end

