-- ==== Sys2Proof/Machine/Operands.lean ====
section
/-! DEFINITION. The operand forms of a register access: which register copy an address reaches in each space (R20, R24, R25,
R287, R288), who may reach it (R20 to R22, R271), and which bits of it a write may change (R7, R8, R10). -/

namespace Sys2Proof.Machine

/-! ### The register map -/

/-- The copy of a register that an offset within its block names. -/
def Reg.copyAt (r : Reg) (off : Nat) : Option RegKey :=
  if off < r.info.off then none
  else
    let d := off - r.info.off
    let i := if r.info.si = 0 then 0 else d / r.info.si
    let e := d - i * r.info.si
    let k := if r.info.sk = 0 then 0 else e / r.info.sk
    if i < r.info.ni ∧ k < r.info.nk ∧ e = k * r.info.sk then some ⟨r, i, k⟩ else none

/-- The register at an offset of a block, if its map lists one (R7). -/
def findReg (b : Block) (off : Nat) : Option RegKey :=
  Reg.all.findSome? (fun r => if r.info.block = b then r.copyAt off else none)

/-- Where a block lies: base and size of its window in the main-domain map, register span (R20), and offset in PF BAR0 (R24). -/
structure Place where
  base : Nat
  size : Nat
  span : Nat
  pf : Option Nat
  deriving DecidableEq, Repr

/-- One MiB. -/
def oneMib : Nat := 0x100000

/-- R20, R24: the windows of the blocks. -/
def Block.place : Block → Place
  | .SYS => ⟨0x10000000, oneMib, oneMib, some 0⟩
  | .TIME => ⟨0x10100000, oneMib, oneMib, some 0x100000⟩
  | .CUE => ⟨0x10200000, oneMib, oneMib, some 0x200000⟩
  | .FAB => ⟨0x10300000, oneMib, oneMib, some 0x300000⟩
  | .ISL => ⟨0x10400000, oneMib, oneMib, some 0x400000⟩
  | .GFX => ⟨0x11000000, 16 * oneMib, 4 * oneMib, some 0x1000000⟩
  | .CMP => ⟨0x12000000, 16 * oneMib, 4 * oneMib, some 0x1400000⟩
  | .OUT => ⟨0x13000000, 0x80000, 0x80000, some 0x1800000⟩
  | .MEM => ⟨0x14000000, 16 * oneMib, 4 * oneMib, some 0x1C00000⟩
  | .VIR => ⟨0x15000000, 16 * oneMib, 4 * oneMib, some 0x2000000⟩
  | .DMA => ⟨0x16000000, oneMib, oneMib, some 0x2400000⟩
  | .CRC => ⟨0x16100000, oneMib, oneMib, some 0x2500000⟩
  | .TCH => ⟨0x17000000, oneMib, oneMib, some 0x2600000⟩
  | .HAP => ⟨0x17100000, oneMib, oneMib, some 0x2700000⟩
  | .SIO => ⟨0x18000000, 16 * oneMib, 4 * oneMib, some 0x2800000⟩
  | .AUD => ⟨0x19000000, 16 * oneMib, 4 * oneMib, some 0x2C00000⟩
  | .EVT => ⟨0x1A000000, oneMib, oneMib, some 0x3000000⟩
  | .PMU => ⟨0x1A100000, oneMib, oneMib, some 0x3100000⟩
  | .CPX => ⟨0x1B000000, 16 * oneMib, 4 * oneMib, none⟩
  | .INS => ⟨0, 0, 0, none⟩

/-- The blocks of the main-domain map. -/
def mapBlocks : List Block :=
  [.SYS, .TIME, .CUE, .FAB, .ISL, .GFX, .CMP, .OUT, .MEM, .VIR, .DMA, .CRC, .TCH, .HAP, .SIO, .AUD, .EVT, .PMU, .CPX]

/-- The block whose window holds a main-domain address. -/
def blockAt (addr : Nat) : Option Block :=
  mapBlocks.find? (fun b => decide (b.place.base ≤ addr) && decide (addr < b.place.base + b.place.size))

/-- The block whose register span holds a PF BAR0 offset. -/
def pfBlockAt (off : Nat) : Option Block :=
  mapBlocks.find? (fun b =>
    match b.place.pf with
    | some o => decide (o ≤ off) && decide (off < o + b.place.span)
    | none => false)

/-! ### What an access reaches -/

/-- What an access reaches: a register copy, directly or through the page set of an owner; a place that reads 0 and ignores
writes (R7, R25, R287); the counter mirror of an owner (R383); a USB host controller (R360); an inner region that the fence closes (R271); or an error response. -/
inductive Target where
  | reg (key : RegKey) (via : Option Nat)
  | nothing
  | usb
  | mirror (owner off : Nat)
  | fenced (addr : Nat)
  | error
  deriving DecidableEq, Repr

/-- A register found, or a place that R7 reserves. -/
def Target.found (via : Option Nat) : Option RegKey → Target
  | some key => .reg key via
  | none => .nothing

/-- Page 1 of an owner's page set: its first 32 DMA channels at 0x400, and the registers of R293. -/
def State.pageOne (s : State) (o off : Nat) : Target :=
  if 0x400 ≤ off ∧ off < 0x800 then
    match (s.heldChannels o)[(off - 0x400) / 0x20]? with
    | some c => Target.found (some o) (findReg .DMA (0x10000 + c * 0x40 + off % 0x20))
    | none => .nothing
  else Target.found (some o) ((findReg .INS (0x1000 + off)).map (fun key => { key with i := o }))

/-- The registers that page 8 mirrors (chapter 4); the place of each in the page is open. -/
def mirrored (r : Reg) : Bool :=
  [Reg.TIME_STATUS, .TIME_ST_LO, .TIME_ST_HI, .AXIS_STATUS, .AXIS_POS_LO, .AXIS_POS_HI].contains r

/-- Page 8. -/
def pageEightAt (o off : Nat) : Target :=
  Target.found (some o) ((findReg .TIME (Config.pageEight off)).filter (fun key => mirrored key.reg))

/-- R383: the recipe enables the counter mirror of an owner. -/
def State.mirrorOn (s : State) (o : Nat) : Bool := bit s.recipe.mirrorMask (if o < 64 then 8 else o - 64) == 1

/-- R25, R293: an offset of the page set of owner o. The pages of a VF whose instance is NONE are 1, 2 and 3 (R287). -/
def State.pageSet (s : State) (o off : Nat) : Target :=
  let p := off / 0x1000
  let w := off % 0x1000
  if p = 0 ∧ !s.clocked .GFX then .error
  else if o < 64 ∧ s.instState o = 0 ∧ (p = 0 ∨ 3 < p) then .nothing
  else if p = 1 then s.pageOne o w
  else if p = 6 then
    if w < 0x800 then Target.found (some o) ((findReg .CUE w).map (fun key => { key with i := cueWindowOf o })) else .nothing
  else if p = 7 then
    match (s.heldLayers o)[w / 0x100]? with
    | some n => Target.found (some o) (findReg .CMP (0x10000 + n * 0x100 + w % 0x100))
    | none => .nothing
  else if p = 8 then pageEightAt o w
  else if p = 12 ∧ s.mirrorOn o then .mirror o w
  else if p < 6 then Target.found (some o) ((findReg .INS off).map (fun key => { key with i := o }))
  else .nothing

/-- R20, R21, R288, R360: an offset within a block's window. -/
def State.inBlock (s : State) (b : Block) (off : Nat) : Target :=
  if b.place.span ≤ off then .error
  else if b = .SIO ∧ 0x100000 ≤ off then .usb
  else if b = .VIR ∧ 0x200000 ≤ off ∧ off < 0x280000 then s.pageSet (64 + (off - 0x200000) / 0x10000) (off % 0x10000)
  else Target.found none (findReg b off)

/-- R20: "Reachable by". A partition reaches, beside TIME and CUE, its own page set in the VIR window (R288). Tartal on the
management cores is named for no block and counts among the agents of "Any" alone (log entry 77). -/
def reachable (a : Agent) (b : Block) (off : Nat) : Bool :=
  match b with
  | .SYS | .FAB | .ISL | .MEM | .EVT => a == .manager || a == .inner
  | .TIME | .CUE => true
  | .CPX => a == .inner
  | .VIR =>
    match a with
    | .partition p => decide (0x200000 + p.val * 0x10000 ≤ off) && decide (off < 0x210000 + p.val * 0x10000)
    | _ => a == .manager
  | _ => a == .manager

/-- The agents on the main-domain interconnect. -/
def onMain : Agent → Bool
  | .guest _ | .island => false
  | _ => true

/-- The world that an agent's register accesses carry (R271). -/
def State.agentInner (s : State) (a : Agent) : Bool :=
  match a with
  | .inner => true
  | .partition p => s.ownerInner (64 + p.val)
  | _ => false

/-- An access to a block, by an agent that the space lets through to it: fence, reach, clock, place. -/
def State.toBlock (s : State) (a : Agent) (b : Block) (off : Nat) : Target :=
  if s.innerRegion (b.place.base + off) && !s.agentInner a then .fenced (b.place.base + off)
  else if !reachable a b off || !s.clocked b then .error
  else s.inBlock b off

/-- R20 to R25, R271: what an access reaches. -/
def State.reaches (s : State) (a : Agent) (sp : Space) (addr : Nat) : Target :=
  match sp with
  | .main =>
    match blockAt addr with
    | some b => if onMain a then s.toBlock a b (addr - b.place.base) else .error
    | none => .error
  | .pfBar0 =>
    match pfBlockAt addr with
    | some b => if a = .manager ∧ !s.dom.hostL2 then s.toBlock a b (addr - b.place.pf.getD 0) else .error
    | none => .error
  | .guestBar0 i =>
    if a = .guest i ∧ i ≠ 0 ∧ !s.dom.hostL2 ∧ s.awake ∧ addr < 0x10000 then s.pageSet i addr else .error
  | .islandPort =>
    if a = .island ∧ s.awake ∧ addr < 0x800 then
      Target.found none ((findReg .CUE addr).map (fun key => { key with i := cueWindowOf islandOwner }))
    else .error
  | .csr _ _ | .fence .. | .msixControl _ => .error

/-- R6: a naturally aligned 32-bit access. -/
def wellShaped (addr bytes : Nat) : Bool := bytes == 4 && addr % 4 == 0

/-! ### Who may change a field (R10) -/

/-- The agent is the owner that a register's window stands for. -/
def ownsCopy (a : Agent) (key : RegKey) (via : Option Nat) : Bool :=
  match key.reg.info.block with
  | .CUE => a != .inner && a != .management && cueWindowOf (ownerOf a) == key.i
  | .ISL => if key.i = 0 then a == .manager else a == .inner
  | _ => (via.isNone && a == .manager) || (via == some (ownerOf a) && a != .inner && a != .management && a != .manager)

/-- R10: a writer that the map names. Tartal on the management cores is no host driver (log entry 77). -/
def named (a : Agent) (key : RegKey) (via : Option Nat) : Writer → Bool
  | .island => a == .island
  | .inner => a == .inner
  | .manager => a == .manager && via.isNone
  | .guest => via == some (ownerOf a) && a != .inner && a != .management && a != .manager
  | .owner => ownsCopy a key via
  | .any => true

/-- The bits of a field. -/
def FieldDesc.mask (f : FieldDesc) : W32 := BitVec.ofNat 32 ((2 ^ f.width - 1) * 2 ^ f.lo)

/-- The bits of the fields that satisfy a condition. -/
def Reg.maskOf (r : Reg) (c : FieldDesc → Bool) : W32 := (r.fields.filter c).foldl (fun m f => m ||| f.mask) 0

/-- R10: the bits of a register copy that an agent may change. -/
def grant (a : Agent) (key : RegKey) (via : Option Nat) : W32 :=
  key.reg.maskOf (fun f => f.writers.any (named a key via))

/-- R7, R8: the word that a write leaves: RW fields take the value, W1C bits clear, all else stays. -/
def nextWord (r : Reg) (g old v : W32) : W32 :=
  let rw := r.maskOf (fun f => f.access == .rw) &&& g
  let c := r.maskOf (fun f => f.access == .w1c) &&& g
  ((old &&& ~~~rw) ||| (v &&& rw)) &&& ~~~(v &&& c)

end Sys2Proof.Machine
end

