-- ==== Sys2Proof/Machine/TchOps.lean ====
section
/-! DEFINITION. Touch sensing (R323 to R333, R401): the frame grid, the runs of the codes, nodes and contacts, baselines, and
regions. -/

namespace Sys2Proof.Machine

/-! ### The grid (R323) -/

/-- Grid point k: k × 10^9 / 240 ns, rounded down. -/
def touchPoint (k : Nat) : Nat := k * 1000000000 / 240

/-- The number of the first grid point that is not earlier than a time. -/
def touchIndex (t : Nat) : Nat := ceilDiv (t * 240) 1000000000

/-- A time is a grid point. -/
def onTouchGrid (t : Nat) : Bool := touchPoint (touchIndex t) == t

/-- Step 5: when the result of the frame at a grid point is due. -/
def resultTime (fs : ST) : Nat := touchPoint (touchIndex fs.toNat + 1) + 200000

/-- The hidden part of a controller. -/
def State.tc (s : State) (c : Nat) : TouchCtrl := Tbl.get TouchCtrl.initial s.tch c

/-- Store the hidden part of a controller. -/
def State.setTc (s : State) (c : Nat) (x : TouchCtrl) : State := { s with tch := Tbl.set TouchCtrl.initial s.tch c x }

/-- A controller scans frames: enabled, in Day and Dusk, and at 120 Hz in Twilight. -/
def State.tchRuns (s : State) (c : Nat) : Bool :=
  s.up && s.flag F.TCH_CTRL.enable c &&
    (decide (s.pwr.state ≤ 1) || (s.pwr.state == 2 && touchIndex s.gridTime.toNat % 2 == 0))

/-! ### The runs of the codes (R324, R325) -/

/-- The hop frequency of index h, in kHz. -/
def hopKhz (b : List Byte) (h : Nat) : Nat := u16 b (8 + 2 * h)

/-- The quietest hop that has not been tried; on a tie the lowest index. -/
def quietest (noise : List Nat) (tried : List Nat) : Option Nat :=
  ((List.range 8).filter (fun h => !tried.contains h)).foldl (fun m h =>
    match m with
    | none => some h
    | some g => if noise.getD h 0 < noise.getD g 0 then some h else some g) none

/-- How long a number of cycles lasts at a hop, in ns. -/
def cyclesNs (b : List Byte) (n h : Nat) : Rat := (n * 1000000 : Nat) / (hopKhz b h : Rat)

/-- R324: entry (j, t) of the Sylvester Hadamard matrix of order 16. -/
def hadamard (j t : Nat) : Int := if ((List.range 4).map (fun b => bit j b * bit t b)).sum % 2 = 0 then 1 else -1

/-- Row j of the decoding of 16 chips. -/
def decodeRow (chips : List Int) (j : Nat) : Int := (chips.zipIdx.map (fun e => hadamard j e.2 * e.1)).sum

/-- The outputs of a group of n TX on one RX: the decodings from the first and from the second halves. -/
def rxOutputs (n : Nat) (rx : List (Int × Int)) : List (Int × Int) :=
  (List.range n).map (fun j => (decodeRow (rx.map (·.1)) j, decodeRow (rx.map (·.2)) j))

/-- R324: the orthogonality residual of a run: the largest difference between the two decodings. -/
def runResidual (n : Nat) (run : CodeRun) : Nat :=
  ((run.flatMap (rxOutputs n)).map (fun d => (d.1 - d.2).natAbs)).foldl max 0

/-- The raw readings of a run of group g: both halves together. -/
def runNodes (g n : Nat) (run : CodeRun) : List NodeRaw :=
  run.zipIdx.flatMap (fun rx => (rxOutputs n rx.1).zipIdx.map (fun d => ⟨rx.2, 16 * g + d.2, d.1.1 + d.1.2⟩))

/-- The TX of group g. -/
def groupSize (tx g : Nat) : Nat := min 16 (tx - 16 * g)

/-- One code of a frame: group, hops tried, runs to come, the readings of the last run, and whether it was clean. -/
structure CodeTry where
  group : Nat
  tried : List Nat
  left : List CodeRun
  nodes : List NodeRaw
  clean : Bool
  deriving DecidableEq, Repr

/-- The codes after step 2, the time used, and re-runs so far. -/
structure Reruns where
  codes : List CodeTry
  used : Rat
  made : Nat

/-- A code after a run of it at a hop: clean unless the residual exceeds `resid_thresh`. -/
def afterRun (tx : Nat) (thresh2 : W32) (g : Nat) (tried : List Nat) (run : CodeRun) (left : List CodeRun) : CodeTry :=
  let n := groupSize tx g
  ⟨g, tried, left, runNodes g n run, decide (runResidual n run ≤ thresh2.toNat % 65536)⟩

/-- The first runs, at the frame's hop. -/
def firstRuns (tx : Nat) (thresh2 : W32) (hop groups : Nat) (codes : List CodeRuns) : List CodeTry :=
  (List.range groups).map (fun g =>
    match ((codes.find? (fun r => r.group == g)).map (·.runs)).getD [] with
    | [] => ⟨g, [hop], [], [], false⟩
    | r :: t => afterRun tx thresh2 g [hop] r t)

/-- R325: one re-run of a discarded code on its next hop, if it can end by fs + P_t. -/
def rerun (b : List Byte) (noise : List Nat) (thresh2 : W32) (acc : Reruns) (c : CodeTry) : Reruns :=
  match c.clean, quietest noise c.tried, c.left with
  | false, some h, r :: t =>
    let used := acc.used + cyclesNs b (16 * u8 b 2) h
    if used ≤ 1000000000 / 240 then
      ⟨acc.codes ++ [afterRun (u8 b 0) thresh2 c.group (h :: c.tried) r t], used, acc.made + 1⟩
    else { acc with codes := acc.codes ++ [c] }
  | _, _, _ => { acc with codes := acc.codes ++ [c] }

/-- The discarded codes in group order, as often as a hop is left. -/
def rerunAll (b : List Byte) (noise : List Nat) (thresh2 : W32) : Nat → Reruns → Reruns
  | 0, x => x
  | f + 1, x => rerunAll b noise thresh2 f (x.codes.foldl (rerun b noise thresh2) { x with codes := [] })

/-- The rows of the codes without a clean run. -/
def staleOf (tx : Nat) (codes : List CodeTry) : List Nat :=
  (List.range tx).filter (fun j => codes.any (fun c => c.group == j / 16 && !c.clean))

/-! ### Nodes (R327) -/

/-- The key of node (i, j), at RX i and TX j. -/
def nodeKey (i j : Nat) : Nat := 128 * j + i

/-- A node of one frame: its delta, and whether it is touched or water. -/
structure TouchNode where
  i : Nat
  j : Nat
  delta : Rat
  touched : Bool
  water : Bool
  deriving DecidableEq, Repr

/-- The self delta of a line exceeds its threshold. -/
def selfOver (base : Tbl Rat) (vals : List Nat) (thresh : W32) (n : Nat) : Bool :=
  decide (((thresh.toNat / 65536 : Nat) : Rat) < (vals.getD n 0 : Rat) - Tbl.get 0 base n)

/-- The mutual delta of a node: 0 for a dead one, the last clean value for one in a stale row. -/
def nodeDelta (x : TouchCtrl) (fr : TouchFrame) (n : NodeRaw) : Rat :=
  if x.dead.contains (nodeKey n.i n.j) then 0
  else if fr.stale.contains n.j then (lookup (Tbl.get [] x.clean n.j) n.i).getD 0
  else Tbl.get 0 x.baseM (nodeKey n.i n.j) - (n.raw : Rat)

/-- R327: the nodes of a frame. -/
def touchNodes (x : TouchCtrl) (fr : TouchFrame) : List TouchNode :=
  fr.nodes.map (fun n =>
    let d := nodeDelta x fr n
    let m := decide (((fr.thresh.toNat % 65536 : Nat) : Rat) < d)
    let r := selfOver x.baseR fr.rows fr.thresh n.j
    let c := selfOver x.baseC fr.cols fr.thresh n.i
    ⟨n.i, n.j, d, m && r && c, (m && !r && !c) || (!m && r && c)⟩)

/-- Two nodes touch. -/
def adjacent (a b : TouchNode) : Bool :=
  let dx := a.i - b.i + (b.i - a.i)
  let dy := a.j - b.j + (b.j - a.j)
  decide (dx + dy = 1) || (Config.diagonalConnects && dx == 1 && dy == 1)

/-- A group grows by the nodes that touch it; what is left. -/
def growGroup : Nat → List TouchNode → List TouchNode → List TouchNode × List TouchNode
  | 0, g, rest => (g, rest)
  | f + 1, g, rest =>
    let near := rest.filter (fun n => g.any (adjacent n))
    if near.isEmpty then (g, rest) else growGroup f (g ++ near) (rest.filter (fun n => !g.any (adjacent n)))

/-- The connected groups of nodes. -/
def groupsOf : Nat → List TouchNode → List (List TouchNode)
  | 0, _ => []
  | _, [] => []
  | f + 1, n :: t =>
    let r := growGroup t.length [n] t
    r.1 :: groupsOf f r.2

/-- The connected groups of a list of nodes. -/
def connected (l : List TouchNode) : List (List TouchNode) := groupsOf l.length l

/-! ### Contacts (R327, R401) -/

/-- A centroid on the 1/64-node grid. -/
def gridCentroid (q : Rat) : Nat := q.floor.toNat + (decide ((q.floor : Rat) < q) && Config.centroidUp q).toNat

/-- The centroid of mutual delta along one axis. -/
def centroid (g : List TouchNode) (f : TouchNode → Nat) : Nat :=
  gridCentroid ((g.map (fun n => n.delta * ((64 * f n + 32 : Nat) : Rat))).sum / (g.map (·.delta)).sum)

/-- The width and height of the sensor after orientation. -/
def sensorSize (b : List Byte) : Nat × Nat :=
  if bit (u8 b 6) 0 = 1 then (64 * u8 b 0, 64 * u8 b 1) else (64 * u8 b 1, 64 * u8 b 0)

/-- R401: a position in oriented coordinates. -/
def orient (b : List Byte) (p : Nat × Nat) : Nat × Nat :=
  let z := sensorSize b
  let q := if bit (u8 b 6) 0 = 1 then (p.2, p.1) else p
  (if bit (u8 b 6) 1 = 1 then z.1 - 1 - q.1 else q.1, if bit (u8 b 6) 2 = 1 then z.2 - 1 - q.2 else q.2)

/-- The contact that a group forms; its id comes later. -/
def groupContact (b : List Byte) (stale : List Nat) (g : List TouchNode) : Contact :=
  let p := orient b (centroid g (·.i), centroid g (·.j))
  { id := 0, x := p.1, y := p.2, strength := Config.contactStrength (g.map (·.delta)), fresh := true,
    stale := g.any (fun n => stale.contains n.j), lifted := false }

/-- Insert by falling strength, after equals. -/
def byStrength (c : Contact) : List Contact → List Contact
  | [] => [c]
  | d :: t => if d.strength < c.strength then c :: d :: t else d :: byStrength c t

/-- The square of the distance of two contacts, in 1/64 node. -/
def dist2 (a b : Contact) : Nat :=
  (a.x - b.x + (b.x - a.x)) ^ 2 + (a.y - b.y + (b.y - a.y)) ^ 2

/-- The nearest contact of the previous frame, within 4 nodes. -/
def nearestOld (c : Contact) (old : List Contact) : Option Contact :=
  (old.filter (fun o => decide (dist2 c o ≤ 256 ^ 2))).foldl (fun m o =>
    match m with
    | none => some o
    | some n => if dist2 c o < dist2 c n then some o else some n) none

/-- Contacts keep the ids of those they continue: the contacts, and the old ones not continued. -/
def keepIds : List Contact → List Contact → List Contact × List Contact
  | [], old => ([], old)
  | c :: t, old =>
    match nearestOld c old with
    | none => let r := keepIds t old; (c :: r.1, r.2)
    | some o =>
      let r := keepIds t (old.filter (fun e => e.id != o.id))
      let k : Contact := { c with id := o.id, fresh := false }
      (k :: r.1, r.2)

/-- New contacts take the lowest free ids. -/
def newIds (used : List Nat) : List Contact → List Contact
  | [] => []
  | c :: t =>
    if c.fresh then
      let n := ((List.range 64).find? (fun k => !used.contains k)).getD 0
      { c with id := n } :: newIds (n :: used) t
    else c :: newIds used t

/-- R327: the contacts reported, the 16 of highest strength, with ids; those that ended follow as lifted while there is room (log
entry 64). -/
def nameContacts (l old : List Contact) : List Contact :=
  let r := keepIds ((l.foldl (fun a c => byStrength c a) []).take 16) (old.filter (fun c => !c.lifted))
  let named := newIds ((r.1.filter (fun c => !c.fresh)).map (·.id) ++ r.2.map (·.id)) r.1
  (named ++ r.2.map (fun (c : Contact) => { c with fresh := false, lifted := true })).take 16

/-! ### Baselines (R328 to R330) -/

/-- A node lies within 2 nodes of a covered one. -/
def nearCover (cover : List TouchNode) (i j : Nat) : Bool :=
  cover.any (fun n => decide (n.i ≤ i + 2) && decide (i ≤ n.i + 2) && decide (n.j ≤ j + 2) && decide (j ≤ n.j + 2))

/-- R328: the baseline of one node follows its raw value, unless it is frozen or its row is stale. -/
def followNode (fr : TouchFrame) (cover : List TouchNode) (n hold : Nat) (x : TouchCtrl) (r : NodeRaw) : TouchCtrl :=
  let k := nodeKey r.i r.j
  if nearCover cover r.i r.j then { x with frozen := Tbl.set 0 x.frozen k hold }
  else if 0 < Tbl.get 0 x.frozen k then { x with frozen := Tbl.set 0 x.frozen k (Tbl.get 0 x.frozen k - 1) }
  else if fr.stale.contains r.j then x
  else { x with baseM := Tbl.upd 0 x.baseM k (fun b => b + ((r.raw : Rat) - b) / (n : Rat)) }

/-- R328: the baselines of the projections of one direction. -/
def followLines (n : Nat) (base : Tbl Rat) (vals : List Nat) : Tbl Rat :=
  vals.zipIdx.foldl (fun t e => Tbl.upd 0 t e.2 (fun b => b + ((e.1 : Rat) - b) / (n : Rat))) base

/-- R330: one frame of one node: consecutive frames below −`neg_thresh`, then four frames whose mean becomes the baseline. -/
def negativeNode (fr : TouchFrame) (x : TouchCtrl) (n : TouchNode) (raw : Int) : TouchCtrl × Bool :=
  let k := nodeKey n.i n.j
  let loc := Tbl.get (0, 0) x.local_ k
  if 0 < loc.1 then
    if loc.1 = 1 then
      let b : Rat := ((loc.2 + raw : Int) : Rat) / 4
      ({ x with local_ := Tbl.set (0, 0) x.local_ k (0, 0), baseM := Tbl.set 0 x.baseM k b }, true)
    else ({ x with local_ := Tbl.set (0, 0) x.local_ k (loc.1 - 1, loc.2 + raw) }, false)
  else if n.delta < -((fr.thresh2.toNat / 65536 : Nat) : Rat) then
    if Tbl.get 0 x.negative k = 2 then
      ({ x with negative := Tbl.set 0 x.negative k 0, local_ := Tbl.set (0, 0) x.local_ k (4, 0) }, false)
    else ({ x with negative := Tbl.upd 0 x.negative k (· + 1) }, false)
  else ({ x with negative := Tbl.set 0 x.negative k 0 }, false)

/-- R330: all nodes; the nodes whose baseline was set. -/
def negativeNodes (fr : TouchFrame) (x : TouchCtrl) (l : List (TouchNode × NodeRaw)) : TouchCtrl × List TouchNode :=
  l.foldl (fun a e =>
    let r := negativeNode fr a.1 e.1 e.2.raw
    (r.1, if r.2 then a.2 ++ [e.1] else a.2)) (x, [])

/-- R329: one of the first 8 frames adds to the sums, unless it began before a rebaseline. -/
def sumFrame (x : TouchCtrl) (fr : TouchFrame) : TouchCtrl :=
  if 0 < x.skip then { x with skip := x.skip - 1 } else
  let add := fun (t : Tbl Rat) (l : List Nat) => l.zipIdx.foldl (fun t e => Tbl.upd 0 t e.2 (fun b => b + (e.1 : Rat))) t
  { x with
    frames := x.frames + 1
    baseM := fr.nodes.foldl (fun t n => Tbl.upd 0 t (nodeKey n.i n.j) (fun b => b + (n.raw : Rat))) x.baseM
    baseR := add x.baseR fr.rows
    baseC := add x.baseC fr.cols }

/-- A line exceeds the median of its neighbours by more than `self_thresh`, both in 1/8 count. -/
def suspectLine (sums : List Nat) (thresh : W32) (n : Nat) : Bool :=
  decide (Config.neighbourMedian sums n + 8 * (thresh.toNat / 65536) < sums.getD n 0)

/-- The sums of lines as numbers. -/
def lineSums (t : Tbl Rat) (n : Nat) : List Nat := (List.range n).map (fun k => (Tbl.get 0 t k).floor.toNat)

/-- R329: the 8th frame sets the baselines and checks them. -/
def firstBaseline (b : List Byte) (fr : TouchFrame) (x : TouchCtrl) : TouchCtrl :=
  let rows := lineSums x.baseR (u8 b 0)
  let cols := lineSums x.baseC (u8 b 1)
  let mean := fun (t : Tbl Rat) => t.map (fun e => (e.1, e.2 / 8))
  let base := mean x.baseM
  { x with
    baseM := base, baseR := mean x.baseR, baseC := mean x.baseC
    dead := (base.filter (fun e => decide (e.2 < (u16 b 24 : Rat)) || decide ((u16 b 26 : Rat) < e.2))).map (·.1)
    suspect := (List.range rows.length).filter (suspectLine rows fr.thresh) ++
      ((List.range cols.length).filter (suspectLine cols fr.thresh)).map (128 + ·) }

/-- The procedure of R329 starts anew, with the next frame (R330). -/
def rebaselined (x : TouchCtrl) : TouchCtrl :=
  { TouchCtrl.initial with skip := x.scans.length, scans := x.scans, staleRun := x.staleRun, cleanRun := x.cleanRun, contacts := [] }

/-! ### Rows and regions (R325, R331) -/

/-- Consecutive stale and clean frames of each row. -/
def countRows (tx : Nat) (fr : TouchFrame) (x : TouchCtrl) : TouchCtrl :=
  (List.range tx).foldl (fun x j =>
    if fr.stale.contains j then
      { x with staleRun := Tbl.upd 0 x.staleRun j (· + 1), cleanRun := Tbl.set 0 x.cleanRun j 0 }
    else { x with staleRun := Tbl.set 0 x.staleRun j 0, cleanRun := Tbl.upd 0 x.cleanRun j (· + 1) }) x

/-- Row j meets a region: its strip, in oriented coordinates. -/
def rowMeets (b region : List Byte) (j : Nat) : Bool :=
  let p := orient b (0, 64 * j)
  let q := orient b (0, 64 * j + 63)
  if bit (u8 b 6) 0 = 1 then decide (u16 region 2 ≤ max p.1 q.1) && decide (min p.1 q.1 ≤ u16 region 6)
  else decide (u16 region 4 ≤ max p.2 q.2) && decide (min p.2 q.2 ≤ u16 region 8)

/-- The rows that a region meets. -/
def regionRows (b region : List Byte) : List Nat := (List.range (u8 b 0)).filter (rowMeets b region)

/-- A contact lies in a region. -/
def inRegion (region : List Byte) (c : Contact) : Bool :=
  decide (u16 region 2 ≤ c.x) && decide (c.x ≤ u16 region 6) && decide (u16 region 4 ≤ c.y) && decide (c.y ≤ u16 region 8)

/-- Bit r of one of the two region registers of controller c. -/
def State.regionBit (s : State) (r : Reg) (c n : Nat) : Bool := s.hasBit r (n % 32) c (n / 32)

/-- Store it. -/
def State.setRegionBit (s : State) (r : Reg) (c n : Nat) (v : Bool) : State := s.bitTo r (n % 32) v c (n / 32)

/-- R325: regions become DEGRADED at a row's third stale frame, and leave it after four clean ones of all rows. -/
def State.degradeRegions (s : State) (c : Nat) (x : TouchCtrl) : State :=
  let b := s.recipe.tch c
  let s := forEach (s.recipe.regionsOf c) (fun g s =>
    let rows := regionRows b g
    if rows.any (fun j => decide (3 ≤ Tbl.get 0 x.staleRun j)) then s.setRegionBit .TCH_DEGRADED c (u8 g 1) true
    else if rows.all (fun j => decide (4 ≤ Tbl.get 0 x.cleanRun j)) then s.setRegionBit .TCH_DEGRADED c (u8 g 1) false
    else s) s
  let s := s.bitTo .TCH_STATUS (4 + c) (s.get .TCH_DEGRADED c 0 != 0 || s.get .TCH_DEGRADED c 1 != 0)
  onlyIf ((List.range (u8 b 0)).any (fun j => Tbl.get 0 x.staleRun j == 3)) (fun s => s.raise (328 + c)) s

/-- R339: the bindings of a region's change fire. -/
def State.fireBindings (s : State) (c r : Nat) (press : Bool) : State :=
  forEach ((List.range s.recipe.hapBindCount).map s.recipe.hapBind) (fun e s =>
    if u8 e 0 = c ∧ u8 e 1 = r ∧ bit (u8 e 5) (if press then 0 else 1) = 1 ∧ s.hapAccepts (u8 e 2) (u8 e 3) then
      s.hapFire (u8 e 2) (u8 e 3) (u8 e 4) (.binding c r)
    else s) s

/-- R331: a region changes: the event, its bindings, the island and the wake source. -/
def State.regionChange (s : State) (c : Nat) (g : List Byte) (press : Bool) : State :=
  let r := u8 g 1
  let s := (s.setRegionBit .TCH_REGION c r press).raise (324 + c)
  let s := s.fireBindings c r press
  let s := onlyIf (bit (u8 g 10) 0 == 1) (fun s => s.raise 333) s
  let s := onlyIf (bit (u8 g 10) 0 == 1 || bit (u8 g 10) 2 == 1)
    (fun s => { s with isl := { s.isl with touches := s.isl.touches ++ [(c, r, press)] } }) s
  onlyIf (bit (u8 g 10) 1 == 1) (fun s => s.wake 6) s

/-- R331: one region at a frame result. -/
def State.regionStep (s : State) (c : Nat) (l : List Contact) (g : List Byte) : State :=
  let r := u8 g 1
  if s.regionBit .TCH_DEGRADED c r then s
  else if s.regionBit .TCH_REGION c r then
    (if l.any (inRegion g) then s else s.regionChange c g false)
  else
    let dark := (s.recipe.regionsOf c).filter (fun h => s.regionBit .TCH_DEGRADED c (u8 h 1))
    if l.any (fun k => inRegion g k && !k.stale && !dark.any (fun h => inRegion h k)) then s.regionChange c g true else s

/-! ### The report (R332) -/

/-- The word of TCH_CONTACT_A. -/
def contactA (c : Contact) : W32 :=
  BitVec.ofNat 32 (c.id % 64 + 64 * c.fresh.toNat + 128 * c.lifted.toNat + 256 * c.stale.toNat + 65536 * min c.strength 65535)

/-- The word of TCH_CONTACT_B. -/
def contactB (c : Contact) : W32 := BitVec.ofNat 32 (c.x % 65536 + 65536 * c.y)

/-- The report block of a controller takes the result of a frame. -/
def State.report (s : State) (c : Nat) (fr : TouchFrame) (x : TouchCtrl) (water : Nat) (many : Bool) : State :=
  let s := ((s.fset F.TCH_CSTATUS.hop fr.hop c).fflag F.TCH_CSTATUS.water (decide (0 < water)) c).fflag
    F.TCH_CSTATUS.overflow many c
  let s := ((s.fflag F.TCH_CSTATUS.base_fault (!x.dead.isEmpty) c).fflag F.TCH_CSTATUS.suspect (!x.suspect.isEmpty) c).fset
    F.TCH_CSTATUS.stale_rows fr.stale.length c
  let s := (s.put64 .TCH_FRAME_ST_LO .TCH_FRAME_ST_HI fr.fs c).fset F.TCH_REPORT_HDR.contacts x.contacts.length c
  let s := (s.fset F.TCH_REPORT_HDR.water_nodes (min water 255) c).bump F.TCH_REPORT_HDR.frames c
  let s := s.bitTo .TCH_STATUS (8 + c) (!x.dead.isEmpty)
  (List.range 16).foldl (fun s k =>
    match x.contacts[k]? with
    | some d => (s.put .TCH_CONTACT_A (contactA d) c k).put .TCH_CONTACT_B (contactB d) c k
    | none => (s.put .TCH_CONTACT_A 0 c k).put .TCH_CONTACT_B 0 c k) s

end Sys2Proof.Machine
end

