-- ==== Sys2Proof/Machine/TchCmd.lean ====
section
/-! DEFINITION. The commands of touch sensing and of the haptic channels (15_touch_haptics.md). -/

namespace Sys2Proof.Machine

/-! ### Frames (R323 to R332) -/

/-- The codes of a frame after its re-runs (R324, R325). -/
def State.frameCodes (s : State) (c hop : Nat) (noise : List Nat) (codes : List CodeRuns) : Reruns :=
  let b := s.recipe.tch c
  let groups := ceilDiv (u8 b 0) 16
  let used : Rat := ((u16 b 4 * 1000 : Nat) : Rat) + cyclesNs b (groups * 16 * u8 b 2 + 2 * u8 b 3) hop
  let t := s.get .TCH_THRESH2 c
  rerunAll b noise t 7 ⟨firstRuns (u8 b 0) t hop groups codes, used, 0⟩

/-- A frame starts here: the controller scans, and has not scanned this grid point. -/
def State.frameDue (s : State) (c : Nat) : Bool :=
  s.tchRuns c && onTouchGrid s.gridTime.toNat && !(s.tc c).scans.any (fun f => f.fs == s.gridTime)

/-- TOUCH_FRAME (R323 to R325): listen, scan, re-run. -/
def State.touchFrame (s : State) (c : Nat) (noise : List Nat) (codes : List CodeRuns) (rows cols : List Nat) : State :=
  if s.frameDue c then
    let hop := (quietest noise []).getD 0
    let r := s.frameCodes c hop noise codes
    let fr : TouchFrame :=
      { fs := s.gridTime, hop := hop, thresh := s.get .TCH_THRESH c, thresh2 := s.get .TCH_THRESH2 c,
        stale := staleOf (u8 (s.recipe.tch c) 0) r.codes, nodes := r.codes.flatMap (·.nodes), rows := rows, cols := cols }
    let x := s.tc c
    let s := s.setTc c { x with scans := x.scans.drop (x.scans.length - 1) ++ [fr] }
    let s := (List.range 8).foldl (fun s k => s.put .TCH_NOISE (BitVec.ofNat 32 (min (noise.getD k 0) 65535)) c k) s
    s.bumpBy F.TCH_RERUN_COUNT.count r.made c
  else s

/-- TOUCH_FRAME (R323): the operands are the noise at each hop, the chips of every run, and the self readings. -/
def execTouchFrame (c : Fin 4) (noise : List Nat) (codes : List CodeRuns) (rows cols : List Nat) (s : State) :
    Host.Outcome State Fault Refusal :=
  done (fun s => s.touchFrame c noise codes rows cols) s

/-- R328: 240 Hz, or 120 Hz in Twilight. -/
def State.touchRate (s : State) : Nat := if s.pwr.state = 2 then 120 else 240

/-- R329: a result while the first 8 frames run. -/
def State.initialResult (s : State) (c : Nat) (fr : TouchFrame) (x : TouchCtrl) : State :=
  let x := sumFrame x fr
  let y := if x.frames = 8 then firstBaseline (s.recipe.tch c) fr x else x
  let s := (s.setTc c y).report c fr y 0 false
  onlyIf (y.frames == 8 && !y.dead.isEmpty) (fun s => s.raise 335) s

/-- The baselines and what the clean rows showed, after a result (R325, R328, R330). -/
def touchLearn (fr : TouchFrame) (nodes : List TouchNode) (n hold : Nat) (x : TouchCtrl) :
    TouchCtrl × List TouchNode :=
  let cover := nodes.filter (fun d => d.touched || d.water)
  let x := fr.nodes.foldl (followNode fr cover n hold) x
  let x := { x with baseR := followLines n x.baseR fr.rows, baseC := followLines n x.baseC fr.cols }
  let rows := (nodes.map (·.j)).dedup.filter (fun j => !fr.stale.contains j)
  let cleanRow := fun (j : Nat) => (nodes.filter (fun d => d.j == j)).map (fun d => (d.i, d.delta))
  let x := rows.foldl (fun (x : TouchCtrl) (j : Nat) => { x with clean := Tbl.set [] x.clean j (cleanRow j) }) x
  negativeNodes fr x (nodes.zip fr.nodes)

/-- R327 to R331: a result after the baseline stands. -/
def State.normalResult (s : State) (c : Nat) (fr : TouchFrame) (x : TouchCtrl) : State :=
  let b := s.recipe.tch c
  let nodes := touchNodes x fr
  let raw := (connected (nodes.filter (·.touched))).map (groupContact b fr.stale)
  let contacts := nameContacts raw x.contacts
  let water := (nodes.filter (·.water)).length
  let rate := s.touchRate
  let r := touchLearn fr nodes (8 * rate) (2 * rate) { x with contacts := contacts }
  let wet := s.fget F.TCH_REPORT_HDR.water_nodes c
  let s := (s.setTc c r.1).report c fr r.1 water (decide (16 < raw.length))
  let s := onlyIf (wet == 0 && decide (0 < water)) (fun s => s.raise 332) s
  let s := forEach (connected r.2) (fun _ s => s.raise 334) s
  forEach (s.recipe.regionsOf c) (fun g s => s.regionStep c (contacts.filter (fun k => !k.lifted)) g) s

/-- TOUCH_FRAME_RESULT (R323, step 5): of the frame whose result is due now. -/
def State.touchResult (s : State) (c : Nat) : State :=
  let x := s.tc c
  match x.scans.find? (fun f => resultTime f.fs == s.gridTime.toNat) with
  | none => s
  | some fr =>
    let x := countRows (u8 (s.recipe.tch c) 0) fr { x with scans := x.scans.filter (fun f => resultTime fr.fs < resultTime f.fs) }
    let s := (s.degradeRegions c x).bumpBy F.TCH_STALE_COUNT.count fr.stale.length c
    let s := if x.frames < 8 then s.initialResult c fr x else s.normalResult c fr x
    s.raise (320 + c)

/-- TOUCH_FRAME_RESULT (R327). -/
def execTouchFrameResult (c : Fin 4) (s : State) : Host.Outcome State Fault Refusal :=
  done (fun s => if s.up && s.flag F.TCH_CTRL.enable c && decide (s.pwr.state ≤ 2) then s.touchResult c else s) s

/-- R330: the baselines start afresh. -/
def State.rebaseline (s : State) (c : Nat) : State :=
  ((s.setTc c (rebaselined (s.tc c))).fset F.TCH_CSTATUS.base_fault 0 c).clearBit .TCH_STATUS (8 + c)

/-- REBASELINE (R330). -/
def execRebaseline (a : Agent) (c : Fin 4) (s : State) : Host.Outcome State Fault Refusal :=
  done (fun s => s.byManager a (s.clocked .TCH) (fun s => s.rebaseline c)) s

/-- CONTROLLER_ENABLE (R329): without effect on a controller absent from `ctrl_mask`. -/
def State.controllerEnable (s : State) (c : Nat) (en : Bool) : State :=
  if bit s.recipe.tchMask c = 0 then s
  else
    let was := s.flag F.TCH_CTRL.enable c
    let s := (s.fflag F.TCH_CTRL.enable en c).bitTo .TCH_STATUS c en
    if en && !was then s.setTc c TouchCtrl.initial else s

/-- CONTROLLER_ENABLE (R329). -/
def execControllerEnable (a : Agent) (c : Fin 4) (en : Bool) (s : State) : Host.Outcome State Fault Refusal :=
  done (fun s => s.byManager a (s.clocked .TCH) (fun s => s.controllerEnable c en)) s

/-- The words of a report block. -/
def State.reportWords (s : State) (c : Nat) : List (Reg × Nat × W32) :=
  [(.TCH_CSTATUS, 0, s.get .TCH_CSTATUS c), (.TCH_FRAME_ST_LO, 0, s.get .TCH_FRAME_ST_LO c),
   (.TCH_FRAME_ST_HI, 0, s.get .TCH_FRAME_ST_HI c), (.TCH_REPORT_HDR, 0, s.get .TCH_REPORT_HDR c),
   (.TCH_REGION, 0, s.get .TCH_REGION c 0), (.TCH_REGION, 1, s.get .TCH_REGION c 1),
   (.TCH_DEGRADED, 0, s.get .TCH_DEGRADED c 0), (.TCH_DEGRADED, 1, s.get .TCH_DEGRADED c 1)] ++
  (List.range 16).flatMap (fun k => [(.TCH_CONTACT_A, k, s.get .TCH_CONTACT_A c k), (.TCH_CONTACT_B, k, s.get .TCH_CONTACT_B c k)])

/-- R332: the whole block is latched for the agent. -/
def State.latchReport (s : State) (a : Agent) (c : Nat) : State :=
  ({ s with latches := ⟨a, c, s.reportWords c⟩ :: s.latches.filter (fun l => !(l.agent == a && l.ctrl == c)) }).answer a
    (s.get .TCH_REPORT_HDR c)

/-- TCH_REPORT_HDR_READ (R332). -/
def execTchReportHdrRead (a : Agent) (c : Fin 4) (s : State) : Host.Outcome State Fault Refusal :=
  done (fun s => s.byManager a (s.clocked .TCH) (fun s => s.latchReport a c)) s

/-! ### Wake gesture (R333) -/

/-- The lines whose self delta exceeds `self_thresh`, with their deltas. -/
def overLines (base : Tbl Rat) (vals : List Nat) (thresh : W32) : List (Nat × Rat) :=
  (vals.zipIdx.filter (fun e => selfOver base vals thresh e.2)).map (fun e => (e.2, (e.1 : Rat) - Tbl.get 0 base e.2))

/-- The centroid of projections. -/
def lineCentroid (l : List (Nat × Rat)) : Nat :=
  gridCentroid ((l.map (fun e => e.2 * ((64 * e.1 + 32 : Nat) : Rat))).sum / (l.map (·.2)).sum)

/-- A place lies in the wake region of the wake controller. -/
def State.inWakeRegion (s : State) (p : Nat × Nat) : Bool :=
  (s.recipe.regionsOf s.recipe.wakeCtrl).any (fun g => u8 g 1 == s.recipe.wakeRegion &&
    inRegion g { id := 0, x := p.1, y := p.2, strength := 0, fresh := false, stale := false, lifted := false })

/-- R333: the contact of a self scan: coinciding row and column projections above `self_thresh`, within the wake region. -/
def State.wakeContact (s : State) (rows cols : List Nat) : Option (Nat × Nat) :=
  let c := s.recipe.wakeCtrl
  let x := s.tc c
  let t := s.get .TCH_THRESH c
  let r := overLines x.baseR rows t
  let k := overLines x.baseC cols t
  if r.isEmpty || k.isEmpty then none
  else
    let p := orient (s.recipe.tch c) (lineCentroid k, lineCentroid r)
    if s.inWakeRegion p then some p else none

/-- A time in ms. -/
def msNs (n : Nat) : Nat := n * 1000000

/-- Swipe: direction 0 +x, 1 −x, 2 +y, 3 −y, of at least n nodes. -/
def swiped (dir n : Nat) (p q : Nat × Nat) : Bool :=
  if dir = 0 then decide (p.1 + 64 * n ≤ q.1) else if dir = 1 then decide (q.1 + 64 * n ≤ p.1)
  else if dir = 2 then decide (p.2 + 64 * n ≤ q.2) else decide (q.2 + 64 * n ≤ p.2)

/-- Two places within 4 nodes. -/
def within4 (p q : Nat × Nat) : Bool :=
  decide ((p.1 - q.1 + (q.1 - p.1)) ^ 2 + (p.2 - q.2 + (q.2 - p.2)) ^ 2 ≤ 256 ^ 2)

/-- R333: a contact that ended makes a double tap with the one before. -/
def doubleTap (a b : ST × ST × Nat × Nat) : Bool :=
  decide ((a.2.1 - a.1).toNat ≤ msNs 300) && decide ((b.2.1 - b.1).toNat ≤ msNs 300) &&
    decide ((b.1 - a.2.1).toNat ≤ msNs 500) && within4 a.2.2 b.2.2

/-- R333: a scan with a contact: it lasts, and may have swiped. -/
def State.wakeTouch (s : State) (p : Nat × Nat) : State :=
  let c := s.recipe.wakeCtrl
  let x := s.tc c
  let recent := x.trail.filter (fun e => decide ((s.gridTime - e.1).toNat ≤ msNs 500))
  let s := s.setTc c { x with trail := (s.gridTime, p) :: x.trail }
  onlyIf (s.recipe.wakeGesture == 2 && recent.any (fun e => swiped s.recipe.swipeDir s.recipe.swipeLen e.2 p)) (fun s => s.wake 7) s

/-- R333: a scan without a contact: the one that lasted has ended at its last scan. -/
def State.wakeLift (s : State) : State :=
  let c := s.recipe.wakeCtrl
  let x := s.tc c
  match x.trail, x.trail.getLast? with
  | h :: _, some f =>
    let b := (f.1, h.1, h.2)
    let s := s.setTc c { x with trail := [], tap := some b }
    onlyIf (s.recipe.wakeGesture == 1 && (match x.tap with | some a => doubleTap a b | none => false)) (fun s => s.wake 7) s
  | _, _ => s

/-- R333: the self scan is due: in Night, on the grid of every 12th k. -/
def State.wakeScanDue (s : State) : Bool :=
  s.up && s.pwr.state == 3 && decide (s.recipe.wakeCtrl < 4) && onTouchGrid s.gridTime.toNat &&
    touchIndex s.gridTime.toNat % 12 == 0

/-- WAKE_GESTURE_SCAN (R333): the operands are the self readings of the wake controller. -/
def State.wakeScan (s : State) (rows cols : List Nat) : State :=
  if s.wakeScanDue then
    match s.wakeContact rows cols with
    | some p => s.wakeTouch p
    | none => s.wakeLift
  else s

/-- WAKE_GESTURE_SCAN (R333): in Night, wake source bit 7. -/
def execWakeGestureScan (rows cols : List Nat) (s : State) : Host.Outcome State Fault Refusal :=
  done (fun s => s.wakeScan rows cols) s

/-! ### Haptic channels (R334 to R337) -/

/-- HAP_CH_FIRE (R336, R337). -/
def State.registerFire (s : State) (n w amp : Nat) : State :=
  if s.hapAccepts n w then s.hapFire n w amp .register else s.fset F.HAP_CH_STATUS.refused 1 n

/-- HAP_CH_FIRE (R336). -/
def execHapChFire (a : Agent) (ch : Fin 16) (waveform amplitude : Byte) (s : State) : Host.Outcome State Fault Refusal :=
  done (fun s => s.byManager a s.awake (fun s => s.registerFire ch waveform.toNat amplitude.toNat)) s

/-- R334: the waveform is over. -/
def State.hapFinish (s : State) (n : Nat) : State := (s.hapEnter n hapIdle).raise 336

/-- The waveform that a channel plays. -/
def State.hapWave (s : State) (n : Nat) : List Byte := s.recipe.wave (s.fget F.HAP_CH_STATUS.waveform n)

/-- R334: the brake, or the end where the waveform has none. -/
def State.hapToBrake (s : State) (n : Nat) : State :=
  let s := s.setHap n { s.hapCh n with cycles := 0 }
  if 0 < waveBrake (s.hapWave n) then s.hapEnter n hapBrake else s.hapFinish n

/-- R334: the drive after the overdrive, or the brake where no cycle is left. -/
def State.hapToDrive (s : State) (n : Nat) : State :=
  if waveOd (s.hapWave n) < waveCycles (s.hapWave n) then (s.setHap n { s.hapCh n with cycles := 0 }).hapEnter n hapDrive
  else s.hapToBrake n

/-- R334: `stop` ends what plays with its brake. -/
def State.hapStop (s : State) (n : Nat) : State :=
  if s.hapPlaying n && s.hapState n != hapBrake then s.hapToBrake n else s

/-- HAP_STOP (R334). -/
def execHapStop (a : Agent) (ch : Fin 16) (s : State) : Host.Outcome State Fault Refusal :=
  done (fun s => s.byManager a s.awake (fun s => s.hapStop ch)) s

/-- R335: `clear_fault` brings a channel back from FAULT. -/
def State.hapClear (s : State) (n : Nat) : State := if s.hapState n = hapFault then s.hapEnter n hapIdle else s

/-- CLEAR_FAULT (R335). -/
def execClearFault (a : Agent) (ch : Fin 16) (s : State) : Host.Outcome State Fault Refusal :=
  done (fun s => s.byManager a s.awake (fun s => s.hapClear ch)) s

/-- R335: a sample held at the limit. -/
def State.hapLimit (s : State) (n mA : Nat) : State :=
  let x := s.hapCh n
  if hapImax (s.recipe.hapCh n) ≤ mA then
    let s := (s.fset F.HAP_CH_STATUS.overcurrent 1 n).setHap n { x with limited := true, ocRaised := true }
    onlyIf (!x.ocRaised) (fun s => s.raise 337) s
  else s

/-- R335: the checks at the end of a cycle: peak, open load after the first cycle, and three cycles at the limit. -/
def State.hapCycleChecks (s : State) (n : Nat) : State :=
  let x := s.hapCh n
  let s := s.fset F.HAP_CH_PEAK_I.ma (min x.peak 65535) n
  let isOpen := !x.firstDone && decide (x.peak < hapImin (s.recipe.hapCh n))
  let s := onlyIf isOpen (fun s => (s.fset F.HAP_CH_STATUS.open_ 1 n).raise 340) s
  let run := if x.limited then x.limitRun + 1 else 0
  let s := s.setHap n { x with limited := false, limitRun := run, peak := 0, firstDone := true, cycles := x.cycles + 1 }
  if 3 ≤ run then (s.hapEnter n hapFault).raise 338 else s

/-- R334: the phase of the waveform after a cycle. -/
def State.hapNextPhase (s : State) (n : Nat) : State :=
  let done_ := (s.hapCh n).cycles
  let w := s.hapWave n
  if s.hapState n = hapOverdrive then (if waveOd w ≤ done_ then s.hapToDrive n else s)
  else if s.hapState n = hapDrive then (if waveCycles w - waveOd w ≤ done_ then s.hapToBrake n else s)
  else if s.hapState n = hapBrake then (if waveBrake w ≤ done_ then s.hapFinish n else s)
  else s

/-- DRIVE_SAMPLE (R334, R335): one sample of 5 µs with the sensed current. -/
def State.driveSample (s : State) (n mA : Nat) : State :=
  if s.hapPlaying n then
    let s := s.hapLimit n mA
    let x := s.hapCh n
    let f := waveFreq (s.hapWave n)
    let y : HapCh := { x with peak := max x.peak mA, phase := (x.phase + f) % 200000, prog := (x.prog + f) % 200000 }
    let s := (s.setHap n y).hapPins n (s.hapState n)
    if 200000 ≤ x.prog + f then (s.hapCycleChecks n).hapNextPhase n else s
  else s

/-- DRIVE_SAMPLE (R335). -/
def execDriveSample (ch : Fin 16) (milliAmp : Nat) (s : State) : Host.Outcome State Fault Refusal :=
  done (fun s => s.whenAwake (fun s => s.driveSample ch milliAmp)) s

end Sys2Proof.Machine
end

