-- ==== Sys2Proof/Machine/RegWrite.lean ====
section
/-! DEFINITION. What a write does to each register of the map (R7, R8, R10, R52), block by block. A register whose write has
a row of its own does what that row does. In every function `g` is the mask of the bits that the writer may change and `w`
the written value under it. -/

namespace Sys2Proof.Machine

/-- The plain effect of a write (R7, R8). -/
def State.plain (s : State) (key : RegKey) (g v : W32) : State :=
  s.put key.reg (nextWord key.reg g (s.get key.reg key.i key.k) v) key.i key.k

/-- A write that takes effect only under a condition. -/
def State.plainIf (s : State) (c : Bool) (key : RegKey) (g v : W32) : State := if c then s.plain key g v else s

/-- A field of the value written lies in a range. -/
def Fld.within (f : Fld) (v : W32) (lo hi : Nat) : Bool := decide (lo ≤ f.of v) && decide (f.of v ≤ hi)

/-! ### SYS, CUE, FAB and ISL -/

/-- SYS (R50, R51, R53). -/
def State.writeSys (s : State) (key : RegKey) (g v : W32) : State :=
  match key.reg with
  | .SYS_RESET_CTRL => s.fullReset (v &&& g)
  | .SYS_RCP_CTRL =>
    onlyIf ((v &&& g).getLsbD 1) State.toLoaderReset (onlyIf ((v &&& g).getLsbD 0) State.pushStart s)
  | _ => s.plain key g v

/-- The window that a copy of the cue registers belongs to. -/
def cueWindowAt (i : Nat) : Option CueWindow :=
  if i = 0 then some .manager
  else if h : i < 9 then some (.partition ⟨i - 1, by omega⟩)
  else if h : i < 73 then some (.guest ⟨i - 9, by omega⟩)
  else if i = 73 then some .island else none

/-- An operation that a write of CUE_ARM_CTRL names (R105). -/
def State.cueOperation (s : State) (w : CueWindow) (v : W32) : State :=
  let slot := F.CUE_ARM_CTRL.slot.of v
  let window := BitVec.ofNat 7 (F.CUE_ARM_CTRL.window.of v)
  match F.CUE_ARM_CTRL.op.of v with
  | 1 => s.cueArm w
  | 2 => s.cueModify w slot window
  | 3 => s.cueCancel w slot window
  | 4 => s.cueRead w slot window
  | _ => s

/-- CUE (R105). -/
def State.writeCue (s : State) (a : Agent) (key : RegKey) (g v : W32) : State :=
  match key.reg with
  | .CUE_CLR => onlyIf ((v &&& g).getLsbD 0) (fun s => s.cueClr a) s
  | .CUE_ENTRY =>
    match cueWindowAt key.i with
    | some w => s.plainIf (s.windowOpen w) key g v
    | none => s
  | .CUE_ARM_CTRL =>
    match cueWindowAt key.i with
    | some w => s.cueOperation w (v &&& g)
    | none => s
  | _ => s.plain key g v

/-- R131: a port is disabled, and its link with it. -/
def State.portDisable (s : State) (p : Nat) : State :=
  (if s.linked p then (s.linkGone p 0).raise 73 else s.setPort p 0).fset F.FAB_PORT_STATUS.reason 0 p

/-- R131: a port that becomes enabled waits for block lock. -/
def State.portTurn (s : State) (was : State) (p : Nat) : State :=
  if was.portEnabled p && !s.portEnabled p then onlyIf s.fab.enabled (fun s => s.portDisable p) s
  else if !was.portEnabled p && s.portEnabled p then onlyIf s.fab.enabled (fun s => s.setPort p portDown) s
  else s

/-- FAB (R131, R138, R147). -/
def State.writeFab (s : State) (a : Agent) (key : RegKey) (g v : W32) : State :=
  match key.reg with
  | .FAB_CTRL => forEach (List.range 8) (fun p t => t.portTurn s p) (s.plain key g v)
  | .FAB_PEER_RELEASE =>
    onlyIf ((v &&& g).getLsbD 31) (fun s => s.peerRelease a (BitVec.ofNat 12 (F.FAB_PEER_RELEASE.star.of v))) s
  | .FAB_SLOT_SEND => onlyIf ((v &&& g).getLsbD 0) (fun s => s.slotSendWrite a key.i) s
  | _ => s.plain key g v

/-- ISL (R244). -/
def State.writeIsl (s : State) (key : RegKey) (g v : W32) : State :=
  match key.reg with
  | .ISL_MBOX_TX_CTRL => onlyIf ((v &&& g).getLsbD 0) (fun s => s.mailSend key.i (s.mailTx key.i)) s
  | .ISL_MBOX_RX_POP => onlyIf ((v &&& g).getLsbD 0) (fun s => s.mailPop key.i) s
  | _ => s.plain key g v

/-! ### GFX, CMP, OUT and MEM -/

/-- R154: the ring and save registers are writable in IDLE with an empty ring. -/
def State.ctxRestful (s : State) (c : Nat) : Bool := s.ctxState c == ctxIdle && s.get .CTX_HEAD c == s.get .CTX_TAIL c

/-- CTX_CTRL (R172): the bits act from the lowest on. -/
def State.ctxCtrlWrite (s : State) (c : Nat) (w : W32) : PacketEffect :=
  let f (s : State) : PacketEffect := if w.getLsbD 0 then s.ctxFreezeOp c else noStore s
  chain [f, fun s => noStore (onlyIf (w.getLsbD 1) (fun s => s.ctxResumeOp c) s),
    fun s => noStore (onlyIf (w.getLsbD 2) (fun s => s.ctxDestroyOp c) s)] s

/-- GFX but CTX_CTRL (R149, R154, R167, R169, R170). -/
def State.writeGfx (s : State) (key : RegKey) (g v : W32) : State :=
  match key.reg with
  | .GFX_CTRL => s.plainIf (F.GFX_CTRL.yield_timeout_ms.within v 1 10000) key g v
  | .GFX_CLK => s.plainIf (F.GFX_CLK.mhz.within v 200 1800 && F.GFX_CLK.mhz.of v % 50 == 0) key g v
  | .GFX_CTX_ALLOC =>
    onlyIf ((v &&& g).getLsbD 31) (fun s => s.ctxAlloc (F.GFX_CTX_ALLOC.owner.of v) (F.GFX_CTX_ALLOC.queue.of v)) s
  | .CTX_CFG => (s.plain key g v).schedule
  | .CTX_SLICE => s.plainIf (F.CTX_SLICE.slice_us.within v 100 100000) key g v
  | .CTX_RING_LO | .CTX_RING_HI | .CTX_SAVE_LO | .CTX_SAVE_HI => s.plainIf (s.ctxRestful key.i) key g v
  | .CTX_RING_SIZE => s.plainIf (s.ctxRestful key.i && F.CTX_RING_SIZE.log2_dwords.within v 10 22) key g v
  | _ => s.plain key g v

/-- CMP (R187, R189, R193, R201). -/
def State.writeCmp (s : State) (key : RegKey) (g v : W32) : State :=
  match key.reg with
  | .CMP_OUT_CTRL => s.plainIf (F.CMP_OUT_CTRL.dither_mode.within v 0 2) key g v
  | .LAYER_COMMIT => onlyIf ((v &&& g).getLsbD 0) (fun s => s.commitLayer key.i) s
  | .SUB_CTRL =>
    if (v &&& g).getLsbD 31 then s.submission key.i (v &&& g)
    else onlyIf ((v &&& g).getLsbD 18) (fun s => s.flushLayer key.i) s
  | .REL_POP => onlyIf ((v &&& g).getLsbD 0) (fun s => s.relPop key.i) s
  | _ => s.plain key g v

/-- OUT_CTRL (R213, R216): polarities and `enable`, then `apply`, then `retrain`. -/
def State.outCtrlWrite (s : State) (key : RegKey) (g v : W32) : State :=
  let en := (nextWord .OUT_CTRL g (s.get .OUT_CTRL key.i) v).getLsbD 0
  let t := (s.plain key g v).bitTo .OUT_CTRL 0 (s.hasBit .OUT_CTRL 0 key.i) key.i
  let t := if en != s.hasBit .OUT_CTRL 0 key.i then forEach (t.halves key.i) (fun h s => s.enableOut h en) t else t
  let t := onlyIf ((v &&& g).getLsbD 1) (fun s => s.applyTiming key.i) t
  onlyIf ((v &&& g).getLsbD 2) (fun s => s.retrain key.i) t

/-- OUT (R213, R214, R219). -/
def State.writeOut (s : State) (key : RegKey) (g v : W32) : State :=
  match key.reg with
  | .OUT_CTRL => if s.oddHalf key.i then s else (s.outCtrlWrite key g v).refreshIsl
  | .OUT_TIMING_H0 | .OUT_TIMING_H1 | .OUT_TIMING_V0 | .OUT_TIMING_V1 | .OUT_PCLK =>
    s.plainIf (!s.oddHalf key.i) key g v
  | .OUT_FRZ_CLR => onlyIf ((v &&& g).getLsbD 0) (fun s => s.frzClear key.i) s
  | _ => s.plain key g v

/-- MEM (R252). -/
def State.writeMem (s : State) (key : RegKey) (g v : W32) : State :=
  match key.reg with
  | .MEM_RETRAIN_CTRL => s.plainIf (F.MEM_RETRAIN_CTRL.interval_ms.within v 50 500) key g v
  | _ => s.plain key g v

/-- CPX (R280). -/
def State.writeCpx (s : State) (key : RegKey) (g v : W32) : State :=
  match key.reg with
  | .CPX_DBG_EN => s.lowerDebug (v &&& g).toNat
  | _ => s.plain key g v

/-! ### VIR and the pages of an instance -/

/-- VIR_INST_CTRL (R286, R298 to R303): the lowest bit set acts. A restore finds free bytes in host memory. -/
def State.instCtrlWrite (s : State) (a : Agent) (i : Nat) (w : W32) : PacketEffect :=
  if w.getLsbD 0 then s.managed a (fun s => s.control i [instActive] (fun s => s.freezeInst i))
  else if w.getLsbD 1 then s.managed a (fun s => s.control i [instFrozen] (fun s => noStore (s.resumeInst i)))
  else if w.getLsbD 2 then s.managed a (fun s => s.control i [instFrozen] (fun s => noStore (s.saveInst i)))
  else if w.getLsbD 3 then
    let n := s.fget F.VIR_INST_BUF_LEN.len i
    State.managed { s with draws := s.draws + n } a (fun t => t.control i [instActive] (fun t =>
      noStore (t.restoreInst i (freeBytes s.draws n))))
  else if w.getLsbD 4 then
    s.managed a (fun s => s.control i [instActive, instFreezing, instFrozen] (fun s =>
      noStore ((s.setInst i instDestroying).resetSteps i)))
  else noStore s

/-- VIR but VIR_INST_CTRL (R285, R289, R292). -/
def State.writeVir (s : State) (key : RegKey) (g v : W32) : State :=
  match key.reg with
  | .VIR_PORT_CFG => if g = 0 then s else s.portCfg key.i v
  | .VIR_CREATE_CTRL =>
    onlyIf ((v &&& g).getLsbD 31) (fun s => s.create (s.fget F.VIR_CREATE_CTRL.inst)) (s.plain key g v)
  | .VIR_MB_RX_POP => onlyIf ((v &&& g).getLsbD 0) (fun s => s.managerPop key.i) s
  | .VIR_MB_TX => s.plainIf (!s.flag F.VIR_MB_STATUS.tx_busy key.i) key g v
  | .VIR_MB_TX_GO => onlyIf ((v &&& g).getLsbD 0) (fun s => s.managerGo key.i) s
  | _ => s.plain key g v

/-- The pages of owner o (R287 to R289, R293, R294). -/
def State.writePage (s : State) (key : RegKey) (g v : W32) : State :=
  let o := key.i
  if g = 0 then s
  else match key.reg with
  | .DOORBELL => s.doorbell o key.k (v.truncate 32)
  | .TT_ROOT_LO => s.rootWrite o false v
  | .TT_ROOT_HI => s.rootWrite o true v
  | .INV_CTRL => onlyIf (v.getLsbD 0) (fun s => s.invGo o) s
  | .TFAULT_INFO =>
    let t := s.plainIf (s.pageOneOpen o) key g v
    t.fset F.INST_STATUS.tfault (t.fget F.TFAULT_INFO.valid o) o
  | .INST_MB_TX => s.plainIf (s.pageTwoOpen o && !s.flag F.INST_MB_TX_STATUS.tx_busy o) key g v
  | .INST_MB_TX_CTRL => onlyIf (v.getLsbD 0) (fun s => s.guestGo o) s
  | .INST_MB_RX_POP => onlyIf (v.getLsbD 0) (fun s => s.guestPop o) s
  | .INST_MSIX_ADDR_LO | .INST_MSIX_ADDR_HI | .INST_MSIX_DATA | .INST_MSIX_CTRL =>
    s.plainIf (decide (o < 64) && s.pagesOpen o) key g v
  | _ => s.plainIf (s.pageOneOpen o) key g v

/-! ### DMA and CRC -/

/-- The channel belongs to an instance. -/
def State.instanceChan (s : State) (c : Nat) : Bool := decide (1 ≤ s.dmaHolder c) && decide (s.dmaHolder c < 64)

/-- DMA (R308, R310, R312, R316, R318). -/
def State.writeDma (s : State) (key : RegKey) (g v : W32) : State :=
  let c := key.i
  match key.reg with
  | .CH_BASE_LO | .CH_BASE_HI | .CH_CQ_LO | .CH_CQ_HI => s.plainIf (s.chState c == chIdle) key g v
  | .CH_START => onlyIf ((v &&& g).getLsbD 0) (fun s => s.dmaTrigger c) s
  | .CH_CFG => s.plain key (if s.instanceChan c then g &&& ~~~4#32 else g) v
  | .CH_CTRL =>
    let t := onlyIf ((v &&& g).getLsbD 0) (fun s => (s.dmaPause c).frozenCheckOwner (s.dmaHolder c)) s
    onlyIf ((v &&& g).getLsbD 1) (fun s => s.dmaResume c) t
  | .TIMER_PERIOD =>
    if g = 0 ∨ (1 ≤ v.toNat ∧ v.toNat ≤ 999) then s
    else
      (s.plain key g v).timerHold c key.k (s.tim.st + 1000)
  | .TIMER_PHASE_LO | .TIMER_PHASE_HI =>
    if g = 0 then s
    else
      (s.plain key g v).timerHold c key.k (s.tim.st + 1000)
  | _ => s.plain key g v

/-- CRC (R319 to R321). -/
def State.writeCrc (s : State) (key : RegKey) (g v : W32) : State :=
  let n := key.i
  if g = 0 then s
  else match key.reg with
  | .CRC_CFG | .CRC_POLY | .CRC_INIT | .CRC_XOR => s.crcWrite n (fun s => s.plain key g v)
  | .CRC_DATA => s.crcWrite n (fun s => s.crcFeed n (leBytes 4 v.toNat))
  | .CRC_DATA_B => s.crcWrite n (fun s => s.crcFeed n (leBytes 1 v.toNat))
  | .CRC_CTRL =>
    onlyIf (v.getLsbD 1) (fun s => s.crcCheck n) (onlyIf (v.getLsbD 0) (fun s => s.crcWrite n (fun s => s.crcLoad n)) s)
  | _ => s.plain key g v

/-! ### TCH, HAP and SIO -/

/-- TCH (R329, R330). -/
def State.writeTch (s : State) (key : RegKey) (g v : W32) : State :=
  match key.reg with
  | .TCH_CTRL =>
    if g = 0 then s
    else onlyIf (v.getLsbD 1) (fun s => s.rebaseline key.i) (s.controllerEnable key.i (v.getLsbD 0))
  | _ => s.plain key g v

/-- HAP (R334 to R336). -/
def State.writeHap (s : State) (key : RegKey) (g v : W32) : State :=
  match key.reg with
  | .HAP_CH_FIRE =>
    onlyIf ((v &&& g).getLsbD 31)
      (fun s => s.registerFire key.i (F.HAP_CH_FIRE.waveform.of v) (F.HAP_CH_FIRE.amplitude.of v)) s
  | .HAP_CH_CTRL =>
    onlyIf ((v &&& g).getLsbD 1) (fun s => s.hapClear key.i) (onlyIf ((v &&& g).getLsbD 0) (fun s => s.hapStop key.i) s)
  | _ => s.plain key g v

/-- FADER_MOVED (R354): the value at the clear is the reference of each fader cleared. -/
def State.faderWrite (s : State) (key : RegKey) (g v : W32) : State :=
  let cleared := s.get .FADER_MOVED 0 key.k &&& v &&& g
  forEach ((List.range 32).filter (fun b => cleared.getLsbD b)) (fun b s => s.faderCleared (32 * key.k + b)) (s.plain key g v)

/-- SIO (R343 to R359). -/
def State.writeSio (s : State) (key : RegKey) (g v : W32) : State :=
  let n := key.i
  if g = 0 then s
  else match key.reg with
  | .DMX_CFG => s.plainIf (F.DMX_CFG.slot_count.within v 1 512) key g v
  | .DMX_TIMING => s.plainIf (F.DMX_TIMING.break_us.within v 92 1000 && F.DMX_TIMING.mab_us.within v 12 1000) key g v
  | .DMX_CTRL =>
    onlyIf (v.getLsbD 1) (fun s => s.rdmQueue n (v.getLsbD 2)) (onlyIf (v.getLsbD 0) (fun s => s.dmxRegisterCommit n) s)
  | .MIDI_TX => s.midiSend n (v.truncate 8)
  | .LTC_OUT_ANCHOR_LO | .LTC_OUT_ANCHOR_HI | .LTC_OUT_START | .LTC_OUT_USER => (s.plain key g v).ltcOutWritten n
  | .FADER_MOVED => s.faderWrite key g v
  | .BUS_CTRL => onlyIf (v.getLsbD 0) (fun s => (s.i2cGo n).spiGo n) s
  | .GPIO_OUT => s.gpioDrive n (BitVec.allOnes 32) v
  | .GPIO_SET => s.gpioDrive n v v
  | .GPIO_CLR => s.gpioDrive n v 0
  | _ => s.plain key g v

/-! ### AUD, EVT and PMU -/

/-- BUS_IN and OUT_SEL (R368, R369): a refused selection makes the write have no effect but its report. -/
def State.muxRegister (s : State) (key : RegKey) (g v : W32) (m : MuxPoint) (pt : GainPoint) (sel : Nat) : State :=
  if s.muxAllows m sel then
    let gain : BitVec 16 := (v >>> 16).truncate 16
    ((s.plain key (g &&& (if key.reg = .BUS_IN then 0x100#32 else 0x40#32)) v).muxWrite m sel).gainWrite pt gain
  else s.muxRefuse m

/-- AUD (R367 to R371). -/
def State.writeAud (s : State) (key : RegKey) (g v : W32) : State :=
  let n := key.i
  if g = 0 then s
  else match key.reg with
  | .BUS_IN =>
    let b := Fin.ofNat 32 n
    let k := Fin.ofNat 16 key.k
    s.muxRegister key g v (.busIn b k) (.busIn b k) (F.BUS_IN.source.of v)
  | .OUT_SEL =>
    let o := Fin.ofNat 160 n
    s.muxRegister key g v (.out o) (.out o) (F.OUT_SEL.bus.of v)
  | .BUS_GAIN => s.gainWrite (.bus (Fin.ofNat 32 n)) (v.truncate 16)
  | .BUS_DELAY => s.delayWrite n (F.BUS_DELAY.samples.of v)
  | .BUS_EQ_COMMIT => onlyIf (v.getLsbD 0) (fun s => s.eqCommit n) s
  | .PLAYER_CTRL =>
    let clip := F.PLAYER_CTRL.clip.of v
    let t := s.plain key g v
    let t := onlyIf (v.getLsbD 16) (fun s => (s.audioStart n clip).2) t
    let t := onlyIf (v.getLsbD 17) (fun s => (s.audioStop n (s.fget F.PLAYER_FADE.ms n)).2) t
    onlyIf (v.getLsbD 18) (fun s => s.playPrime n clip) t
  | .TONE_CFG =>
    let t := s.plain key g v
    if s.fget F.TONE_CFG.hz n = t.fget F.TONE_CFG.hz n then t
    else { t with aud := { t.aud with tonePhase := Tbl.set 0 t.aud.tonePhase n 0 } }
  | .AES_CFG =>
    let listed := if n < 4 then bit s.recipe.aesRx n else bit s.recipe.aesTx (n - 4)
    let t := s.plain key (if listed = 1 then g else g &&& ~~~1#32) v
    if t.flag F.AES_CFG.enable n then t
    else if n < 4 then { t with aud := { t.aud with buffers := Tbl.set [] t.aud.buffers n [] } }
    else { t with aud := { t.aud with txHeld := Tbl.set [] t.aud.txHeld (n - 4) [] } }
  | _ => s.plain key g v

/-- EVT (R379, R382, R384, R385). -/
def State.writeEvt (s : State) (a : Agent) (key : RegKey) (g v : W32) : State :=
  match key.reg with
  | .EVT_CUE_OFFSET => s.plainIf (decide (2000 ≤ v.toNat)) key g v
  | .PMC_GLOBAL => onlyIf ((v &&& g).getLsbD 1) State.pmcResetAll (s.plain key g v)
  | .PSAMP_PERIOD => s.plainIf (F.PSAMP_PERIOD.period.within v 1 16777215) key g v
  | .PSAMP_BASE_LO =>
    if s.flag F.PSAMP_CTRL.enable ∨ g = 0 then s
    else
      let t := s.plain key g v
      { t with evt := { t.evt with sampInner := s.agentInner a } }
  | .PSAMP_BASE_HI => s.plainIf (!s.flag F.PSAMP_CTRL.enable) key g v
  | .BW_CTRL => (s.plain key g v).bwEnable (s.flag F.BW_CTRL.enable)
  | .BW_WINDOW => s.plainIf (F.BW_WINDOW.window_us.within v 1 1000000) key g v
  | _ => s.plain key g v

/-- PMU (R67, R74): which enabled sources pend at a request is a free value. -/
def State.writePmu (s : State) (key : RegKey) (g v : W32) : State :=
  match key.reg with
  | .PMU_STATE_CTRL =>
    let t := s.plain key g v
    if (v &&& g).getLsbD 3 then
      t.drawn.entryRequest (F.PMU_STATE_CTRL.target.of v) (BitVec.ofNat 11 (Config.freeNat t.draws))
    else t
  | .PMU_STATE_STATUS =>
    onlyIf ((v &&& g).getLsbD 11) (fun s => s.fset F.PMU_STATE_STATUS.refused 0) (s.plain key g v)
  | .PMU_WAKE_EN => s.plain key g (v &&& BitVec.ofNat 32 s.recipe.wakeAllowed)
  | _ => s.plain key g v

/-! ### Every register -/

/-- What a write does to the register copy it reaches. -/
def State.writeReg (s : State) (a : Agent) (key : RegKey) (via : Option Nat) (v : W32) : PacketEffect :=
  let g := grant a key via
  match key.reg.info.block with
  | .SYS => noStore (s.writeSys key g v)
  | .TIME => noStore (s.plain key g v)
  | .CUE => noStore (s.writeCue a key g v)
  | .FAB => noStore (s.writeFab a key g v)
  | .ISL => noStore (s.writeIsl key g v)
  | .GFX => if key.reg = .CTX_CTRL then s.ctxCtrlWrite key.i (v &&& g) else noStore (s.writeGfx key g v)
  | .CMP => noStore (s.writeCmp key g v)
  | .OUT => noStore (s.writeOut key g v)
  | .MEM => noStore (s.writeMem key g v)
  | .CPX => noStore (s.writeCpx key g v)
  | .VIR => if key.reg = .VIR_INST_CTRL then s.instCtrlWrite a key.i (v &&& g) else noStore (s.writeVir key g v)
  | .INS => noStore (s.writePage key g v)
  | .DMA => noStore (s.writeDma key g v)
  | .CRC => noStore (s.writeCrc key g v)
  | .TCH => noStore (s.writeTch key g v)
  | .HAP => noStore (s.writeHap key g v)
  | .SIO => noStore (s.writeSio key g v)
  | .AUD => noStore (s.writeAud key g v)
  | .EVT => noStore (s.writeEvt a key g v)
  | .PMU => noStore (s.writePmu key g v)

end Sys2Proof.Machine
end

