-- ==== Sys2Proof/Machine/Split.lean ====
section
/-! DEFINITION. The 64-bit values that the register map splits across two registers (R76): the high word of each low word, and
the companions that a low-word read latches with it. -/

namespace Sys2Proof.Machine

/-- The register of the high word. -/
def Reg.highOf : Reg → Option Reg
  | .SYS_RCP_PUSH_ADDR_LO => some .SYS_RCP_PUSH_ADDR_HI
  | .TIME_ST_LO => some .TIME_ST_HI
  | .TIME_LTC_ST_LO => some .TIME_LTC_ST_HI
  | .AXIS_POS_LO => some .AXIS_POS_HI
  | .AXIS_VEL_LO => some .AXIS_VEL_HI
  | .AXIS_EVAL_ST_LO => some .AXIS_EVAL_ST_HI
  | .CUE_MARK_ST_LO => some .CUE_MARK_ST_HI
  | .FAB_PORT_TXCTR_LO => some .FAB_PORT_TXCTR_HI
  | .FAB_SLOT_RESULT_LO => some .FAB_SLOT_RESULT_HI
  | .FAB_APP_RING_LO => some .FAB_APP_RING_HI
  | .CTX_RING_LO => some .CTX_RING_HI
  | .CTX_SAVE_LO => some .CTX_SAVE_HI
  | .CTX_FAULT_ADDR_LO => some .CTX_FAULT_ADDR_HI
  | .CMP_SHED_LO => some .CMP_SHED_HI
  | .CMP_OUT_FS_LO => some .CMP_OUT_FS_HI
  | .SUB_ADDR_LO => some .SUB_ADDR_HI
  | .SUB_NB_LO => some .SUB_NB_HI
  | .SUB_DA_LO => some .SUB_DA_HI
  | .SUB_REF_LO => some .SUB_REF_HI
  | .REL_ST_LO => some .REL_ST_HI
  | .MEM_ERR_ADDR_LO => some .MEM_ERR_ADDR_HI
  | .CPX_FENCE_VIOL_ADDR_LO => some .CPX_FENCE_VIOL_ADDR_HI
  | .VIR_CREATE_LAYERS_LO => some .VIR_CREATE_LAYERS_HI
  | .VIR_INST_BUF_LO => some .VIR_INST_BUF_HI
  | .QCOMP_LO => some .QCOMP_HI
  | .TT_ROOT_LO => some .TT_ROOT_HI
  | .INV_ADDR_LO => some .INV_ADDR_HI
  | .TFAULT_ADDR_LO => some .TFAULT_ADDR_HI
  | .INST_MSIX_ADDR_LO => some .INST_MSIX_ADDR_HI
  | .CH_BASE_LO => some .CH_BASE_HI
  | .CH_CQ_LO => some .CH_CQ_HI
  | .CH_CUR_LO => some .CH_CUR_HI
  | .TIMER_PHASE_LO => some .TIMER_PHASE_HI
  | .CRC_RESULT_LO => some .CRC_RESULT_HI
  | .TCH_FRAME_ST_LO => some .TCH_FRAME_ST_HI
  | .DMX_BUF_LO => some .DMX_BUF_HI
  | .DMX_RX_ST_LO => some .DMX_RX_ST_HI
  | .DMX_RDM_ADDR_LO => some .DMX_RDM_ADDR_HI
  | .DMX_GRID_PHASE_LO => some .DMX_GRID_PHASE_HI
  | .DMX_RDM_UID_LO => some .DMX_RDM_UID_HI
  | .MIDI_RX_ST_LO => some .MIDI_RX_ST_HI
  | .LTC_IN_ST_LO => some .LTC_IN_ST_HI
  | .LTC_OUT_ANCHOR_LO => some .LTC_OUT_ANCHOR_HI
  | .ENC_ST_LO => some .ENC_ST_HI
  | .GPIO_EDGE_ST_LO => some .GPIO_EDGE_ST_HI
  | .CLIP_TABLE_LO => some .CLIP_TABLE_HI
  | .PF_MSIX_ADDR_LO => some .PF_MSIX_ADDR_HI
  | .PMC_ADDR_BASE_LO => some .PMC_ADDR_BASE_HI
  | .PMC_ADDR_LIMIT_LO => some .PMC_ADDR_LIMIT_HI
  | .PMC_VAL_LO => some .PMC_VAL_HI
  | .PSAMP_BASE_LO => some .PSAMP_BASE_HI
  | .BW_PORT_LO => some .BW_PORT_HI
  | _ => none

/-- Registers whose two copies k = 0 and 1 are a low and a high word. -/
def Reg.pairByCopy : List Reg :=
  [.CRC_POLY, .CRC_INIT, .CRC_XOR, .CRC_EXPECT, .FADER_INVALID, .FADER_MOVED, .VIR_MB_PENDING, .TCH_REGION, .TCH_DEGRADED]

/-- What a low-word read latches beside the high word (R104, R261, R271, R296). -/
def Reg.companion : Reg → Option Reg
  | .CUE_MARK_ST_LO => some .CUE_MARK_TAG
  | .MEM_ERR_ADDR_LO => some .MEM_ERR_INFO
  | .CPX_FENCE_VIOL_ADDR_LO => some .CPX_FENCE_VIOL_INFO
  | .TFAULT_ADDR_LO => some .TFAULT_INFO
  | _ => none

/-- R76: the register copies that a read of a copy latches; none for a register that is no low word. -/
def RegKey.shadows (key : RegKey) : List RegKey :=
  ((key.reg.highOf.toList ++ key.reg.companion.toList).map (fun r => { key with reg := r })) ++
    (if Reg.pairByCopy.contains key.reg && key.k == 0 then [{ key with k := 1 }] else [])

/-- The register copy of the low word, for the copy of a high word. -/
def RegKey.lowOf (key : RegKey) : Option RegKey :=
  (Reg.all.find? (fun r => r.highOf == some key.reg)).map (fun r => { key with reg := r })

end Sys2Proof.Machine
end

