-- ==== Sys2Proof/Machine/TimeCmd.lean ====
section
/-! DEFINITION. The commands of show time (04_show_time.md): measurements of each source, its loss, the lock conditions, and
the latching read of the LTC timecode. -/

namespace Sys2Proof.Machine

/-! ### PTP (R83, R141) -/

/-- SYNC_RX: on the time port, the master's ST at reception is the origin time plus the measured link delay. -/
def State.syncRx (s : State) (p : Nat) (origin : ST) : State :=
  if s.timeRuns && s.timeSource == srcFab && s.flag F.FAB_PORT_STATUS.time_port p then
    s.measure (stDiff s.eventSt (origin + (s.get .FAB_PORT_DELAY p).zeroExtend 64))
  else s

/-- SYNC_RX (R83). -/
def execSyncRx (p : Fin 8) (h : FabHdr) (origin : ST) (s : State) : Host.Outcome State Fault Refusal :=
  done (fun s => s.receive p h (.sync origin) (fun s => s.syncRx p origin)) s

/-- PTP_MESSAGE_RX (R83): the profile of IEEE 1588 gives the master's time at the measurement. -/
def State.ptpRx (s : State) (masterNow : ST) : State :=
  if s.timeRuns && s.timeSource == srcEth then s.measure (stDiff s.eventSt masterNow) else s

/-- PTP_MESSAGE_RX (R83). -/
def execPtpMessageRx (masterNow : ST) (s : State) : Host.Outcome State Fault Refusal :=
  done (fun s => s.ptpRx masterNow) s

/-! ### GENLOCK (R85, R210) -/

/-- The genlock input is the source in force. -/
def State.genlockIs (s : State) (input : Nat) : Bool :=
  s.timeRuns && s.timeSource == srcGenlock && s.recipe.timePort == input

/-- The time from the start of a frame to its line m, in 2^-32 ns (R85). -/
def Recipe.lineOffset (r : Recipe) (m : Nat) : Int :=
  (m - 1 : Nat) * (r.genlockGrid.num : Int) * 2 ^ 32 / (r.genlockGrid.den * max 1 r.linesPerFrame : Nat)

/-- R85: an H pulse is measured against line m of its frame; 8 in a row more than half a line off lose the source. -/
def State.hPulse (s : State) (m : Nat) : State :=
  let g := s.recipe.genlockGrid
  let start := stAdd s.eventSt (-(wholeNs (s.recipe.lineOffset m)))
  let k := if m = 1 ∨ s.timeState = timeUnset ∨ s.timeState = timeHoldover then s.gridPoint g start else s.tim.genFrame
  let e := g.error32 s.eventSt k - s.recipe.lineOffset m
  let off := decide (g.num * 2 ^ 32 < 2 * e.natAbs * (g.den * max 1 s.recipe.linesPerFrame)) && s.timeState != timeUnset
  let next := if m < s.recipe.linesPerFrame then some (m + 1) else none
  let tim : TimeState := { s.tim with genFrame := k, genLine := next, hOff := if off then s.tim.hOff + 1 else 0 }
  if 8 ≤ tim.hOff then { s with tim := tim }.sourceStopped true else { s with tim := tim }.measure (wholeNs e)

/-- GENLOCK_H_PULSE (R85): pulses before the first V pulse have no line. -/
def State.genlockH (s : State) (input : Nat) : State :=
  if s.genlockIs input then
    match s.tim.genLine with
    | some m => s.hPulse m
    | none => s
  else s

/-- GENLOCK_H_PULSE (R85). -/
def execGenlockHPulse (input : Fin 2) (s : State) : Host.Outcome State Fault Refusal :=
  done (fun s => s.genlockH input) s

/-- R210, R212: the input as the outputs see it: stamp, period and count of V pulses. -/
def State.genlockInput (s : State) (input : Nat) : State :=
  let x := s.genIn input
  let y : GenlockIn :=
    { lastV := some s.tim.islandCopy, period := x.lastV.map (fun t => (s.tim.islandCopy - t).toNat)
      run := min 3 (x.run + 1), lost := x.lost && decide (x.run + 1 < 3) }
  forEach (s.genOutputs input) (fun o s => s.outGenlockV o y) (s.setGenIn input y)

/-- GENLOCK_V_PULSE (R85, R210): line 1 of the next frame of TIME follows; the outputs take the pulse as their reference. -/
def State.genlockV (s : State) (input : Nat) : State :=
  let s := s.genlockInput input
  if s.genlockIs input then
    { s with tim := { s.tim with genLine := some 1 } }.fset F.TIME_STATUS.clk_present 1
  else s

/-- GENLOCK_V_PULSE (R210). -/
def execGenlockVPulse (input : Fin 2) (s : State) : Host.Outcome State Fault Refusal :=
  done (fun s => s.genlockV input) s

/-! ### LTC (R86, R351) -/

/-- R86: the timecode against the previous frame: continuous frames count the days, any other is a jump. -/
def State.ltcCheck (s : State) (n : Nat) : State :=
  let day := ltcDayFrames s.recipe.ltcRate
  let s' := { s with tim := { s.tim with ltcPrev := some n } }
  match s.tim.ltcPrev with
  | none => s'
  | some q =>
    if n = (q + 1) % day then if n = 0 then { s' with tim := { s'.tim with ltcDay := s.tim.ltcDay + 1 } } else s'
    else (s'.fset F.TIME_STATUS.ltc_jump 1).raise 20

/-- R86: a forward frame of the source. At the first load ST at the end of the sync word is anchor + (d F + n) P, with d = 0;
afterwards only the frame edges discipline. -/
def State.ltcMeasure (s : State) (n : Nat) : State :=
  let g := s.recipe.ltcGrid
  if s.timeState = timeUnset then s.measureGrid g s.eventSt n else s.measureGrid g s.eventSt (s.gridPoint g s.eventSt)

/-- A frame of the LTC source: reverse play is a loss (R83); otherwise it is checked, measured, and TIME_LTC_TC and its stamp
show it. -/
def State.ltcSource (s : State) (f : LtcFrame) : State :=
  let s := s.put .TIME_LTC_TC (ltcWord f)
  let t := s.eventSt
  if f.reversed then (s.sourceStopped true).put64 .TIME_LTC_ST_LO .TIME_LTC_ST_HI t
  else
    let n := ltcNumber s.recipe.ltcRate f
    let first := s.timeState == timeUnset
    let s := (s.ltcCheck n).ltcMeasure n
    s.put64 .TIME_LTC_ST_LO .TIME_LTC_ST_HI (if first then s.eventSt else t)

/-- R351: the port decodes and stamps a valid frame and raises EV_SIO_LTC_RX. -/
def State.ltcPort (s : State) (i : Nat) (f : LtcFrame) : State :=
  let s := { s with sio := { s.sio with ltcSeen := Tbl.set 0 s.sio.ltcSeen i s.tim.ticks } }
  let s := (s.put .LTC_IN_TC (ltcWord f) i).put64 .LTC_IN_ST_LO .LTC_IN_ST_HI s.gridTime i
  let s := (s.put .LTC_IN_USER f.user i).fset F.LTC_IN_STATUS.locked 1 i
  let s := (s.fflag F.LTC_IN_STATUS.reverse f.reversed i).fset F.LTC_IN_STATUS.clk_present 1 i
  (s.fset F.LTC_IN_STATUS.speed f.speed i).raise (350 + i)

/-- R351: the frame is valid: 80 bits ending in a correct sync word, at a bit rate within 10 % of nominal. -/
def ltcValid (f : LtcFrame) : Bool := f.syncOk && decide (90 ≤ f.speed) && decide (f.speed ≤ 110)

/-- LTC_FRAME (R351, R86). -/
def State.ltcFrame (s : State) (i : Nat) (f : LtcFrame) : State :=
  if ltcValid f && s.awake && s.recipe.ltcEnabled i then
    let s := s.ltcPort i f
    if s.timeRuns && s.timeSource == srcLtc && s.recipe.timePort == i then s.ltcSource f else s
  else s

/-- LTC_FRAME (R351). -/
def execLtcFrame (input : Fin 2) (f : LtcFrame) (s : State) : Host.Outcome State Fault Refusal :=
  done (fun s => s.ltcFrame input f) s

/-! ### MAINS (R87) -/

/-- MAINS_ZERO_CROSSING (R87). -/
def State.mainsCrossing (s : State) : State :=
  if s.timeRuns && s.timeSource == srcMains then
    s.measureGrid s.recipe.mainsGrid s.eventSt (s.gridPoint s.recipe.mainsGrid s.eventSt)
  else s

/-- MAINS_ZERO_CROSSING (R87). -/
def execMainsZeroCrossing (s : State) : Host.Outcome State Fault Refusal := done State.mainsCrossing s

/-! ### Loss and lock (R83, R88) -/

/-- SOURCE_LOSS (R83): FREE is never lost. A source can be lost while its edges still arrive (R77). -/
def State.lossOfSource (s : State) (edges : Bool) : State :=
  if s.timeRuns && s.timeSource != srcFree then s.sourceStopped edges else s

/-- SOURCE_LOSS (R83). -/
def execSourceLoss (edges : Bool) (s : State) : Host.Outcome State Fault Refusal := done (fun s => s.lossOfSource edges) s

/-- LOCK_CONDITION_MET (R88): the phase error last measured lies within the threshold. -/
def State.lockMet (s : State) : State :=
  if s.timeRuns && s.timeState == timeAcquiring && decide (s.phase.natAbs ≤ lockThreshold s.timeSource) then
    (s.enterTime timeLocked).raise 17
  else s

/-- LOCK_CONDITION_MET (R88). -/
def execLockConditionMet (s : State) : Host.Outcome State Fault Refusal := done State.lockMet s

/-- LOCK_LOST (R88): the phase error last measured exceeds 4 times the threshold. -/
def State.lockLost (s : State) : State :=
  if s.timeRuns && s.timeState == timeLocked && decide (4 * lockThreshold s.timeSource < s.phase.natAbs) then
    s.enterTime timeAcquiring
  else s

/-- LOCK_LOST (R88). -/
def execLockLost (s : State) : Host.Outcome State Fault Refusal := done State.lockLost s

/-! ### The latching read of the timecode (R100) -/

/-- LTC_TC_READ (R100): the read returns the timecode and latches both words of its stamp for the agent. -/
def State.ltcTcRead (s : State) (a : Agent) : State :=
  if s.dom.mainUp && decide (s.pwr.state ≤ 2) then
    (s.latch64 a .TIME_LTC_ST_LO .TIME_LTC_ST_HI 0 (s.get64 .TIME_LTC_ST_LO .TIME_LTC_ST_HI)).answer a (s.get .TIME_LTC_TC)
  else s.emit (.busError a)

/-- LTC_TC_READ (R100). -/
def execLtcTcRead (a : Agent) (s : State) : Host.Outcome State Fault Refusal := done (fun s => s.ltcTcRead a) s

end Sys2Proof.Machine
end

