-- ==== Sys2Proof/Machine/RegCmd.lean ====
section
/-! DEFINITION. The commands SPLIT_LOW_WORD_READ and REGISTER_WRITE: an access to a register by its address. -/

namespace Sys2Proof.Machine

/-! ### Refusals of the fence (R271) -/

/-- R271: an access that the fence refuses is captured; a core takes an access fault, PCIe gets an error response. Which core
runs a partition's or the management's access is a free value. -/
def State.regFenced (s : State) (a : Agent) (addr : Nat) (write : Bool) : State :=
  match a with
  | .partition p =>
    let n := Config.freeNat s.draws % 8
    (s.drawn.fenceCapture n (64 + p.val) addr write false).coreTrap n (.plain (if write then 7 else 5) (BitVec.ofNat 64 addr))
  | .manager => (s.fenceCapture 18 0 addr write false).emit (.busError a)
  | _ => (s.drawn.fenceCapture (Config.freeNat s.draws) (ownerOf a) addr write false).emit (.busError a)

/-! ### Reads (R76, R100, R332) -/

/-- The word of a register for an agent, apart from what R76 latched. -/
def State.current (s : State) (a : Agent) (key : RegKey) : W32 :=
  ((s.reportWord a key.reg key.i key.k).getD (s.live key.reg key.i key.k)) &&& key.reg.readable

/-- The word latched for an agent goes. -/
def State.unlatch (s : State) (a : Agent) (key : RegKey) : State :=
  { s with shadows := s.shadows.filter (fun x => !(x.agent == a && x.reg == key.reg && x.i == shadowIx key.i key.k)) }

/-- R76: latch the companions of a low word. -/
def State.latchAll (s : State) (a : Agent) (l : List RegKey) : State :=
  forEach l (fun k t => t.latch a k.reg (shadowIx k.i k.k) (s.current a k)) s

/-- The word latched for an agent in a register copy. -/
def State.latchedAt (s : State) (a : Agent) (key : RegKey) : Option W32 := s.latched a key.reg (shadowIx key.i key.k)

/-- A latch that later reads return again until the read that made it is repeated (R100): of an axis, or of both words of a
stamp. -/
def State.latchStays (s : State) (a : Agent) (key : RegKey) : Bool :=
  key.reg == .AXIS_POS_HI || (match key.lowOf with | some l => (s.latchedAt a l).isSome | none => key.reg.highOf.isSome)

/-- R76: a read by address. A word latched for the agent is returned; a low word latches its companions. -/
def State.plainRead (s : State) (a : Agent) (key : RegKey) : State :=
  match s.latchedAt a key with
  | some v => (if s.latchStays a key then s else s.unlatch a key).answer a (v &&& key.reg.readable)
  | none => (s.latchAll a key.shadows).answer a (s.current a key)

/-- A read of a register copy: one with a row of its own acts as that row does. -/
def State.readReg (s : State) (a : Agent) (key : RegKey) : State :=
  match key.reg with
  | .AXIS_POS_LO => s.axisPosRead a key.i
  | .TIME_LTC_TC => s.ltcTcRead a
  | .TCH_REPORT_HDR => s.latchReport a key.i
  | .DMX_RX_INFO => s.dmxInfoRead a key.i
  | .MIDI_RX => s.midiRead a key.i
  | .LTC_IN_TC => s.ltcInRead a key.i
  | .ENC_COUNT =>
    (s.put64 .ENC_ST_LO .ENC_ST_HI (s.encoder key.i).changed key.i).answer a (s.get .ENC_COUNT key.i)
  | _ => s.plainRead a key

/-- R383: a counter appears in the mirror of its owner. -/
def State.mirrors (s : State) (o n : Nat) : Bool :=
  s.flag F.PMC_SEL.mirror n && s.flag F.PMC_SEL.owner_en n && s.fget F.PMC_OWNER.owner n == o

/-- R383: a word of the counter mirror. -/
def State.mirrorWord (s : State) (o off : Nat) : W32 :=
  if off < 0x80 then (if s.mirrors o (off / 4) then s.get .PMC_VAL_LO (off / 4) else 0)
  else if off = 0x80 then
    s.get .PMC_MIRROR_OVF &&& BitVec.ofNat 32 (((List.range 32).map (fun n => (s.mirrors o n).toNat * 2 ^ n)).sum)
  else if off = 0x84 then 0x08800001#32 else 0

/-- SPLIT_LOW_WORD_READ (R6, R7, R20 to R22, R76): a read of another shape gets an error response. A CSR is read by its core. -/
def State.readAt (s : State) (a : Agent) (sp : Space) (addr bytes : Nat) : State :=
  if let .csr n mode := sp then s.csrGet n mode (addr % 4096)
  else if !wellShaped addr bytes then s.emit (.busError a)
  else
    match s.reaches a sp addr with
    | .reg key _ => s.readReg a key
    | .mirror o off => s.answer a (s.mirrorWord o off)
    | .nothing => s.answer a 0
    | .fenced x => s.regFenced a x false
    | _ => s.emit (.busError a)

/-- SPLIT_LOW_WORD_READ (R76). The xHCI registers are not given (R360). -/
def execSplitLowWordRead (a : Agent) (space : Space) (addr bytes : Nat) (s : State) : Host.Outcome State Fault Refusal :=
  if wellShaped addr bytes ∧ s.reaches a space addr = .usb then .refused .usbHostController
  else done (fun s => s.readAt a space addr bytes) s

/-! ### Writes -/

/-- R294: a Message Control word is written by the host that drives the function, through a link that is up. -/
def State.hostMsix (s : State) (a : Agent) (f v : Nat) : State :=
  if a = (if f = 0 then .manager else agentOf f) && s.up && !s.dom.hostL2 then s.msixControl f v else s.emit (.busError a)

/-- REGISTER_WRITE (R6, R7, R10, R20 to R22): a write of another shape, or one that reaches no register its agent may reach,
changes nothing. A CSR is written, and a fence of translations executed, by its core (R267, R269), a Message Control word by the host of
its function (R294). -/
def State.writeAt (s : State) (a : Agent) (sp : Space) (addr bytes : Nat) (v : BitVec 64) : PacketEffect :=
  if let .csr n mode := sp then noStore (s.csrPut n mode (addr % 4096) v)
  else if let .fence n mode k va id := sp then noStore (s.fencePut n mode k va id)
  else if let .msixControl f := sp then noStore (s.hostMsix a f v.toNat)
  else if !wellShaped addr bytes then noStore (s.emit (.busError a))
  else
    match s.reaches a sp addr with
    | .reg key via => s.writeReg a key via (v.truncate 32)
    | .mirror _ _ | .nothing => noStore s
    | .fenced x => noStore (s.regFenced a x true)
    | _ => noStore (s.emit (.busError a))

/-- A write that reaches SYS, and may reset the main domain. -/
def Target.inSys : Target → Bool
  | .reg key _ => key.reg.info.block == .SYS
  | _ => false

/-- REGISTER_WRITE (R10). The xHCI registers are not given (R360). -/
def execRegisterWrite (a : Agent) (space : Space) (addr bytes : Nat) (value : BitVec 64) (s : State) :
    Host.Outcome State Fault Refusal :=
  if wellShaped addr bytes ∧ s.reaches a space addr = .usb then .refused .usbHostController
  else if (s.reaches a space addr).inSys then doneLoss (fun s => (s.writeAt a space addr bytes value).2) s
  else packetEnd (fun s => s.writeAt a space addr bytes value) s

end Sys2Proof.Machine
end

