-- ==== Sys2Proof/Machine/ResetCmd.lean ====
section
/-! DEFINITION. The commands of resets, supplies and temperature (03_reset_power.md, 19_package.md). -/

namespace Sys2Proof.Machine

/-- ISL_PORN_ASSERT (R54). -/
def execIslPornAssert (s : State) : Host.Outcome State Fault Refusal := doneLoss State.islandDown s

/-- ISL_PORN_RELEASE (R61). A pin that is high already has no rising edge. -/
def execIslPornRelease (ddrSel : BitVec 3) (s : State) : Host.Outcome State Fault Refusal :=
  done (fun s => if s.dom.porn then s else s.islandStart ddrSel) s

/-- ISLAND_FIRMWARE_CHECK (R61, R62), while the island boots. -/
def execIslandFirmwareCheck (fw : FwImage) (s : State) : Host.Outcome State Fault Refusal :=
  done (fun s => if s.dom.island = .booting then s.islandChecked fw else s) s

/-- SYS_RESETN_FALL (R55, R58). -/
def execSysResetnFall (s : State) : Host.Outcome State Fault Refusal := done State.resetnFall s

/-- SYS_RESETN_FILTER_EXPIRY (R55). -/
def execSysResetnFilterExpiry (s : State) : Host.Outcome State Fault Refusal := doneLoss State.resetnFiltered s

/-- SYS_RESETN_RISE (R55, R58). -/
def execSysResetnRise (s : State) : Host.Outcome State Fault Refusal := done State.resetnRise s

/-- STUCK_RESET_RELEASE (R58). -/
def execStuckResetRelease (s : State) : Host.Outcome State Fault Refusal := done State.resetnStuck s

/-- RELEASE_TIMER_EXPIRY (R58). -/
def execReleaseTimerExpiry (s : State) : Host.Outcome State Fault Refusal := done State.resetnHonour s

/-- PERST_ASSERT (R53). -/
def execPerstAssert (p : Fin 4) (s : State) : Host.Outcome State Fault Refusal := doneLoss (fun s => s.perstLow p) s

/-- PERST_DEASSERT (R53, R56). -/
def execPerstDeassert (p : Fin 4) (s : State) : Host.Outcome State Fault Refusal := done (fun s => s.perstHigh p) s

/-- FULL_RESET_REQUEST (R53). -/
def execFullResetRequest (a : Agent) (value : W32) (s : State) : Host.Outcome State Fault Refusal :=
  doneLoss (fun s => s.byEither a s.awake (fun s => s.fullReset value)) s

/-- RESET_TO_LOADER (R51). -/
def execResetToLoader (a : Agent) (s : State) : Host.Outcome State Fault Refusal :=
  doneLoss (fun s => s.byManagerInner a s.awake State.toLoaderReset) s

/-- SUPPLY_OUT_OF_RANGE (R390). -/
def execSupplyOutOfRange (x : Supply) (s : State) : Host.Outcome State Fault Refusal := doneLoss (fun s => s.supplyLost x) s

/-- SUPPLY_IN_RANGE (R390). -/
def execSupplyInRange (s : State) : Host.Outcome State Fault Refusal := done State.suppliesBack s

/-- SENSOR_READ (R392). -/
def execSensorRead (temps : List Int) (s : State) : Host.Outcome State Fault Refusal := doneLoss (fun s => s.sensors temps) s

/-- MAIN_DOMAIN_RELEASE (R56, R61). -/
def execMainDomainRelease (loaderReqn : Bool) (s : State) : Host.Outcome State Fault Refusal :=
  done (fun s => if s.mayRelease then s.releaseMain loaderReqn else s) s

end Sys2Proof.Machine
end

