-- ==== Sys2Proof/Machine/Dispatch.lean ====
section
/-! DEFINITION. One arm per command: each is one direct call of the command's meaning. -/

namespace Sys2Proof.Machine

def exec (i : Instr) (s : State) : Host.Outcome State Fault Refusal :=
  match i with
  | .islPornAssert => Sys2Proof.Machine.execIslPornAssert s
  | .islPornRelease ddrSel => Sys2Proof.Machine.execIslPornRelease ddrSel s
  | .islandFirmwareCheck fw => Sys2Proof.Machine.execIslandFirmwareCheck fw s
  | .sysResetnFall => Sys2Proof.Machine.execSysResetnFall s
  | .sysResetnFilterExpiry => Sys2Proof.Machine.execSysResetnFilterExpiry s
  | .sysResetnRise => Sys2Proof.Machine.execSysResetnRise s
  | .stuckResetRelease => Sys2Proof.Machine.execStuckResetRelease s
  | .releaseTimerExpiry => Sys2Proof.Machine.execReleaseTimerExpiry s
  | .perstAssert p => Sys2Proof.Machine.execPerstAssert p s
  | .fullResetRequest a value => Sys2Proof.Machine.execFullResetRequest a value s
  | .resetToLoader a => Sys2Proof.Machine.execResetToLoader a s
  | .supplyOutOfRange x => Sys2Proof.Machine.execSupplyOutOfRange x s
  | .supplyInRange => Sys2Proof.Machine.execSupplyInRange s
  | .sensorRead temps => Sys2Proof.Machine.execSensorRead temps s
  | .mainDomainRelease loaderReqn => Sys2Proof.Machine.execMainDomainRelease loaderReqn s
  | .tartalCheck fw => Sys2Proof.Machine.execTartalCheck fw s
  | .dramBootTraining chans => Sys2Proof.Machine.execDramBootTraining chans s
  | .recipeImageFetch image => Sys2Proof.Machine.execRecipeImageFetch image s
  | .signatureCheck => Sys2Proof.Machine.execSignatureCheck s
  | .admission => Sys2Proof.Machine.execAdmission s
  | .push a => Sys2Proof.Machine.execPush a s
  | .powerStateEntry a target pendingWakes => Sys2Proof.Machine.execPowerStateEntry a target pendingWakes s
  | .coreWfiTimeout => Sys2Proof.Machine.execCoreWfiTimeout s
  | .entryCommit => Sys2Proof.Machine.execEntryCommit s
  | .wakeSource bit => Sys2Proof.Machine.execWakeSource bit s
  | .exitToDay fw hdr outSec glazeSec => Sys2Proof.Machine.execExitToDay fw hdr outSec glazeSec s
  | .alwaysOnTimerMatch => Sys2Proof.Machine.execAlwaysOnTimerMatch s
  | .cueLookaheadWake => Sys2Proof.Machine.execCueLookaheadWake s
  | .syncRx p h origin => Sys2Proof.Machine.execSyncRx p h origin s
  | .ptpMessageRx masterNow => Sys2Proof.Machine.execPtpMessageRx masterNow s
  | .genlockHPulse input => Sys2Proof.Machine.execGenlockHPulse input s
  | .genlockVPulse input => Sys2Proof.Machine.execGenlockVPulse input s
  | .ltcFrame input f => Sys2Proof.Machine.execLtcFrame input f s
  | .mainsZeroCrossing => Sys2Proof.Machine.execMainsZeroCrossing s
  | .sourceLoss edges => Sys2Proof.Machine.execSourceLoss edges s
  | .lockConditionMet => Sys2Proof.Machine.execLockConditionMet s
  | .lockLost => Sys2Proof.Machine.execLockLost s
  | .axisSampleInstant ax => Sys2Proof.Machine.execAxisSampleInstant ax s
  | .ssiReadEnd ax f => Sys2Proof.Machine.execSsiReadEnd ax f s
  | .coastDeadline ax => Sys2Proof.Machine.execCoastDeadline ax s
  | .axisPosRead a ax => Sys2Proof.Machine.execAxisPosRead a ax s
  | .ltcTcRead a => Sys2Proof.Machine.execLtcTcRead a s
  | .splitLowWordRead a space addr bytes => Sys2Proof.Machine.execSplitLowWordRead a space addr bytes s
  | .cueArm w => Sys2Proof.Machine.execCueArm w s
  | .cueModify w slot window => Sys2Proof.Machine.execCueModify w slot window s
  | .cueCancel w slot window => Sys2Proof.Machine.execCueCancel w slot window s
  | .cueRead w slot window => Sys2Proof.Machine.execCueRead w slot window s
  | .cueClr a => Sys2Proof.Machine.execCueClr a s
  | .staging => Sys2Proof.Machine.execStaging s
  | .axisCueEvaluation ax => Sys2Proof.Machine.execAxisCueEvaluation ax s
  | .launchWindow => Sys2Proof.Machine.execLaunchWindow s
  | .blockLock p => Sys2Proof.Machine.execBlockLock p s
  | .verifyResend p => Sys2Proof.Machine.execVerifyResend p s
  | .verifyResponse p => Sys2Proof.Machine.execVerifyResponse p s
  | .hello p h version secure rate => Sys2Proof.Machine.execHello p h version secure rate s
  | .key p h certIndex nonce ephemeral signature => Sys2Proof.Machine.execKey p h certIndex nonce ephemeral signature s
  | .certificateCheck p => Sys2Proof.Machine.execCertificateCheck p s
  | .finish p h hash => Sys2Proof.Machine.execFinish p h hash s
  | .linkAck p h ctr => Sys2Proof.Machine.execLinkAck p h ctr s
  | .linkRetryTimer p ctr => Sys2Proof.Machine.execLinkRetryTimer p ctr s
  | .rekeyStart p => Sys2Proof.Machine.execRekeyStart p s
  | .rekey p h => Sys2Proof.Machine.execRekey p h s
  | .rekeyStall p => Sys2Proof.Machine.execRekeyStall p s
  | .oldPhaseAcceptEnd p => Sys2Proof.Machine.execOldPhaseAcceptEnd p s
  | .enum p h number => Sys2Proof.Machine.execEnum p h number s
  | .topo p h links => Sys2Proof.Machine.execTopo p h links s
  | .heartbeatSend => Sys2Proof.Machine.execHeartbeatSend s
  | .heartbeat p h => Sys2Proof.Machine.execHeartbeat p h s
  | .heartbeatMissed p => Sys2Proof.Machine.execHeartbeatMissed p s
  | .blockLockLoss p => Sys2Proof.Machine.execBlockLockLoss p s
  | .ringFault p h other => Sys2Proof.Machine.execRingFault p h other s
  | .ringHealed p h linkA linkB => Sys2Proof.Machine.execRingHealed p h linkA linkB s
  | .indication p h indId change originSt body => Sys2Proof.Machine.execIndication p h indId change originSt body s
  | .expressSendSlot => Sys2Proof.Machine.execExpressSendSlot s
  | .data p h m => Sys2Proof.Machine.execData p h m s
  | .reply p h m => Sys2Proof.Machine.execReply p h m s
  | .bulkData p h appPort body => Sys2Proof.Machine.execBulkData p h appPort body s
  | .messageRepeat slot => Sys2Proof.Machine.execMessageRepeat slot s
  | .senderTimeout slot => Sys2Proof.Machine.execSenderTimeout slot s
  | .peerRecordRelease star => Sys2Proof.Machine.execPeerRecordRelease star s
  | .fabSlotSend a slot => Sys2Proof.Machine.execFabSlotSend a slot s
  | .fabPeerRelease a star => Sys2Proof.Machine.execFabPeerRelease a star s
  | .pdelayTimer => Sys2Proof.Machine.execPdelayTimer s
  | .pdelayMessage p h measured => Sys2Proof.Machine.execPdelayMessage p h measured s
  | .syncSend => Sys2Proof.Machine.execSyncSend s
  | .announceSend => Sys2Proof.Machine.execAnnounceSend s
  | .announce p h priority star hopsToIt => Sys2Proof.Machine.execAnnounce p h priority star hopsToIt s
  | .unsupportedFrame p kind => Sys2Proof.Machine.execUnsupportedFrame p kind s
  | .doorbell owner q tail => Sys2Proof.Machine.execDoorbell owner q tail s
  | .nop c => Sys2Proof.Machine.execNop c s
  | .call c => Sys2Proof.Machine.execCall c s
  | .stateBind c => Sys2Proof.Machine.execStateBind c s
  | .constWrite c => Sys2Proof.Machine.execConstWrite c s
  | .passBegin c => Sys2Proof.Machine.execPassBegin c s
  | .passEnd c => Sys2Proof.Machine.execPassEnd c s
  | .draw c w => Sys2Proof.Machine.execDraw c w s
  | .drawIndexed c w => Sys2Proof.Machine.execDrawIndexed c w s
  | .drawIndirect c w => Sys2Proof.Machine.execDrawIndirect c w s
  | .drawIndexedIndirect c w => Sys2Proof.Machine.execDrawIndexedIndirect c w s
  | .dispatch c w => Sys2Proof.Machine.execDispatch c w s
  | .dispatchIndirect c w => Sys2Proof.Machine.execDispatchIndirect c w s
  | .barrier c => Sys2Proof.Machine.execBarrier c s
  | .cacheOp c => Sys2Proof.Machine.execCacheOp c s
  | .fenceWaitSt c => Sys2Proof.Machine.execFenceWaitSt c s
  | .fenceWaitStRelease c => Sys2Proof.Machine.execFenceWaitStRelease c s
  | .waitValue c => Sys2Proof.Machine.execWaitValue c s
  | .waitValueSatisfied c => Sys2Proof.Machine.execWaitValueSatisfied c s
  | .writeValue c => Sys2Proof.Machine.execWriteValue c s
  | .signal c => Sys2Proof.Machine.execSignal c s
  | .layerSubmit c => Sys2Proof.Machine.execLayerSubmit c s
  | .gfxCtxAlloc a owner queue => Sys2Proof.Machine.execGfxCtxAlloc a owner queue s
  | .ctxFreeze a c => Sys2Proof.Machine.execCtxFreeze a c s
  | .ctxResume a c => Sys2Proof.Machine.execCtxResume a c s
  | .ctxDestroy a c => Sys2Proof.Machine.execCtxDestroy a c s
  | .sliceExpiry c => Sys2Proof.Machine.execSliceExpiry c s
  | .preemptionPoint c => Sys2Proof.Machine.execPreemptionPoint c s
  | .yieldTimeout c => Sys2Proof.Machine.execYieldTimeout c s
  | .frameStart o actual => Sys2Proof.Machine.execFrameStart o actual s
  | .layerCommit a layer => Sys2Proof.Machine.execLayerCommit a layer s
  | .submission a layer ctrl => Sys2Proof.Machine.execSubmission a layer ctrl s
  | .flush a layer => Sys2Proof.Machine.execFlush a layer s
  | .relPop a layer => Sys2Proof.Machine.execRelPop a layer s
  | .warpBand layer bandSt => Sys2Proof.Machine.execWarpBand layer bandSt s
  | .cursorCopyDone layer => Sys2Proof.Machine.execCursorCopyDone layer s
  | .outputEnable a o en => Sys2Proof.Machine.execOutputEnable a o en s
  | .applyTiming a o => Sys2Proof.Machine.execApplyTiming a o s
  | .retrain a o => Sys2Proof.Machine.execRetrain a o s
  | .hotPlug o sinkDsc => Sys2Proof.Machine.execHotPlug o sinkDsc s
  | .hotPlugLoss o linkOnly => Sys2Proof.Machine.execHotPlugLoss o linkOnly s
  | .trainingDone o ok => Sys2Proof.Machine.execTrainingDone o ok s
  | .trainingRetry o => Sys2Proof.Machine.execTrainingRetry o s
  | .genlockReferenceLoss input => Sys2Proof.Machine.execGenlockReferenceLoss input s
  | .lineEnd o obs => Sys2Proof.Machine.execLineEnd o obs s
  | .outFrzClr a o => Sys2Proof.Machine.execOutFrzClr a o s
  | .checkpoint => Sys2Proof.Machine.execCheckpoint s
  | .lockstepError => Sys2Proof.Machine.execLockstepError s
  | .pairSwitch => Sys2Proof.Machine.execPairSwitch s
  | .pairSelfTest pair pass => Sys2Proof.Machine.execPairSelfTest pair pass s
  | .sramCorrectedError => Sys2Proof.Machine.execSramCorrectedError s
  | .glzEdit chan seq immediate out index offset bytes => Sys2Proof.Machine.execGlzEdit chan seq immediate out index offset bytes s
  | .glzCommit chan seq mask => Sys2Proof.Machine.execGlzCommit chan seq mask s
  | .glzRead chan seq out index => Sys2Proof.Machine.execGlzRead chan seq out index s
  | .mainAlive chan seq => Sys2Proof.Machine.execMainAlive chan seq s
  | .status chan seq => Sys2Proof.Machine.execStatus chan seq s
  | .rngRead chan seq count => Sys2Proof.Machine.execRngRead chan seq count s
  | .seal chan seq plain => Sys2Proof.Machine.execSeal chan seq plain s
  | .unseal chan seq sealed => Sys2Proof.Machine.execUnseal chan seq sealed s
  | .dbgState chan seq => Sys2Proof.Machine.execDbgState chan seq s
  | .islMboxRxPop a chan => Sys2Proof.Machine.execIslMboxRxPop a chan s
  | .commitTakesEffect o => Sys2Proof.Machine.execCommitTakesEffect o s
  | .islandPass => Sys2Proof.Machine.execIslandPass s
  | .rendererReload o r => Sys2Proof.Machine.execRendererReload o r s
  | .mainAliveTimeout => Sys2Proof.Machine.execMainAliveTimeout s
  | .glazeStatusWord => Sys2Proof.Machine.execGlazeStatusWord s
  | .dramRequest r write addr len bytes fillNs => Sys2Proof.Machine.execDramRequest r write addr len bytes fillNs s
  | .transactionComplete id ecc => Sys2Proof.Machine.execTransactionComplete id ecc s
  | .creditWindow => Sys2Proof.Machine.execCreditWindow s
  | .rowIdleClose ch bank => Sys2Proof.Machine.execRowIdleClose ch bank s
  | .perBankRefresh ch bank hot => Sys2Proof.Machine.execPerBankRefresh ch bank hot s
  | .retrainingPause ch pass => Sys2Proof.Machine.execRetrainingPause ch pass s
  | .retrainRepeat ch pass => Sys2Proof.Machine.execRetrainRepeat ch pass s
  | .version core => Sys2Proof.Machine.execVersion core s
  | .enter core => Sys2Proof.Machine.execEnter core s
  | .wcallReturn core => Sys2Proof.Machine.execWcallReturn core s
  | .islCall core => Sys2Proof.Machine.execIslCall core s
  | .dbgLower core => Sys2Proof.Machine.execDbgLower core s
  | .fenceQuery core => Sys2Proof.Machine.execFenceQuery core s
  | .partitionService core service => Sys2Proof.Machine.execPartitionService core service s
  | .mworldWrite core machineMode value => Sys2Proof.Machine.execMworldWrite core machineMode value s
  | .lowerDebugEnable a value => Sys2Proof.Machine.execLowerDebugEnable a value s
  | .haltRequest core => Sys2Proof.Machine.execHaltRequest core s
  | .ownershipRequest slice line ev => Sys2Proof.Machine.execOwnershipRequest slice line ev s
  | .ownershipRetry slice line core => Sys2Proof.Machine.execOwnershipRetry slice line core s
  | .cacheError level single addr readers external => Sys2Proof.Machine.execCacheError level single addr readers external s
  | .vfEnable p set => Sys2Proof.Machine.execVfEnable p set s
  | .virPortCfg a p value => Sys2Proof.Machine.execVirPortCfg a p value s
  | .create a x_i => Sys2Proof.Machine.execCreate a x_i s
  | .instFreeze a x_i => Sys2Proof.Machine.execInstFreeze a x_i s
  | .instResume a x_i => Sys2Proof.Machine.execInstResume a x_i s
  | .save a x_i => Sys2Proof.Machine.execSave a x_i s
  | .saveDone x_i => Sys2Proof.Machine.execSaveDone x_i s
  | .restore a x_i container => Sys2Proof.Machine.execRestore a x_i container s
  | .restoreDone x_i => Sys2Proof.Machine.execRestoreDone x_i s
  | .destroy a x_i => Sys2Proof.Machine.execDestroy a x_i s
  | .destroyDone x_i => Sys2Proof.Machine.execDestroyDone x_i s
  | .flr x_i => Sys2Proof.Machine.execFlr x_i s
  | .flrDone x_i => Sys2Proof.Machine.execFlrDone x_i s
  | .guestMailboxGo x_i => Sys2Proof.Machine.execGuestMailboxGo x_i s
  | .virMbRxPop a x_i => Sys2Proof.Machine.execVirMbRxPop a x_i s
  | .virMbTxGo a x_i => Sys2Proof.Machine.execVirMbTxGo a x_i s
  | .guestMailboxPop x_i => Sys2Proof.Machine.execGuestMailboxPop x_i s
  | .invalidation x_i => Sys2Proof.Machine.execInvalidation x_i s
  | .ttRootWrite x_i high value => Sys2Proof.Machine.execTtRootWrite x_i high value s
  | .invalidationDone x_i => Sys2Proof.Machine.execInvalidationDone x_i s
  | .translatedRequest p translated => Sys2Proof.Machine.execTranslatedRequest p translated s
  | .chStart a ch => Sys2Proof.Machine.execChStart a ch s
  | .dmaTimer e t => Sys2Proof.Machine.execDmaTimer e t s
  | .dmaTrigPin pin falling => Sys2Proof.Machine.execDmaTrigPin pin falling s
  | .descriptorComplete e => Sys2Proof.Machine.execDescriptorComplete e s
  | .dmaPause a ch => Sys2Proof.Machine.execDmaPause a ch s
  | .pauseDrained ch => Sys2Proof.Machine.execPauseDrained ch s
  | .dmaResume a ch => Sys2Proof.Machine.execDmaResume a ch s
  | .crcData a n value => Sys2Proof.Machine.execCrcData a n value s
  | .crcDataB a n value => Sys2Proof.Machine.execCrcDataB a n value s
  | .crcInit a n => Sys2Proof.Machine.execCrcInit a n s
  | .crcCheck a n => Sys2Proof.Machine.execCrcCheck a n s
  | .touchFrame c noise codes rows cols => Sys2Proof.Machine.execTouchFrame c noise codes rows cols s
  | .touchFrameResult c => Sys2Proof.Machine.execTouchFrameResult c s
  | .rebaseline a c => Sys2Proof.Machine.execRebaseline a c s
  | .controllerEnable a c en => Sys2Proof.Machine.execControllerEnable a c en s
  | .tchReportHdrRead a c => Sys2Proof.Machine.execTchReportHdrRead a c s
  | .wakeGestureScan rows cols => Sys2Proof.Machine.execWakeGestureScan rows cols s
  | .hapChFire a ch waveform amplitude => Sys2Proof.Machine.execHapChFire a ch waveform amplitude s
  | .hapStop a ch => Sys2Proof.Machine.execHapStop a ch s
  | .clearFault a ch => Sys2Proof.Machine.execClearFault a ch s
  | .driveSample ch milliAmp => Sys2Proof.Machine.execDriveSample ch milliAmp s
  | .dmxCommitRegister a p => Sys2Proof.Machine.execDmxCommitRegister a p s
  | .dmxFetchDone p => Sys2Proof.Machine.execDmxFetchDone p s
  | .dmxFrameEnd p => Sys2Proof.Machine.execDmxFrameEnd p s
  | .dmxRefresh p => Sys2Proof.Machine.execDmxRefresh p s
  | .dmxRxFrameEnd p => Sys2Proof.Machine.execDmxRxFrameEnd p s
  | .dmxRxInfoRead a p => Sys2Proof.Machine.execDmxRxInfoRead a p s
  | .rdmTransaction a p => Sys2Proof.Machine.execRdmTransaction a p s
  | .rdmDiscovery a p => Sys2Proof.Machine.execRdmDiscovery a p s
  | .rdmStart p => Sys2Proof.Machine.execRdmStart p s
  | .rdmResponse p bytes framingOk => Sys2Proof.Machine.execRdmResponse p bytes framingOk s
  | .rdmTimeout p => Sys2Proof.Machine.execRdmTimeout p s
  | .midiTx a m byte => Sys2Proof.Machine.execMidiTx a m byte s
  | .midiRxByte m byte ferr startSt => Sys2Proof.Machine.execMidiRxByte m byte ferr startSt s
  | .midiRxRead a m => Sys2Proof.Machine.execMidiRxRead a m s
  | .ltcLoss input edges => Sys2Proof.Machine.execLtcLoss input edges s
  | .ltcInTcRead a input => Sys2Proof.Machine.execLtcInTcRead a input s
  | .ltcOutFrame o => Sys2Proof.Machine.execLtcOutFrame o s
  | .faderConversion n test value => Sys2Proof.Machine.execFaderConversion n test value s
  | .encoderTransition n a b heldNs => Sys2Proof.Machine.execEncoderTransition n a b heldNs s
  | .encCountRead ag n => Sys2Proof.Machine.execEncCountRead ag n s
  | .i2cTransfer a n => Sys2Proof.Machine.execI2cTransfer a n s
  | .spiTransfer a n => Sys2Proof.Machine.execSpiTransfer a n s
  | .busTransferDone n how bytes => Sys2Proof.Machine.execBusTransferDone n how bytes s
  | .gpioSetRegister a b value => Sys2Proof.Machine.execGpioSetRegister a b value s
  | .gpioClr a b value => Sys2Proof.Machine.execGpioClr a b value s
  | .gpioEdge b line rising heldNs => Sys2Proof.Machine.execGpioEdge b line rising heldNs s
  | .usbOvercurrent n => Sys2Proof.Machine.execUsbOvercurrent n s
  | .sampleInstant obs => Sys2Proof.Machine.execSampleInstant obs s
  | .aes67Packet eth addr udp timestamp payload => Sys2Proof.Machine.execAes67Packet eth addr udp timestamp payload s
  | .gainWrite a pt gain => Sys2Proof.Machine.execGainWrite a pt gain s
  | .gainStepDeadline pt => Sys2Proof.Machine.execGainStepDeadline pt s
  | .selectionWrite a m sel => Sys2Proof.Machine.execSelectionWrite a m sel s
  | .eqCommit a b => Sys2Proof.Machine.execEqCommit a b s
  | .playerStart a n clip => Sys2Proof.Machine.execPlayerStart a n clip s
  | .playerStop a n => Sys2Proof.Machine.execPlayerStop a n s
  | .playerPrime a n clip => Sys2Proof.Machine.execPlayerPrime a n clip s
  | .silenceBlock n => Sys2Proof.Machine.execSilenceBlock n s
  | .counterWrap n => Sys2Proof.Machine.execCounterWrap n s
  | .pmcResetAll a => Sys2Proof.Machine.execPmcResetAll a s
  | .preciseSample core r => Sys2Proof.Machine.execPreciseSample core r s
  | .bwWindowClose => Sys2Proof.Machine.execBwWindowClose s
  | .registerWrite a space addr bytes value => Sys2Proof.Machine.execRegisterWrite a space addr bytes value s
  | .perstDeassert p => Sys2Proof.Machine.execPerstDeassert p s
  | .tdmBitClockStop n => Sys2Proof.Machine.execTdmBitClockStop n s
  | .tdmBitClockRuns n => Sys2Proof.Machine.execTdmBitClockRuns n s
  | .dmxRxSlot p value stopOk after => Sys2Proof.Machine.execDmxRxSlot p value stopOk after s

end Sys2Proof.Machine
end

