-- ==== Sys2Proof/Machine/Idle.lean ====
section
/-! DEFINITION. What an empty queue means: one tick of the local 1 GHz clock (R79, R89). -/

namespace Sys2Proof.Machine

/-- ST and the island time copy count 1 ns, corrected by the frequency adjustment in ppb; the correction accumulates in
2^-32 of 1 ns (log entry 5). -/
def State.tickTime (s : State) : State :=
  let total : Int := (s.tim.frac.toNat : Int) + 2 ^ 32 + s.tim.adjust * 2 ^ 32 / 1000000000
  let ns : ST := BitVec.ofInt 64 (total / 2 ^ 32)
  { s with
    tim :=
      { s.tim with
        islandCopy := s.tim.islandCopy + ns
        st := if s.stValid then s.tim.st + ns else s.tim.st
        frac := BitVec.ofInt 32 (total % 2 ^ 32), ticks := s.tim.ticks + 1 } }

/-- What counts at each ns beside time: the MIDI lines (R350), the ms between encoder-move events (R355) and the counters whose
code has no command (R381). -/
def State.tickBlocks (s : State) : State :=
  s.whenAwake (fun s => (forEach (List.range 4) (fun m s => s.midiTick m) s).encSignal.pmcTick)

/-- One tick. While ISL_PORn holds the device nothing counts. -/
def State.tick (s : State) : State :=
  if s.dom.island = .inReset then s
  else { keep s s.tickTime.tickBlocks.deliver with ram := s.ram }

end Sys2Proof.Machine
end

