-- ==== Sys2Proof/Safety.lean ====
section
/-! DEFINITION. What a sound state of the model is, in the terms that statements use. -/

namespace Sys2Proof

/-- A step ends in a next state. -/
def Runs (o : Host.Outcome Machine.State Machine.Fault Machine.Refusal) : Prop := ∃ t, o = .next t

/-- The register file is in canonical form: ranks rising, no copy listed at its reset value. -/
def RegsOk (s : Machine.State) : Prop :=
  Machine.canonical Machine.RegKey.rank (fun k => k.reg.initial) s.regs = true

/-- Memory is in canonical form. -/
def MemoryOk (s : Machine.State) : Prop := Machine.Memory.wf s.ram = true

/-- R83, R89: a phase measurement of a source that is followed: the error is shown, the rate stays within the slew limit, and
ST is not loaded. -/
def FollowsPhase (s t : Machine.State) (err : Int) : Prop :=
  t.get .TIME_PHASE_ERR = BitVec.ofInt 32 (Machine.saturate 32 err) ∧ t.flag Machine.F.TIME_STATUS.clk_present = true
    ∧ t.tim.adjust.natAbs ≤ s.recipe.slewPpm * 1000 ∧ t.tim.st = s.tim.st ∧ t.timeState = s.timeState ∧ t.ram = s.ram

/-- TIME follows its source: ACQUIRING or LOCKED (R88). -/
def Following (s : Machine.State) : Prop := s.timeState = Machine.timeAcquiring ∨ s.timeState = Machine.timeLocked

/-- R126: exactly the ports of a set sent one frame with a counter. -/
def CountsFrames (s t : Machine.State) (sends : Nat → Prop) : Prop :=
  ∀ p, p < 8 →
    (sends p → t.get64 .FAB_PORT_TXCTR_LO .FAB_PORT_TXCTR_HI p = s.get64 .FAB_PORT_TXCTR_LO .FAB_PORT_TXCTR_HI p + 1) ∧
    (¬ sends p → t.get64 .FAB_PORT_TXCTR_LO .FAB_PORT_TXCTR_HI p = s.get64 .FAB_PORT_TXCTR_LO .FAB_PORT_TXCTR_HI p)

/-- R138: a slot does not wait behind its own message in the queue of a peer. -/
def NotQueued (s : Machine.State) (d : BitVec 12) (n : Nat) : Prop := ∀ e, s.fab.txPeer d = some e → n ∉ e.waiting

/-- R131, R133: a port that takes a HELLO at once: it has sent its own and taken none yet, or its rekey stalled. -/
def AwaitsHello (s : Machine.State) (p : Nat) : Prop :=
  (s.portState p = Machine.portHello ∧ (s.fport p).helloDone = false) ∨ s.portState p = Machine.portStall

/-! ### Raster packets (R155, R156) -/

/-- The packet that a context is about to run: the opcode and body of a packet that the packet table allows where it stands, whole
before the tail and fetched without a translation fault, and the state after the fetch. -/
def packetAt (s : Machine.State) (c : Nat) : Option (Nat × List W32 × Machine.State) :=
  let q := s.gfxFetch c (s.fetchAddr c) 4
  let h := BitVec.ofNat 32 (Machine.u32 q.bytes 0)
  let n := Machine.packetLength h
  let b := q.s.gfxFetch c (s.fetchAddr c + 4) (4 * n)
  if s.ctxCanRun c && q.fault.isNone && Machine.headerOk h (s.inPass c) && s.packetFits c (1 + n) && s.packetWhole c (1 + n) &&
      b.fault.isNone && Machine.bodyOk (Machine.packetOp h) (Machine.dwordsOf b.bytes) then
    some (Machine.packetOp h, Machine.dwordsOf b.bytes, b.s)
  else none

/-- The commands that execute packets, each with its opcode (R156). -/
def packetCommands (c : Fin 64) (w : DrawWork) (l : List DrawWork) (x : List ShaderOp) : List (Nat × Instr) :=
  [(0, .nop c), (1, .call c), (16, .stateBind c), (17, .constWrite c), (32, .passBegin c), (33, .passEnd c), (34, .draw c w),
    (35, .drawIndexed c w), (36, .drawIndirect c l), (37, .drawIndexedIndirect c l), (48, .dispatch c x),
    (49, .dispatchIndirect c x), (64, .barrier c), (65, .cacheOp c), (80, .fenceWaitSt c), (81, .waitValue c), (82, .writeValue c),
    (83, .signal c), (97, .layerSubmit c)]

/-- Fetch is n dwords further: in the ring, or in the CALL buffer on top, from which buffers that are used up return. -/
def PastPacket (s u : Machine.State) (c n : Nat) : Prop :=
  match (s.ctx c).calls with
  | [] => u.fget Machine.F.CTX_HEAD.index c = (s.fget Machine.F.CTX_HEAD.index c + n) % s.ringSize c % 2 ^ 22 ∧ (u.ctx c).calls = []
  | (a, k) :: t =>
    u.fget Machine.F.CTX_HEAD.index c = s.fget Machine.F.CTX_HEAD.index c ∧ (u.ctx c).calls = Machine.popCalls ((a + 4 * n, k - n) :: t)

/-- Work is left behind the next n dwords of a context. -/
def WorkAfter (s : Machine.State) (c n : Nat) : Prop := ((s.ctxPast c n).ctxReturn c).ctxHasWork c = true

/-- Nothing is asked of a context: at a boundary it keeps its cores unless its work ends. -/
def NothingAsked (s : Machine.State) (c : Nat) : Prop :=
  (s.ctx c).pendFault = none ∧ (s.ctx c).destroy = false ∧ (s.ctx c).freeze = false
    ∧ s.flag Machine.F.CTX_STATE.destroy_pending c = false

/-- The packet of n dwords is done: fetch is past it; with more work the context runs on with its cores, and without it is IDLE and
holds none. -/
def Executed (s u : Machine.State) (c n : Nat) : Prop :=
  PastPacket s u c n ∧ (WorkAfter s c n → u.ctxState c = Machine.ctxRunning ∧ u.coresOf c = s.coresOf c)
    ∧ (¬ WorkAfter s c n → u.ctxState c = Machine.ctxIdle ∧ u.coresOf c = [])

/-- R171: the context is FAULTED with a code at the ring offset of its packet, holds no cores, and EV_GFX_CTX_FAULT is raised. -/
def PacketFaulted (s u : Machine.State) (c code : Nat) : Prop :=
  u.ctxState c = Machine.ctxFaulted ∧ u.fget Machine.F.CTX_STATE.fault c = code ∧ u.coresOf c = [] ∧ 137 ∈ u.raised
    ∧ u.get .CTX_FAULT_OFFSET c = BitVec.ofNat 32 (s.packetOffset c)

/-- R157: the context waits, holds no cores, and `head` stays. -/
def Waits (s u : Machine.State) (c : Nat) (w : Machine.GfxWait) : Prop :=
  u.ctxState c = Machine.ctxWaiting ∧ (u.ctx c).wait = some w ∧ u.coresOf c = []
    ∧ u.fget Machine.F.CTX_HEAD.index c = s.fget Machine.F.CTX_HEAD.index c ∧ (u.ctx c).calls = (s.ctx c).calls

/-- A released context is past its packet of n dwords: ready or running again when more work waits, else IDLE. -/
def GoesOn (s u : Machine.State) (c n : Nat) : Prop :=
  PastPacket s u c n ∧ (u.ctx c).wait = none
    ∧ (WorkAfter s c n → u.ctxState c = Machine.ctxReady ∨ u.ctxState c = Machine.ctxRunning)
    ∧ (¬ WorkAfter s c n → u.ctxState c = Machine.ctxIdle ∧ u.coresOf c = [])

/-- The owner's addresses are physical: the manager or a partition, whose accesses take no translation fault. -/
def PhysicalOwner (s : Machine.State) (c : Nat) : Prop := s.ctxOwner c = 0 ∨ 64 ≤ s.ctxOwner c

/-- An object stands in its type and slot, and the others are as they were (R158). -/
def Bound (s u : Machine.State) (c type slot : Nat) (b : List Byte) : Prop :=
  (u.ctx c).bindings = ⟨type, slot, b⟩ :: (s.ctx c).bindings.filter (fun e => !(e.type == type && e.slot == slot))

/-- A graphics pipeline of a topology is bound to a context. -/
def Draws (s : Machine.State) (c topology : Nat) : Prop :=
  ∃ b, s.boundPipeline c = some b ∧ Machine.u64 b 16 = 0 ∧ Machine.u8 b 24 = topology

/-- A pass after n more draws, of at least m and at most k primitives in all. -/
def Drew (u : Machine.State) (c : Nat) (p : Machine.PassState) (n m k : Nat) : Prop :=
  ∃ q, (u.ctx c).pass = some q ∧ q.draws = p.draws + n ∧ p.prims + m ≤ q.prims ∧ q.prims ≤ p.prims + k ∧ q.desc = p.desc

/-! ### Layers (R180 to R193) -/

/-- An access to a layer window that acts: by the manager, or by the layer's holder through its page 7 (R182). -/
def LayerReach (s : Machine.State) (a : Agent) (n : Nat) : Prop :=
  s.awake = true ∧ (a = .manager ∨ ((∃ i, a = .guest i) ∨ (∃ p, a = .partition p)) ∧ s.pageSeven a n = true)

/-- Every layer but one is as it was. -/
def OtherLayers (s u : Machine.State) (n : Nat) : Prop := ∀ m, m ≠ n → u.layer m = s.layer m

/-- An output that a command acts on alone: the tails run, and it is no half of a locked pair. -/
def LoneOutput (s : Machine.State) (o : Nat) : Prop := s.clocked .OUT = true ∧ s.tailRecipe.outPair o = false

/-- A state after a command on output o that leaves the timing, lock and link of every other output as they were. -/
def OtherOutputs (s u : Machine.State) (o : Nat) : Prop :=
  ∀ p, p ≠ o → (u.out p).timing = (s.out p).timing ∧ u.lockOf p = s.lockOf p

/-- R216: what training leads to: UP for OpenLDI, WAIT_HPD without hot plug, REFUSED for a sink without the decoder that DSC
needs, else TRAINING. -/
def Trains (s u : Machine.State) (o : Nat) : Prop :=
  u.linkOf o =
    if s.tailRecipe.openLdi o then Machine.lnkUp
    else if s.flag Machine.F.OUT_STATUS.hpd o = false then Machine.lnkWaitHpd
    else if s.tailRecipe.outDsc o ≠ 0 ∧ (s.out o).sinkDsc = false then Machine.lnkRefused
    else Machine.lnkTraining

/-- A channel is ready for a message: the mailbox runs, no message is outstanding, and a pair does the work (R222, R244). -/
def MailReady (s : Machine.State) (chan : Nat) : Prop :=
  s.clocked .ISL = true ∧ s.flag Machine.F.ISL_MBOX_STATUS.tx_busy chan = false ∧ s.islWorks = true

/-- R244, R245: the reply arrived behind the messages that waited, the channel is free, and EV_ISL_MBOX_TX_FREE is raised. -/
def Replied (s u : Machine.State) (chan cmd status : Nat) (seq : W32) (payload : List Byte) : Prop :=
  u.mailRx chan = s.mailRx chan ++ [Machine.mailBytes cmd status seq payload]
    ∧ u.flag Machine.F.ISL_MBOX_STATUS.tx_busy chan = false ∧ u.flag Machine.F.ISL_MBOX_STATUS.rx_valid chan = true
    ∧ 128 ∈ u.raised

/-- The mailbox commands, each with the message that it sends. -/
def mailCommands (c : Fin 2) (seq : W32) (imm : Bool) (o i n : Nat) (mask : Byte) (b : List Byte) :
    List (Instr × Machine.Mail) :=
  [(.glzEdit c seq imm o i n b, ⟨1, seq, .edit imm o i n b⟩), (.glzCommit c seq mask, ⟨2, seq, .commit mask⟩),
    (.glzRead c seq o i, ⟨3, seq, .read o i⟩), (.mainAlive c seq, ⟨4, seq, .alive⟩), (.status c seq, ⟨5, seq, .status⟩),
    (.rngRead c seq n, ⟨16, seq, .random n⟩), (.seal c seq b, ⟨17, seq, .seal b⟩), (.unseal c seq b, ⟨18, seq, .unseal b⟩),
    (.dbgState c seq, ⟨19, seq, .debug⟩)]

/-- R237: what the check of a line compares. -/
def lineSeen (s : Machine.State) (o : Nat) (b : LineObs) : Machine.LineCrcs :=
  if 1 ≤ b.line ∧ b.line ≤ (s.out o).timing.vActive then
    ((s.mainLine o (b.line - 1) b.missing).2.mixLine o (b.line - 1) b (s.mainLine o (b.line - 1) b.missing).1).1
  else ⟨0, 0, 0⟩

/-- The line check of an output is not suspended. -/
def Checked (s : Machine.State) (o : Nat) : Prop := s.scans o = true ∧ s.mixes o = true ∧ s.outSleeps o = false

/-- R254: a port holds no more tags than its pool, a channel no more slots than it has, and every request has a number below the
next one. -/
def MemQueuesOk (s : Machine.State) : Prop :=
  (∀ p, p < 24 → s.portInUse p ≤ Machine.tagPool p) ∧ (∀ c, c < 32 → s.chanInUse c ≤ 64)
    ∧ ∀ q, q ∈ s.mem.waiting ++ s.mem.inFlight → q.id < s.mem.nextId

/-- The commands of the memory system (11_memory.md). -/
def Instr.ofMemory : Instr → Bool
  | .dramRequest .. | .transactionComplete .. | .creditWindow | .rowIdleClose .. | .perBankRefresh .. | .retrainingPause ..
  | .retrainRepeat .. => true
  | _ => false

/-- A request that is served: memory runs, its requester may issue it, and its address, translated where a core uses it, is `pa`
(R254, R264, R269, R272). -/
def Served (s : Machine.State) (r : Requester) (write : Bool) (addr : BitVec 64) (len : Nat) (q : Requester) (pa : Nat) : Prop :=
  s.memRuns = true ∧ q = s.knownRequester r ∧ s.requesterRuns q = true ∧ ∃ t, s.physical q write addr.toNat len = .ok (pa, t)

/-- R274: the CSRs that the trap of a WCALL leaves, and the world in `mworld.pworld`. -/
def WcallTrapped (s t : Machine.State) (n : Nat) (service : Nat) : Prop :=
  (t.core n).mepc = (s.core n).pc ∧ (t.core n).mcause = 24 ∧ (t.core n).mtval = BitVec.ofNat 64 service
    ∧ (t.core n).mtinst = BitVec.ofNat 32 (service * 2 ^ 20 + 0xB) ∧ (t.core n).pworld = s.coreInner n

/-- R274, R275: a WCALL returned: the trap's CSRs, the next instruction, the status in a0, results in a1 and beyond, the registers
past a3 and the world as before; and nothing of another core. -/
def WcallReturned (s t : Machine.State) (n : Nat) (service : Nat) (status : BitVec 64) (results : List (BitVec 64)) : Prop :=
  WcallTrapped s t n service ∧ (t.core n).pc = (s.core n).pc + 4 ∧ (t.core n).a.head? = some status
    ∧ (∀ k, k < results.length → (t.core n).a.getD (k + 1) 0 = results.getD k 0) ∧ (t.core n).a.drop 4 = (s.core n).a.drop 4
    ∧ t.coreInner n = s.coreInner n ∧ (∀ m, m ≠ n → t.core m = s.core m ∧ (m < 8 → t.coreInner m = s.coreInner m))

/-- R266, R267: a core in a mode took an exception: it is delegated as `medeleg` and `hedeleg` say, and the pc, the cause and the
value stand in the CSRs of the mode that handles it. -/
def ExceptionTaken (s t : Machine.State) (n : Nat) (mode : CoreMode) (cause : Nat) (tval : BitVec 64) : Prop :=
  let h := ({ s.core n with mode := mode } : Machine.CoreState).handler cause
  t.sent = .coreTrap n cause :: s.sent ∧ (t.core n).mode = h ∧ (∀ m, m ≠ n → t.core m = s.core m)
    ∧ (h = .m → (t.core n).mepc = (s.core n).pc ∧ (t.core n).mcause = BitVec.ofNat 64 cause ∧ (t.core n).mtval = tval
        ∧ (t.core n).pc = Machine.vectorBase ((s.core n).csr 0x305))
    ∧ (h = .hs → (t.core n).csr 0x141 = (s.core n).pc ∧ (t.core n).csr 0x142 = BitVec.ofNat 64 cause ∧ (t.core n).csr 0x143 = tval
        ∧ (t.core n).pc = Machine.vectorBase ((s.core n).csr 0x105))
    ∧ (h = .vs → (t.core n).csr 0x241 = (s.core n).pc ∧ (t.core n).csr 0x242 = BitVec.ofNat 64 cause ∧ (t.core n).csr 0x243 = tval
        ∧ (t.core n).pc = Machine.vectorBase ((s.core n).csr 0x205))

/-- An access to a channel that acts: by the manager, or by the channel's owner through page 1 (R305, R293). -/
def ChannelReach (s : Machine.State) (a : Agent) (c : Nat) : Prop :=
  s.awake = true ∧ (a = .manager ∨ ((∃ i, a = .guest i) ∨ (∃ p, a = .partition p)) ∧
    ((s.heldChannels (Machine.ownerOf a)).take 32).contains c = true ∧ s.pageOneOpen (Machine.ownerOf a) = true)

/-- The channel whose descriptor an engine has in progress. -/
def InProgress (s : Machine.State) (e c : Nat) : Prop :=
  c = 16 * e + s.fget Machine.F.ENG_STATUS.channel e ∧ s.day = true ∧ s.flag Machine.F.ENG_STATUS.busy e = true
    ∧ s.chState c = Machine.chRunning ∧ (s.chan c).crcWait = false

/-- A range of memory that an owner reaches at its own addresses. -/
def Reaches (s : Machine.State) (e : Machine.Engine) (owner a n : Nat) (write : Bool) : Prop :=
  ∀ x, a ≤ x → x < a + n → s.land e owner x write = (.ram x, s)

/-- A trigger makes the channel run at once: idle, in Day, with no entry in progress, its engine free and no other channel of it
READY (R307, R308, R311). -/
def Startable (s : Machine.State) (c : Nat) : Prop :=
  s.dmaHeld = false ∧ s.chState c = Machine.chIdle ∧ s.flag Machine.F.ENG_STATUS.busy (c / 16) = false
    ∧ ∀ d, d < 256 → d / 16 = c / 16 → s.chState d ≠ Machine.chReady

/-- R312: what the engine reads as the first descriptor of a run. -/
def firstRead (s : Machine.State) (c : Nat) : Machine.Fetched :=
  let t := (((s.dmaMark c).fset Machine.F.CH_STATUS.state Machine.chRunning c).fset Machine.F.ENG_STATUS.channel (c % 16)
    (c / 16)).fset Machine.F.ENG_STATUS.busy 1 (c / 16)
  ((t.put64 .CH_CUR_LO .CH_CUR_HI (BitVec.ofNat 64 (s.chStartAddr c)) c).setChan c Machine.ChanState.initial).engineRead (.dma c)
    (s.dmaHolder c) (s.chStartAddr c % 2 ^ 48) 64

/-- The state in which the completion of a descriptor is signalled: the bytes moved are counted, the CRC channel is free and the code
stands in `last`. -/
def completedState (w : Machine.DmaWork) (c code : Nat) : Machine.State :=
  ((Machine.State.dmaCount w c).releaseCrc c).fset Machine.F.CH_STATUS.last code c

/-- R323: the result of a frame of a controller that runs is due now. -/
def ResultDue (s : Machine.State) (c : Nat) (fr : Machine.TouchFrame) : Prop :=
  s.up = true ∧ s.flag Machine.F.TCH_CTRL.enable c = true ∧ s.pwr.state ≤ 2
    ∧ (s.tc c).scans.find? (fun f => Machine.resultTime f.fs == s.gridTime.toNat) = some fr

/-- R327: the contacts that a frame shows on a controller, with those that have just ended. -/
def Machine.State.contactsNow (s : Machine.State) (c : Nat) (fr : Machine.TouchFrame) : List Machine.Contact :=
  Machine.nameContacts ((Machine.connected ((Machine.touchNodes (s.tc c) fr).filter (·.touched))).map
    (Machine.groupContact (s.recipe.tch c) fr.stale)) (s.tc c).contacts

/-- R334: the phase of a waveform after n cycles of a phase: the overdrive cycles, the drive cycles that remain, the brake cycles;
a phase with no cycles is passed over. -/
def phaseAfter (w : List Byte) (n phase : Nat) : Nat :=
  let brake := if 0 < Machine.waveBrake w then Machine.hapBrake else Machine.hapIdle
  if phase = Machine.hapOverdrive then
    if n < Machine.waveOd w then phase
    else if Machine.waveOd w < Machine.waveCycles w then Machine.hapDrive else brake
  else if phase = Machine.hapDrive then (if n < Machine.waveCycles w - Machine.waveOd w then phase else brake)
  else if n < Machine.waveBrake w then phase
  else Machine.hapIdle

/-- R355: an encoder of the recipe whose new levels last as long as the glitch filter asks, while the main domain is up. -/
def Filtered (s : Machine.State) (n heldNs : Nat) : Prop :=
  s.up = true ∧ Machine.bit s.recipe.encMask n = 1 ∧ s.recipe.encFilter ≤ heldNs

/-- R372: a block of 10 ms of a port whose clock runs has ended, and has not been judged. -/
def BlockEnds (s : Machine.State) (p : Nat) : Prop :=
  s.awake = true ∧ s.portClocked p = true ∧ s.blockNow ≠ Machine.Tbl.get 0 s.aud.judged p

/-- R278, R384: precise sampling takes a core's instructions: the core runs, the mask names it, and its world allows it. -/
def Sampled (s : Machine.State) (core : Nat) : Prop :=
  s.coreRuns core = true ∧ s.flag Machine.F.PSAMP_CTRL.enable = true ∧ Machine.bit (s.fget Machine.F.PSAMP_CTRL.core_mask) core = 1
    ∧ s.nonInvasive (s.coreInner core) = true

/-- The registers whose write changes their own fields and does nothing else, and whose read shows them. -/
def Machine.Reg.plainWrite : Machine.Reg → Bool
  | .SYS_RESET_CAUSE | .SYS_RCP_STATUS | .SYS_RCP_PUSH_ADDR_LO | .SYS_RCP_PUSH_ADDR_HI | .SYS_RCP_PUSH_LEN
    | .TIME_STATUS | .FAB_SLOT_DONE | .FAB_SLOT_CFG | .FAB_SLOT_VOID | .FAB_SLOT_DATA | .FAB_APP_RING_LO
    | .FAB_APP_RING_HI | .FAB_APP_RING_CFG | .FAB_APP_RING_TAIL | .ISL_MBOX_TX | .CMP_OUT_BG | .LAYER_CTRL
    | .LAYER_FMT | .LAYER_SRC_SIZE | .LAYER_CROP | .LAYER_DST_POS | .LAYER_DST_SIZE | .LAYER_PITCH | .LAYER_PLANE_OFF
    | .LAYER_META_OFF | .LAYER_OPQ_POS | .LAYER_OPQ_SIZE | .WARP_K | .SUB_ADDR_LO | .SUB_ADDR_HI | .SUB_NB_LO
    | .SUB_NB_HI | .SUB_DA_LO | .SUB_DA_HI | .SUB_REF_LO | .SUB_REF_HI | .SUB_STATUS | .OUT_STATUS | .OUT_FRZ_CTRL
    | .OUT_FRZ_WIN_POS | .OUT_FRZ_WIN_SIZE | .MEM_PAGE_CTRL | .MEM_PORT_QOS | .VIR_CREATE_SHAPE | .VIR_CREATE_QUOTA
    | .VIR_CREATE_LAYERS_LO | .VIR_CREATE_LAYERS_HI | .VIR_CREATE_DRAM_BASE | .VIR_CREATE_DRAM_SIZE | .VIR_INST_BUF_LO
    | .VIR_INST_BUF_HI | .VIR_INST_BUF_LEN | .CH_CQ_HEAD | .CH_VEC | .CH_TRIG | .CRC_EXPECT | .TCH_THRESH
    | .TCH_THRESH2 | .DMX_TIMING2 | .DMX_BUF_LO | .DMX_BUF_HI | .DMX_STATUS | .DMX_RDM_ADDR_LO | .DMX_RDM_ADDR_HI
    | .DMX_RDM_LEN | .DMX_GRID_PERIOD | .DMX_GRID_PHASE_LO | .DMX_GRID_PHASE_HI | .MIDI_STATUS | .LTC_OUT_CTRL
    | .BUS_CFG | .BUS_DATA | .GPIO_EDGE_RISE | .GPIO_EDGE_FALL | .GPIO_EDGE | .CLIP_TABLE_LO | .CLIP_TABLE_HI
    | .CLIP_COUNT | .BUS_EQ_A | .BUS_EQ_B | .BUS_LIM | .BUS_LIM2 | .BUS_STATUS_A | .PLAYER_FADE | .PLAYER_STATUS
    | .TONE_LEVEL | .SIL_CFG | .AES_ADDR | .AES_UDP | .AES_TS_OFFSET | .AES_LINK_OFFSET
    | .PF_MSIX_ADDR_LO | .PF_MSIX_ADDR_HI | .PF_MSIX_DATA | .PF_MSIX_CTRL | .EVT_CUE_SRC | .EVT_CUE_ENTRY
    | .EVT_HAP_LINK_A | .EVT_HAP_LINK_B | .PMC_SEL | .PMC_OWNER | .PMC_ADDR_BASE_LO | .PMC_ADDR_BASE_HI
    | .PMC_ADDR_LIMIT_LO | .PMC_ADDR_LIMIT_HI | .PSAMP_CTRL | .PSAMP_RD | .PSAMP_WM | .PMU_WAKE_CAUSE | .PMU_AOT_WAKE => true
  | _ => false

/-- R332: every word of a latched touch report is a word of the report block. -/
def LatchesOk (s : Machine.State) : Prop :=
  ∀ l ∈ s.latches, ∀ w ∈ l.words, [Machine.Reg.TCH_CSTATUS, .TCH_FRAME_ST_LO, .TCH_FRAME_ST_HI, .TCH_REPORT_HDR, .TCH_REGION,
    .TCH_DEGRADED, .TCH_CONTACT_A, .TCH_CONTACT_B].contains w.1 = true

/-- An access to the registers of a USB host controller. -/
def Instr.reachesUsb (s : Machine.State) : Instr → Bool
  | .splitLowWordRead a sp addr bytes | .registerWrite a sp addr bytes _ =>
    Machine.wellShaped addr bytes && s.reaches a sp addr == .usb
  | _ => false

/-! ### What a command may change -/

/-- The chapter of the spec that gives a command; 0 for an access by address, which may reach any block. -/
def Instr.chapter : Instr → Nat
  | .splitLowWordRead .. | .registerWrite .. => 0
  | .islPornAssert | .islPornRelease .. | .islandFirmwareCheck .. | .sysResetnFall | .sysResetnFilterExpiry |
    .sysResetnRise | .stuckResetRelease | .releaseTimerExpiry | .perstAssert .. | .fullResetRequest .. |
    .resetToLoader .. | .supplyOutOfRange .. | .supplyInRange | .sensorRead .. | .mainDomainRelease .. | .tartalCheck .. |
    .dramBootTraining .. | .recipeImageFetch .. | .signatureCheck | .admission | .push .. | .powerStateEntry .. |
    .coreWfiTimeout | .entryCommit | .wakeSource .. | .exitToDay .. | .alwaysOnTimerMatch | .cueLookaheadWake |
    .perstDeassert .. => 3
  | .syncRx .. | .ptpMessageRx .. | .genlockHPulse .. | .genlockVPulse .. | .ltcFrame .. | .mainsZeroCrossing |
    .sourceLoss .. | .lockConditionMet | .lockLost | .axisSampleInstant .. | .ssiReadEnd .. | .coastDeadline .. |
    .axisPosRead .. | .ltcTcRead .. => 4
  | .cueArm .. | .cueModify .. | .cueCancel .. | .cueRead .. | .cueClr .. | .staging | .axisCueEvaluation .. |
    .launchWindow => 5
  | .blockLock .. | .verifyResend .. | .verifyResponse .. | .hello .. | .key .. | .certificateCheck .. | .finish .. |
    .linkAck .. | .linkRetryTimer .. | .rekeyStart .. | .rekey .. | .rekeyStall .. | .oldPhaseAcceptEnd .. | .enum .. |
    .topo .. | .heartbeatSend | .heartbeat .. | .heartbeatMissed .. | .blockLockLoss .. | .ringFault .. | .ringHealed .. |
    .indication .. | .expressSendSlot | .data .. | .reply .. | .bulkData .. | .messageRepeat .. | .senderTimeout .. |
    .peerRecordRelease .. | .fabSlotSend .. | .fabPeerRelease .. | .pdelayTimer | .pdelayMessage .. | .syncSend |
    .announceSend | .announce .. | .unsupportedFrame .. => 6
  | .doorbell .. | .nop .. | .call .. | .stateBind .. | .constWrite .. | .passBegin .. | .passEnd .. | .draw .. |
    .drawIndexed .. | .drawIndirect .. | .drawIndexedIndirect .. | .dispatch .. | .dispatchIndirect .. | .barrier .. |
    .cacheOp .. | .fenceWaitSt .. | .fenceWaitStRelease .. | .waitValue .. | .waitValueSatisfied .. | .writeValue .. |
    .signal .. | .layerSubmit .. | .gfxCtxAlloc .. | .ctxFreeze .. | .ctxResume .. | .ctxDestroy .. | .sliceExpiry .. |
    .preemptionPoint .. | .yieldTimeout .. => 7
  | .frameStart .. | .layerCommit .. | .submission .. | .flush .. | .relPop .. | .warpBand .. | .cursorCopyDone .. |
    .outputEnable .. | .applyTiming .. | .retrain .. | .hotPlug .. | .hotPlugLoss .. | .trainingDone .. |
    .trainingRetry .. | .genlockReferenceLoss .. | .lineEnd .. | .outFrzClr .. => 8
  | .checkpoint | .lockstepError | .pairSwitch | .pairSelfTest .. | .sramCorrectedError | .glzEdit .. | .glzCommit .. |
    .glzRead .. | .mainAlive .. | .status .. | .rngRead .. | .seal .. | .unseal .. | .dbgState .. | .islMboxRxPop .. |
    .commitTakesEffect .. | .islandPass | .rendererReload .. | .mainAliveTimeout | .glazeStatusWord => 10
  | .dramRequest .. | .transactionComplete .. | .creditWindow | .rowIdleClose .. | .perBankRefresh .. |
    .retrainingPause .. | .retrainRepeat .. => 11
  | .version .. | .enter .. | .wcallReturn .. | .islCall .. | .dbgLower .. | .fenceQuery .. | .partitionService .. |
    .mworldWrite .. | .lowerDebugEnable .. | .haltRequest .. | .ownershipRequest .. | .ownershipRetry .. |
    .cacheError .. => 12
  | .vfEnable .. | .virPortCfg .. | .create .. | .instFreeze .. | .instResume .. | .save .. | .saveDone .. | .restore .. |
    .restoreDone .. | .destroy .. | .destroyDone .. | .flr .. | .flrDone .. | .guestMailboxGo .. | .virMbRxPop .. |
    .virMbTxGo .. | .guestMailboxPop .. | .invalidation .. | .ttRootWrite .. | .invalidationDone .. |
    .translatedRequest .. => 13
  | .chStart .. | .dmaTimer .. | .dmaTrigPin .. | .descriptorComplete .. | .dmaPause .. | .pauseDrained .. |
    .dmaResume .. | .crcData .. | .crcDataB .. | .crcInit .. | .crcCheck .. => 14
  | .touchFrame .. | .touchFrameResult .. | .rebaseline .. | .controllerEnable .. | .tchReportHdrRead .. |
    .wakeGestureScan .. | .hapChFire .. | .hapStop .. | .clearFault .. | .driveSample .. => 15
  | .dmxCommitRegister .. | .dmxFetchDone .. | .dmxFrameEnd .. | .dmxRefresh .. | .dmxRxFrameEnd .. | .dmxRxInfoRead .. |
    .rdmTransaction .. | .rdmDiscovery .. | .rdmStart .. | .rdmResponse .. | .rdmTimeout .. | .midiTx .. | .midiRxByte .. |
    .midiRxRead .. | .ltcLoss .. | .ltcInTcRead .. | .ltcOutFrame .. | .faderConversion .. | .encoderTransition .. |
    .encCountRead .. | .i2cTransfer .. | .spiTransfer .. | .busTransferDone .. | .gpioSetRegister .. | .gpioClr .. |
    .gpioEdge .. | .usbOvercurrent .. | .dmxRxSlot .. => 16
  | .sampleInstant .. | .aes67Packet .. | .gainWrite .. | .gainStepDeadline .. | .selectionWrite .. | .eqCommit .. |
    .playerStart .. | .playerStop .. | .playerPrime .. | .silenceBlock .. | .tdmBitClockStop .. | .tdmBitClockRuns .. => 17
  | .counterWrap .. | .pmcResetAll .. | .preciseSample .. | .bwWindowClose => 18

/-- The command ends in a state that may have lost memory whole: a reset, or the exit from a power state. -/
def Instr.losesMemory (s : Machine.State) : Instr → Bool
  | .islPornAssert | .sysResetnFilterExpiry | .perstAssert .. | .fullResetRequest .. | .resetToLoader .. |
    .supplyOutOfRange .. | .sensorRead .. | .exitToDay .. => true
  | .registerWrite a space addr _ _ => (s.reaches a space addr).inSys
  | _ => false

/-- The agent of a row that only the manager may use. -/
def Instr.managerRow : Instr → Option Agent
  | .powerStateEntry a _ _ | .gfxCtxAlloc a _ _ | .ctxResume a _ | .ctxDestroy a _ | .outFrzClr a _ | .virPortCfg a _ _ |
    .create a _ | .virMbRxPop a _ | .virMbTxGo a _ | .crcData a _ _ | .crcDataB a _ _ | .crcInit a _ | .crcCheck a _ |
    .rebaseline a _ | .controllerEnable a _ _ | .tchReportHdrRead a _ | .hapChFire a _ _ _ | .hapStop a _ |
    .clearFault a _ | .dmxCommitRegister a _ | .dmxRxInfoRead a _ | .rdmTransaction a _ | .rdmDiscovery a _ |
    .midiTx a _ _ | .midiRxRead a _ | .ltcInTcRead a _ | .i2cTransfer a _ | .spiTransfer a _ | .gpioSetRegister a _ _ |
    .gpioClr a _ _ | .gainWrite a _ _ | .selectionWrite a _ _ | .eqCommit a _ | .playerStart a _ _ | .playerStop a _ |
    .playerPrime a _ _ => some a
  | .encCountRead ag _ => some ag
  | _ => none

section Stores
open Machine

/-- The bytes that a command stores, and where: the function by which its meaning stores them, at the state before. -/
def Instr.stores (s : State) : Instr → List Store
  | .data p h m => (s.ringWrite (s.dataStored p h m) m.appPort (dataEntryBytes m) (fun s => s.dataRx p h m)).1
  | .bulkData p h appPort body =>
    (s.ringWrite (s.bulkStored p h appPort body) appPort (body.take 1466) (fun s => s.bulkRx p h appPort body)).1
  | .nop c => (s.packet c 0 (fun b s => s.ctxAdvance c (1 + b.length))).1
  | .call c => (s.packet c 1 (fun b s => s.call c (dword2 b 0) (dword b 2))).1
  | .stateBind c => (s.packet c 16 (fun b s => s.stateBind c (dword b 0 % 256) (dword b 0 / 256) (dword2 b 1))).1
  | .constWrite c => (s.packet c 17 (fun b s => s.constWrite c (dword b 0) (b.drop 1))).1
  | .passBegin c => (s.packet c 32 (fun b s => s.passBegin c (dword2 b 0))).1
  | .passEnd c => (s.packet c 33 (fun _ s => s.passEnd c)).1
  | .draw c w => (s.packet c 34 (fun b s => s.drawPacket c 5 (fun s => s.drawOnce c b [] w))).1
  | .drawIndexed c w => (s.packet c 35 (fun b s => s.drawPacket c 6 (fun s => s.drawIndexedOnce c b w))).1
  | .drawIndirect c w => (s.packet c 36 (fun b s => s.drawIndirect c b 16 (fun k r s => s.drawOnce c r [] (workAt w k)))).1
  | .drawIndexedIndirect c w =>
    (s.packet c 37 (fun b s => s.drawIndirect c b 20 (fun k r s => s.drawIndexedOnce c r (workAt w k)))).1
  | .dispatch c w => (s.packet c 48 (fun b s => chain [fun s => s.dispatchOnce c b w, fun s => s.ctxAdvance c 4] s)).1
  | .dispatchIndirect c w =>
    (s.packet c 49 (fun b s => s.packetLoad c (dword2 b 0) 12 (fun r s => chain [fun s => s.dispatchOnce c (dwordsOf r) w, fun s => s.ctxAdvance c 3] s))).1
  | .barrier c =>
    (s.packet c 64 (fun b s => chain [fun s => s.barrierActions c (dword b 0), fun s => s.ctxAdvance c 2] s)).1
  | .cacheOp c => (s.packet c 65 (fun b s => s.cacheOp c (dword b 0) (dword2 b 1) (dword b 3))).1
  | .fenceWaitSt c => (s.packet c 80 (fun b s => s.fenceWait c (BitVec.ofNat 64 (dword2 b 0)))).1
  | .fenceWaitStRelease c => (s.fenceRelease c).1
  | .waitValue c => (s.packet c 81 (fun b s => s.waitValue c (dword2 b 0) (BitVec.ofNat 64 (dword2 b 2)) (dword b 4))).1
  | .waitValueSatisfied c => (s.waitSatisfied c).1
  | .writeValue c => (s.packet c 82 (fun b s => s.writeValue c (dword2 b 0) (BitVec.ofNat 64 (dword2 b 2)) (dword b 4))).1
  | .signal c => (s.packet c 83 (fun b s => s.signal c (BitVec.ofNat 64 (dword2 b 0)) (dword b 2))).1
  | .layerSubmit c => (s.packet c 97 (fun b s => s.layerSubmit c (dword b 0 % 64) (submitFrame b))).1
  | .ctxFreeze a c => (if a = .manager ∧ s.day then s.ctxFreezeOp c else noStore (s.emit (.busError a))).1
  | .preemptionPoint c => (s.preemptionPoint c).1
  | .dramRequest r write addr len bytes _ => s.requestStores r write addr.toNat len bytes
  | .transactionComplete id ecc => s.completeStores id ecc
  | .islCall core => s.islCallStores core
  | .partitionService core word => if isWcall word && serviceOf word == 16 then s.islCallStores core else []
  | .cacheError level single addr _ _ => s.lineStores level single addr.toNat
  | .instFreeze a i => (s.managed a (fun s => s.control i [instActive] (fun s => s.freezeInst i))).1
  | .instResume a i => (s.managed a (fun s => s.control i [instFrozen] (fun s => noStore (s.resumeInst i)))).1
  | .save a i => (s.managed a (fun s => s.control i [instFrozen] (fun s => noStore (s.saveInst i)))).1
  | .restore a i container =>
    (s.managed a (fun s => s.control i [instActive] (fun s => noStore (s.restoreInst i container)))).1
  | .destroy a i =>
    (s.managed a (fun s => s.control i [instActive, instFreezing, instFrozen] (fun s => noStore ((s.setInst i instDestroying).resetSteps i)))).1
  | .destroyDone i => (s.destroyDone i).1
  | .flrDone i => (s.flrDone i).1
  | .descriptorComplete e => (s.descriptorComplete e).1
  | .pauseDrained ch => (s.pauseDrained ch).1
  | .rdmResponse p bytes framingOk => (if s.awake then s.rdmResponse p bytes framingOk else noStore s).1
  | .preciseSample core r => (s.preciseSample core r).1
  | .dmxRxSlot p value stopOk after => (s.dmxRxSlot p value stopOk after).1
  | .registerWrite a space addr bytes value => (s.writeAt a space addr bytes value).1
  | _ => []

end Stores

/-- The registers that a command may write beside those of event delivery: its destination registers. A reset, an access by
address and the rows that make, load or clear an instance may write many, and are left out of the frames. -/
def Instr.writes : Instr → List Machine.Reg
  | .admission =>
    [.AUD_STATUS, .AXIS_STATUS, .BW_PORT_HI, .BW_PORT_LO, .BW_SEQ, .CMP_STATUS, .CPX_DBG_EN, .CPX_FENCE_REGION_BASE,
     .CPX_FENCE_REGION_SIZE, .CPX_STATUS, .DMX_CFG, .DMX_STATUS, .DMX_TIMING, .DMX_TIMING2, .FAB_PORT_STATUS,
     .FAB_STATUS, .GFX_BIN_FREE, .GPIO_OUT, .ISL_GLAZE_STATUS, .ISL_MBOX_RX, .ISL_MBOX_STATUS, .ISL_STATUS, .LAYER_ID,
     .MEM_CEILING_NOW, .MEM_PORT_RESERVE, .MEM_RESERVED_NOW, .MEM_STATUS, .OUT_CTRL, .OUT_PCLK, .OUT_STATUS, .OUT_SUB_BG,
     .OUT_TIMING_H0, .OUT_TIMING_H1, .OUT_TIMING_V0, .OUT_TIMING_V1, .SLIP_COUNT, .SYS_RCP_BW_ADMITTED,
     .SYS_RCP_BW_CEILING, .SYS_RCP_ERR_DETAIL, .SYS_RCP_STATUS, .TCH_CTRL, .TCH_STATUS, .TCH_THRESH, .TCH_THRESH2,
     .TIME_FREQ_ADJ, .TIME_STATUS, .VIR_INST_STATE, .VIR_POOL_FREE_0, .VIR_POOL_FREE_1, .VIR_STATUS]
  | .entryCommit =>
    [.AUD_STATUS, .BW_PORT_HI, .BW_PORT_LO, .BW_SEQ, .FAB_PORT_STATUS, .FAB_PORT_TXCTR_HI, .FAB_PORT_TXCTR_LO,
     .FAB_STATUS, .ISL_GLAZE_STATUS, .ISL_MBOX_RX, .ISL_MBOX_STATUS, .ISL_STATUS, .OUT_STATUS, .PLAYER_STATUS,
     .SIL_STATUS, .SLIP_COUNT, .TIME_FREQ_ADJ, .TIME_STATUS]
  | .silenceBlock .. => [.AUD_STATUS, .SIL_STATUS]
  | .tdmBitClockStop .. | .tdmBitClockRuns .. => [.AUD_STATUS]
  | .ssiReadEnd .. =>
    [.AXIS_SAMPLE_RAW, .AXIS_STATUS, .CUE_VOID_COUNT, .SSI_RAW, .SSI_STATUS]
  | .axisSampleInstant .. | .coastDeadline .. => [.AXIS_STATUS]
  | .busTransferDone .. => [.BUS_DATA, .BUS_STATUS]
  | .gainWrite .. => [.BUS_GAIN, .BUS_IN, .OUT_SEL]
  | .sampleInstant .. =>
    [.BUS_GAIN, .BUS_STATUS_A, .LOSS_COUNT, .PLAYER_STATUS, .SLIP_COUNT, .UNDERRUN_COUNT]
  | .gainStepDeadline .. => [.BUS_GAIN]
  | .selectionWrite .. => [.BUS_IN, .OUT_SEL]
  | .i2cTransfer .. | .spiTransfer .. => [.BUS_STATUS]
  | .bwWindowClose => [.BW_PORT_HI, .BW_PORT_LO, .BW_SEQ]
  | .certificateCheck .. | .finish .. | .enum .. | .topo .. | .ringFault .. | .ringHealed .. | .announce .. =>
    [.BW_PORT_HI, .BW_PORT_LO, .BW_SEQ, .FAB_PORT_AUTH_FAIL, .FAB_PORT_STATUS, .FAB_PORT_TXCTR_HI, .FAB_PORT_TXCTR_LO,
     .FAB_STATUS, .OUT_STATUS, .SLIP_COUNT, .TIME_FREQ_ADJ, .TIME_STATUS]
  | .syncRx .. =>
    [.BW_PORT_HI, .BW_PORT_LO, .BW_SEQ, .FAB_PORT_AUTH_FAIL, .OUT_STATUS, .SLIP_COUNT, .TIME_FREQ_ADJ, .TIME_PHASE_ERR,
     .TIME_STATUS]
  | .rekeyStall .. | .heartbeatMissed .. | .blockLockLoss .. | .announceSend =>
    [.BW_PORT_HI, .BW_PORT_LO, .BW_SEQ, .FAB_PORT_STATUS, .FAB_PORT_TXCTR_HI, .FAB_PORT_TXCTR_LO, .FAB_STATUS,
     .OUT_STATUS, .SLIP_COUNT, .TIME_FREQ_ADJ, .TIME_STATUS]
  | .ltcFrame .. =>
    [.BW_PORT_HI, .BW_PORT_LO, .BW_SEQ, .LTC_IN_STATUS, .LTC_IN_ST_HI, .LTC_IN_ST_LO, .LTC_IN_TC, .LTC_IN_USER,
     .OUT_STATUS, .SLIP_COUNT, .TIME_FREQ_ADJ, .TIME_LTC_ST_HI, .TIME_LTC_ST_LO, .TIME_LTC_TC, .TIME_PHASE_ERR,
     .TIME_STATUS]
  | .ptpMessageRx .. | .genlockHPulse .. | .mainsZeroCrossing =>
    [.BW_PORT_HI, .BW_PORT_LO, .BW_SEQ, .OUT_STATUS, .SLIP_COUNT, .TIME_FREQ_ADJ, .TIME_PHASE_ERR, .TIME_STATUS]
  | .descriptorComplete .. => [.CH_CQ_HEAD]
  | .destroyDone .. =>
    [.CH_TRIG, .CTX_CFG, .VIR_INST_SAVE_SIZE, .VIR_INST_STATE, .VIR_POOL_FREE_0, .VIR_POOL_FREE_1, .VIR_STATUS]
  | .flrDone .. =>
    [.CH_TRIG, .VIR_INST_STATE, .VIR_POOL_FREE_0, .VIR_POOL_FREE_1, .VIR_STATUS]
  | .frameStart .. =>
    [.CMP_OUT_FS_HI, .CMP_OUT_FS_LO, .CMP_SHED_HI, .CMP_SHED_LO, .CNT_LATE, .CNT_SKIPPED, .ISL_GLAZE_STATUS,
     .ISL_HB_FAIL_COUNT, .ISL_MBOX_RX, .ISL_MBOX_STATUS, .ISL_STATUS, .LAYER_COMMIT, .LAYER_STATUS, .OUT_FRAME_INDEX,
     .OUT_FRZ_COUNT, .OUT_FRZ_SIG, .OUT_LOCK_ERR, .OUT_STATUS, .REL_INFO, .REL_ST_HI, .REL_ST_LO, .SUB_STATUS]
  | .warpBand .. =>
    [.CNT_CLAMP, .LAYER_STATUS, .REL_INFO, .REL_ST_HI, .REL_ST_LO, .SUB_STATUS]
  | .submission .. =>
    [.CNT_LATE, .CNT_REFUSED, .CNT_SKIPPED, .LAYER_STATUS, .REL_INFO, .REL_ST_HI, .REL_ST_LO, .SUB_STATUS]
  | .flush .. =>
    [.CNT_LATE, .CNT_SKIPPED, .LAYER_STATUS, .REL_INFO, .REL_ST_HI, .REL_ST_LO, .SUB_STATUS]
  | .save .. =>
    [.CNT_LATE, .CNT_SKIPPED, .LAYER_STATUS, .REL_INFO, .REL_ST_HI, .REL_ST_LO, .SUB_STATUS, .VIR_INST_STATE]
  | .layerSubmit .. =>
    [.CNT_REFUSED, .CTX_CFG, .CTX_FAULT_ADDR_HI, .CTX_FAULT_ADDR_LO, .CTX_FAULT_OFFSET, .CTX_HEAD, .CTX_STATE, .CTX_TAIL,
     .GFX_BIN_FREE, .GFX_STATUS, .LAYER_STATUS, .REL_INFO, .REL_ST_HI, .REL_ST_LO, .SUB_STATUS, .VIR_INST_STATE]
  | .lowerDebugEnable .. => [.CPX_DBG_EN, .CPX_STATUS]
  | .version .. | .enter .. | .wcallReturn .. | .islCall .. | .dbgLower .. | .fenceQuery .. | .partitionService .. =>
    [.CPX_DBG_EN, .CPX_STATUS, .ISL_GLAZE_STATUS, .ISL_MBOX_RX, .ISL_MBOX_STATUS, .ISL_STATUS, .OUT_STATUS]
  | .mworldWrite .. | .haltRequest .. => [.CPX_STATUS]
  | .draw .. | .drawIndexed .. | .drawIndirect .. | .drawIndexedIndirect .. =>
    [.CTX_CFG, .CTX_FAULT_ADDR_HI, .CTX_FAULT_ADDR_LO, .CTX_FAULT_OFFSET, .CTX_HEAD, .CTX_STATE, .CTX_TAIL,
     .GFX_BIN_FREE, .GFX_PARTIAL_COUNT, .GFX_STATUS, .VIR_INST_STATE]
  | .signal .. =>
    [.CTX_CFG, .CTX_FAULT_ADDR_HI, .CTX_FAULT_ADDR_LO, .CTX_FAULT_OFFSET, .CTX_HEAD, .CTX_STATE, .CTX_TAIL,
     .GFX_BIN_FREE, .GFX_STATUS, .QCOMP_HI, .QCOMP_LO, .VIR_INST_STATE]
  | .nop .. | .call .. | .stateBind .. | .constWrite .. | .passBegin .. | .passEnd .. | .dispatch .. |
    .dispatchIndirect .. | .barrier .. | .cacheOp .. | .fenceWaitSt .. | .fenceWaitStRelease .. | .waitValue .. |
    .waitValueSatisfied .. | .writeValue .. | .preemptionPoint .. =>
    [.CTX_CFG, .CTX_FAULT_ADDR_HI, .CTX_FAULT_ADDR_LO, .CTX_FAULT_OFFSET, .CTX_HEAD, .CTX_STATE, .CTX_TAIL,
     .GFX_BIN_FREE, .GFX_STATUS, .VIR_INST_STATE]
  | .ctxDestroy .. =>
    [.CTX_CFG, .CTX_HEAD, .CTX_STATE, .CTX_TAIL, .GFX_BIN_FREE, .GFX_STATUS, .VIR_INST_STATE]
  | .gfxCtxAlloc .. =>
    [.CTX_CFG, .CTX_SLICE, .CTX_STATE, .GFX_CTX_ALLOC_STATUS, .GFX_STATUS]
  | .doorbell .. =>
    [.CTX_FAULT_ADDR_HI, .CTX_FAULT_ADDR_LO, .CTX_FAULT_OFFSET, .CTX_STATE, .CTX_TAIL, .GFX_STATUS]
  | .ctxResume .. | .yieldTimeout .. => [.CTX_STATE, .GFX_STATUS]
  | .ctxFreeze .. | .instFreeze .. | .instResume .. => [.CTX_STATE, .GFX_STATUS, .VIR_INST_STATE]
  | .launchWindow =>
    [.CUE_DEFER_COUNT, .CUE_LATE_COUNT, .CUE_MARK_ST_HI, .CUE_MARK_ST_LO, .CUE_MARK_TAG, .CUE_VOID_COUNT,
     .DMX_REFUSED_COUNT, .DMX_STATUS, .FAB_PEER_COUNT, .FAB_PORT_TXCTR_HI, .FAB_PORT_TXCTR_LO, .FAB_SLOT_DONE,
     .FAB_SLOT_RESULT_HI, .FAB_SLOT_RESULT_LO, .FAB_SLOT_STATUS, .GPIO_EDGE, .GPIO_EDGE_ST_HI, .GPIO_EDGE_ST_LO,
     .GPIO_OUT, .LAYER_STATUS, .REL_INFO, .REL_ST_HI, .REL_ST_LO, .SUB_STATUS]
  | .cueClr .. => [.CUE_DEFER_COUNT, .CUE_LATE_COUNT, .CUE_VOID_COUNT]
  | .cueRead .. => [.CUE_ENTRY, .CUE_STATUS]
  | .data .. =>
    [.CUE_STATUS, .FAB_APP_RING_HEAD, .FAB_PEER_COUNT, .FAB_PORT_AUTH_FAIL, .FAB_PORT_TXCTR_HI, .FAB_PORT_TXCTR_LO]
  | .cueArm .. | .cueModify .. | .cueCancel .. => [.CUE_STATUS]
  | .dmxFetchDone .. => [.DMX_LATE_FETCH_COUNT]
  | .rdmResponse .. => [.DMX_RDM_UID_HI, .DMX_RDM_UID_LO, .DMX_STATUS]
  | .dmxCommitRegister .. => [.DMX_REFUSED_COUNT, .DMX_STATUS]
  | .dmxRxSlot .. =>
    [.DMX_RX_ERR_COUNT, .DMX_RX_INFO, .DMX_RX_ST_HI, .DMX_RX_ST_LO]
  | .dmxRxFrameEnd .. => [.DMX_RX_INFO, .DMX_RX_ST_HI, .DMX_RX_ST_LO]
  | .dmxFrameEnd .. | .dmxRefresh .. | .rdmTransaction .. | .rdmDiscovery .. | .rdmStart .. |
    .rdmTimeout .. => [.DMX_STATUS]
  | .encoderTransition .. => [.ENC_COUNT, .ENC_ERR_COUNT]
  | .encCountRead .. => [.ENC_ST_HI, .ENC_ST_LO]
  | .splitLowWordRead .. =>
    [.ENC_ST_HI, .ENC_ST_LO, .MIDI_RX_ST_HI, .MIDI_RX_ST_LO, .MIDI_STATUS]
  | .bulkData .. =>
    [.FAB_APP_RING_HEAD, .FAB_PORT_AUTH_FAIL, .FAB_PORT_TXCTR_HI, .FAB_PORT_TXCTR_LO]
  | .reply .. =>
    [.FAB_LATE_REPLY_COUNT, .FAB_PORT_AUTH_FAIL, .FAB_PORT_TXCTR_HI, .FAB_PORT_TXCTR_LO, .FAB_SLOT_DONE,
     .FAB_SLOT_RESULT_HI, .FAB_SLOT_RESULT_LO, .FAB_SLOT_STATUS]
  | .fabSlotSend .. =>
    [.FAB_PEER_COUNT, .FAB_PORT_TXCTR_HI, .FAB_PORT_TXCTR_LO, .FAB_SLOT_DONE, .FAB_SLOT_RESULT_HI, .FAB_SLOT_RESULT_LO,
     .FAB_SLOT_STATUS]
  | .peerRecordRelease .. | .fabPeerRelease .. => [.FAB_PEER_COUNT]
  | .pdelayMessage .. =>
    [.FAB_PORT_AUTH_FAIL, .FAB_PORT_DELAY, .FAB_PORT_TXCTR_HI, .FAB_PORT_TXCTR_LO]
  | .key .. | .rekey .. | .indication .. =>
    [.FAB_PORT_AUTH_FAIL, .FAB_PORT_TXCTR_HI, .FAB_PORT_TXCTR_LO]
  | .linkAck .. | .heartbeat .. => [.FAB_PORT_AUTH_FAIL]
  | .unsupportedFrame .. => [.FAB_PORT_DISCARD]
  | .linkRetryTimer .. => [.FAB_PORT_RETRY]
  | .verifyResponse .. | .hello .. => [.FAB_PORT_STATUS, .FAB_PORT_TXCTR_HI, .FAB_PORT_TXCTR_LO]
  | .blockLock .. | .verifyResend .. => [.FAB_PORT_STATUS]
  | .rekeyStart .. | .heartbeatSend | .expressSendSlot | .messageRepeat .. | .pdelayTimer |
    .syncSend => [.FAB_PORT_TXCTR_HI, .FAB_PORT_TXCTR_LO]
  | .senderTimeout .. =>
    [.FAB_PORT_TXCTR_HI, .FAB_PORT_TXCTR_LO, .FAB_SLOT_DONE, .FAB_SLOT_STATUS, .FAB_UNKNOWN_COUNT]
  | .faderConversion .. => [.FADER_INVALID, .FADER_MOVED, .FADER_VAL]
  | .gpioEdge .. => [.GPIO_EDGE, .GPIO_EDGE_ST_HI, .GPIO_EDGE_ST_LO]
  | .gpioSetRegister .. | .gpioClr .. => [.GPIO_EDGE, .GPIO_EDGE_ST_HI, .GPIO_EDGE_ST_LO, .GPIO_OUT]
  | .driveSample .. => [.HAP_CH_PEAK_I]
  | .virMbTxGo .. =>
    [.INST_MB_RX, .INST_MB_RX_STATUS, .VIR_MB_STATUS, .VIR_MB_TX]
  | .guestMailboxPop .. => [.INST_MB_RX_STATUS, .VIR_MB_STATUS]
  | .guestMailboxGo .. =>
    [.INST_MB_TX, .INST_MB_TX_STATUS, .VIR_MB_PENDING, .VIR_MB_RX, .VIR_MB_STATUS]
  | .virMbRxPop .. => [.INST_MB_TX_STATUS, .VIR_MB_PENDING, .VIR_MB_STATUS]
  | .ttRootWrite .. => [.INV_STATUS, .TT_ROOT_HI, .TT_ROOT_LO]
  | .invalidation .. | .invalidationDone .. => [.INV_STATUS]
  | .islandFirmwareCheck .. =>
    [.ISL_GLAZE_STATUS, .ISL_ID_KEY, .ISL_MBOX_RX, .ISL_MBOX_STATUS, .ISL_STATUS, .OUT_STATUS, .SYS_BOOT_STATUS]
  | .lineEnd .. =>
    [.ISL_GLAZE_STATUS, .ISL_LINE_MISMATCH_COUNT, .ISL_MBOX_RX, .ISL_MBOX_STATUS, .ISL_RENDER_SWITCH_COUNT, .ISL_STATUS,
     .OUT_STATUS, .OUT_UNDERRUN_COUNT, .OUT_UNDERRUN_LINE]
  | .pairSwitch =>
    [.ISL_GLAZE_STATUS, .ISL_MBOX_RX, .ISL_MBOX_STATUS, .ISL_PAIR_SWITCH_COUNT, .ISL_STATUS, .OUT_STATUS]
  | .mainDomainRelease .. =>
    [.ISL_GLAZE_STATUS, .ISL_MBOX_RX, .ISL_MBOX_STATUS, .ISL_STATUS, .MEM_PORT_STATUS, .OUT_STATUS, .SYS_RCP_IFACE,
     .TIME_FREQ_ADJ]
  | .signatureCheck =>
    [.ISL_GLAZE_STATUS, .ISL_MBOX_RX, .ISL_MBOX_STATUS, .ISL_STATUS, .OUT_CTRL, .OUT_PCLK, .OUT_STATUS, .OUT_SUB_BG,
     .OUT_TIMING_H0, .OUT_TIMING_H1, .OUT_TIMING_V0, .OUT_TIMING_V1, .SYS_RCP_ERR_DETAIL, .SYS_RCP_ID, .SYS_RCP_STATUS]
  | .outputEnable .. =>
    [.ISL_GLAZE_STATUS, .ISL_MBOX_RX, .ISL_MBOX_STATUS, .ISL_STATUS, .OUT_CTRL, .OUT_STATUS]
  | .trainingDone .. =>
    [.ISL_GLAZE_STATUS, .ISL_MBOX_RX, .ISL_MBOX_STATUS, .ISL_STATUS, .OUT_LINK_INFO, .OUT_STATUS]
  | .supplyInRange | .applyTiming .. | .retrain .. | .hotPlug .. | .hotPlugLoss .. | .lockstepError | .pairSelfTest .. |
    .glzEdit .. | .glzCommit .. | .glzRead .. | .mainAlive .. | .status .. | .rngRead .. | .seal .. | .unseal .. |
    .dbgState .. | .commitTakesEffect .. | .islandPass | .mainAliveTimeout =>
    [.ISL_GLAZE_STATUS, .ISL_MBOX_RX, .ISL_MBOX_STATUS, .ISL_STATUS, .OUT_STATUS]
  | .recipeImageFetch .. =>
    [.ISL_GLAZE_STATUS, .ISL_MBOX_RX, .ISL_MBOX_STATUS, .ISL_STATUS, .OUT_STATUS, .SYS_RCP_ERR_DETAIL, .SYS_RCP_ID,
     .SYS_RCP_IFACE, .SYS_RCP_STATUS]
  | .islMboxRxPop .. => [.ISL_MBOX_RX, .ISL_MBOX_STATUS]
  | .tartalCheck .. =>
    [.ISL_MBOX_RX, .ISL_MBOX_STATUS, .SYS_BOOT_STATUS, .SYS_RCP_IFACE, .SYS_RCP_STATUS]
  | .sramCorrectedError => [.ISL_SRAM_CE_COUNT]
  | .layerCommit .. =>
    [.LAYER_COMMIT, .LAYER_STATUS, .REL_INFO, .REL_ST_HI, .REL_ST_LO, .SUB_STATUS]
  | .retrainRepeat .. =>
    [.LAYER_STATUS, .MEM_CEILING_NOW, .MEM_CHAN_ACTIVE, .MEM_CHAN_DOWN, .MEM_LINK_ECC, .MEM_PORT_RESERVE,
     .MEM_PORT_STATUS, .MEM_RESERVED_NOW, .MEM_STATUS, .REL_INFO, .REL_ST_HI, .REL_ST_LO, .SUB_STATUS]
  | .relPop .. | .cursorCopyDone .. =>
    [.LAYER_STATUS, .REL_INFO, .REL_ST_HI, .REL_ST_LO, .SUB_STATUS]
  | .ltcLoss .. => [.LTC_IN_STATUS]
  | .ltcOutFrame .. => [.LTC_OUT_TC]
  | .dramBootTraining .. =>
    [.MEM_CAPACITY, .MEM_CHAN_ACTIVE, .MEM_LINK_ECC, .MEM_STATUS, .SYS_BOOT_STATUS]
  | .transactionComplete .. => [.MEM_CE_COUNT, .MEM_PORT_LATE, .MEM_PORT_STATUS]
  | .dramRequest .. | .retrainingPause .. => [.MEM_PORT_STATUS]
  | .perBankRefresh .. => [.MEM_STATUS]
  | .midiRxRead .. => [.MIDI_RX_ST_HI, .MIDI_RX_ST_LO, .MIDI_STATUS]
  | .midiTx .. | .midiRxByte .. => [.MIDI_STATUS]
  | .outFrzClr .. => [.OUT_FRZ_COUNT, .OUT_STATUS]
  | .genlockVPulse .. | .genlockReferenceLoss .. => [.OUT_STATUS, .TIME_STATUS]
  | .trainingRetry .. => [.OUT_STATUS]
  | .playerPrime .. => [.PLAYER_CTRL, .PLAYER_STATUS]
  | .playerStart .. => [.PLAYER_CTRL]
  | .powerStateEntry .. => [.PMU_STATE_CTRL]
  | .preciseSample .. => [.PSAMP_LOST, .PSAMP_WR]
  | .push .. => [.SYS_RCP_ID, .SYS_RCP_STATUS]
  | .stuckResetRelease => [.SYS_RESET_CAUSE]
  | .touchFrameResult .. =>
    [.TCH_CONTACT_A, .TCH_CONTACT_B, .TCH_CSTATUS, .TCH_DEGRADED, .TCH_FRAME_ST_HI, .TCH_FRAME_ST_LO, .TCH_REGION,
     .TCH_REPORT_HDR, .TCH_STALE_COUNT, .TCH_STATUS]
  | .rebaseline .. => [.TCH_CSTATUS, .TCH_STATUS]
  | .controllerEnable .. => [.TCH_CTRL, .TCH_STATUS]
  | .touchFrame .. => [.TCH_NOISE, .TCH_RERUN_COUNT]
  | .sourceLoss .. => [.TIME_FREQ_ADJ, .TIME_STATUS]
  | .lockConditionMet | .lockLost => [.TIME_STATUS]
  | .saveDone .. | .restore .. | .dmaPause .. | .pauseDrained .. => [.VIR_INST_STATE]
  | .vfEnable .. | .virPortCfg .. => [.VIR_PORT_CFG]
  | .islPornRelease .. | .sysResetnFall | .sysResetnRise | .releaseTimerExpiry | .coreWfiTimeout | .wakeSource .. |
    .alwaysOnTimerMatch | .cueLookaheadWake | .axisPosRead .. | .ltcTcRead .. | .staging | .axisCueEvaluation .. |
    .oldPhaseAcceptEnd .. | .sliceExpiry .. | .checkpoint | .rendererReload .. | .glazeStatusWord | .creditWindow |
    .rowIdleClose .. | .ownershipRequest .. | .ownershipRetry .. | .cacheError .. | .translatedRequest .. | .chStart .. |
    .dmaTimer .. | .dmaTrigPin .. | .dmaResume .. | .crcData .. | .crcDataB .. | .crcInit .. | .crcCheck .. |
    .tchReportHdrRead .. | .wakeGestureScan .. | .hapChFire .. | .hapStop .. | .clearFault .. | .dmxRxInfoRead .. |
    .ltcInTcRead .. | .usbOvercurrent .. | .aes67Packet .. | .eqCommit .. | .playerStop .. | .counterWrap .. |
    .pmcResetAll .. | .perstDeassert .. => []
  | .islPornAssert | .sysResetnFilterExpiry | .perstAssert .. | .fullResetRequest .. | .resetToLoader .. |
    .supplyOutOfRange .. | .sensorRead .. | .exitToDay .. | .create .. | .restoreDone .. | .destroy .. | .flr .. |
    .registerWrite .. => Machine.Reg.all

/-- The parts of the state behind the registers, one for each block. -/
inductive Part where
  | dom | rcp | tim | axes | genlock | shadows | fab | gfx | cmp | outs | isl | mem | cpx | vir | tch | latches | sio | aud | evt
  deriving DecidableEq, Repr

/-- A part is as it was; the island but its pending and seen events, and the instances but the translations that engines hold. -/
def Part.same : Part → Machine.State → Machine.State → Prop
  | .dom, s, t => t.dom = s.dom
  | .rcp, s, t => t.rcp = s.rcp
  | .tim, s, t => t.tim = s.tim
  | .axes, s, t => t.axes = s.axes
  | .genlock, s, t => t.genlock = s.genlock
  | .shadows, s, t => t.shadows = s.shadows
  | .fab, s, t => t.fab = s.fab
  | .gfx, s, t => t.gfx = s.gfx
  | .cmp, s, t => t.cmp = s.cmp
  | .outs, s, t => t.outs = s.outs
  | .isl, s, t => { t.isl with pend := [], seen := [] } = { s.isl with pend := [], seen := [] }
  | .mem, s, t => t.mem = s.mem
  | .cpx, s, t => t.cpx = s.cpx
  | .vir, s, t => { t.vir with tlb := [] } = { s.vir with tlb := [] }
  | .tch, s, t => t.tch = s.tch
  | .latches, s, t => t.latches = s.latches
  | .sio, s, t => t.sio = s.sio
  | .aud, s, t => t.aud = s.aud
  | .evt, s, t => t.evt = s.evt

/-- The parts that a command may change. -/
def Instr.parts : Instr → List Part
  | .aes67Packet .. | .gainWrite .. | .gainStepDeadline .. | .selectionWrite .. | .eqCommit .. | .playerStop .. |
    .silenceBlock .. | .tdmBitClockStop .. | .tdmBitClockRuns .. => [.aud]
  | .axisSampleInstant .. | .ssiReadEnd .. | .coastDeadline .. => [.axes]
  | .retrainRepeat .. => [.cmp, .mem]
  | .cursorCopyDone .. | .save .. => [.cmp, .vir]
  | .layerCommit .. | .submission .. | .flush .. | .relPop .. | .warpBand .. => [.cmp]
  | .destroyDone .. | .flrDone .. | .descriptorComplete .. | .pauseDrained .. => [.cpx, .vir]
  | .mworldWrite .. | .haltRequest .. | .ownershipRequest .. | .ownershipRetry .. => [.cpx]
  | .frameStart .. => [.dom, .cmp, .outs, .isl]
  | .islandPass => [.dom, .fab, .outs, .isl]
  | .dramBootTraining .. => [.dom, .mem]
  | .supplyInRange | .outputEnable .. | .applyTiming .. | .retrain .. | .hotPlug .. | .hotPlugLoss .. | .trainingDone .. |
    .lockstepError | .pairSwitch | .pairSelfTest .. | .glzEdit .. | .glzCommit .. | .glzRead .. | .mainAlive .. |
    .status .. | .rngRead .. | .seal .. | .unseal .. | .dbgState .. | .commitTakesEffect .. |
    .mainAliveTimeout => [.dom, .outs, .isl]
  | .version .. | .enter .. | .wcallReturn .. | .islCall .. | .dbgLower .. | .fenceQuery .. |
    .partitionService .. => [.dom, .outs, .isl, .cpx]
  | .lineEnd .. => [.dom, .outs, .isl, .vir]
  | .tartalCheck .. => [.dom, .rcp, .isl]
  | .islandFirmwareCheck .. | .recipeImageFetch .. | .signatureCheck => [.dom, .rcp, .outs, .isl]
  | .entryCommit =>
    [.dom, .rcp, .tim, .axes, .genlock, .fab, .outs, .isl, .aud, .evt]
  | .admission =>
    [.dom, .rcp, .tim, .axes, .genlock, .fab, .outs, .isl, .cpx, .vir, .sio, .aud, .evt]
  | .mainDomainRelease .. => [.dom, .tim, .outs, .isl, .vir]
  | .perstDeassert .. => [.dom, .vir]
  | .islPornRelease .. | .sysResetnFall | .sysResetnRise | .stuckResetRelease | .releaseTimerExpiry => [.dom]
  | .bwWindowClose => [.evt]
  | .launchWindow => [.fab, .cmp, .vir, .sio, .aud]
  | .indication .. => [.fab, .isl]
  | .data .. | .bulkData .. => [.fab, .vir]
  | .blockLock .. | .verifyResend .. | .verifyResponse .. | .hello .. | .key .. | .linkAck .. | .linkRetryTimer .. |
    .rekeyStart .. | .rekey .. | .oldPhaseAcceptEnd .. | .heartbeatSend | .heartbeat .. | .expressSendSlot | .reply .. |
    .messageRepeat .. | .senderTimeout .. | .peerRecordRelease .. | .fabSlotSend .. | .fabPeerRelease .. | .pdelayTimer |
    .pdelayMessage .. | .syncSend => [.fab]
  | .genlockReferenceLoss .. => [.genlock, .outs]
  | .layerSubmit .. => [.gfx, .cmp, .vir]
  | .nop .. | .call .. | .stateBind .. | .constWrite .. | .passBegin .. | .passEnd .. | .draw .. | .drawIndexed .. |
    .drawIndirect .. | .drawIndexedIndirect .. | .dispatch .. | .dispatchIndirect .. | .barrier .. | .cacheOp .. |
    .fenceWaitSt .. | .fenceWaitStRelease .. | .waitValue .. | .waitValueSatisfied .. | .writeValue .. | .signal .. |
    .ctxFreeze .. | .preemptionPoint .. | .instFreeze .. | .instResume .. => [.gfx, .vir]
  | .doorbell .. | .gfxCtxAlloc .. | .ctxResume .. | .ctxDestroy .. | .sliceExpiry .. | .yieldTimeout .. => [.gfx]
  | .touchFrameResult .. => [.isl, .vir, .tch]
  | .checkpoint | .islMboxRxPop .. | .rendererReload .. | .glazeStatusWord => [.isl]
  | .tchReportHdrRead .. => [.latches]
  | .dramRequest .. | .cacheError .. => [.mem, .cpx]
  | .transactionComplete .. => [.mem, .evt]
  | .creditWindow | .rowIdleClose .. | .perBankRefresh .. | .retrainingPause .. => [.mem]
  | .push .. => [.rcp]
  | .splitLowWordRead .. => [.shadows, .cpx, .latches, .sio]
  | .axisPosRead .. | .ltcTcRead .. | .dmxRxInfoRead .. | .ltcInTcRead .. => [.shadows]
  | .dmxCommitRegister .. | .dmxRefresh .. | .dmxRxFrameEnd .. | .rdmTransaction .. | .rdmDiscovery .. | .rdmTimeout .. |
    .midiTx .. | .midiRxByte .. | .midiRxRead .. | .ltcOutFrame .. | .faderConversion .. | .encoderTransition .. |
    .i2cTransfer .. | .spiTransfer .. | .gpioEdge .. | .usbOvercurrent .. => [.sio]
  | .touchFrame .. | .rebaseline .. | .controllerEnable .. => [.tch]
  | .syncRx .. | .certificateCheck .. | .finish .. | .rekeyStall .. | .enum .. | .topo .. | .heartbeatMissed .. |
    .blockLockLoss .. | .ringFault .. | .ringHealed .. | .announceSend |
    .announce .. => [.tim, .axes, .genlock, .fab, .outs, .evt]
  | .ptpMessageRx .. | .genlockHPulse .. | .mainsZeroCrossing => [.tim, .axes, .genlock, .outs, .evt]
  | .ltcFrame .. => [.tim, .axes, .genlock, .outs, .sio, .evt]
  | .genlockVPulse .. => [.tim, .genlock, .outs]
  | .sourceLoss .. => [.tim]
  | .sampleInstant .. | .playerStart .. | .playerPrime .. => [.vir, .aud]
  | .dmxFetchDone .. | .rdmStart .. | .rdmResponse .. | .dmxRxSlot .. => [.vir, .sio]
  | .wakeGestureScan .. => [.vir, .tch]
  | .powerStateEntry .. | .coreWfiTimeout | .wakeSource .. | .alwaysOnTimerMatch | .cueLookaheadWake | .vfEnable .. |
    .saveDone .. | .restore .. | .invalidation .. | .ttRootWrite .. | .invalidationDone .. | .chStart .. | .dmaTimer .. |
    .dmaTrigPin .. | .dmaResume .. => [.vir]
  | .lockConditionMet | .lockLost | .cueArm .. | .cueModify .. | .cueCancel .. | .cueRead .. | .cueClr .. | .staging |
    .axisCueEvaluation .. | .unsupportedFrame .. | .trainingRetry .. | .outFrzClr .. | .sramCorrectedError |
    .lowerDebugEnable .. | .virPortCfg .. | .guestMailboxGo .. | .virMbRxPop .. | .virMbTxGo .. | .guestMailboxPop .. |
    .translatedRequest .. | .dmaPause .. | .crcData .. | .crcDataB .. | .crcInit .. | .crcCheck .. | .hapChFire .. |
    .hapStop .. | .clearFault .. | .driveSample .. | .dmxFrameEnd .. | .ltcLoss .. | .encCountRead .. |
    .busTransferDone .. | .gpioSetRegister .. | .gpioClr .. | .counterWrap .. | .pmcResetAll .. | .preciseSample .. => []
  | .islPornAssert | .sysResetnFilterExpiry | .perstAssert .. | .fullResetRequest .. | .resetToLoader .. |
    .supplyOutOfRange .. | .sensorRead .. | .exitToDay .. | .create .. | .restoreDone .. | .destroy .. | .flr .. |
    .registerWrite .. =>
    [.dom, .rcp, .tim, .axes, .genlock, .shadows, .fab, .gfx, .cmp, .outs, .isl, .mem, .cpx, .vir, .tch, .latches, .sio,
     .aud, .evt]

end Sys2Proof
end

