-- ==== Sys2Proof/Certificates/Slice0/Obligations.lean ====
section
/-! DEFINITION. The statements for the provers, family by family. Where a statement speaks of a state `u` inside `settled s u`
or `settledMem s w u`, `u` is the command's own effect, and the settled state is that effect with the events it raised
delivered (R377) and its stores made. A statement about the state at the end of the command speaks of `t`. -/

open Sys2Proof Sys2Proof.Machine

/-- ISL_PORN_ASSERT, ISL_PORN_RELEASE (R54, R61): ISL_PORn low holds the whole device, whatever ran: no output scans,
no pin is driven, every register is at its reset value, OTP stays. Its release starts the island in ROM.

ISLAND_FIRMWARE_CHECK (R60 to R62, R123): island firmware that passes its check runs, ISL_OK goes high, and the
public identity key shows; firmware that fails leaves the island in ROM. A check outside the boot has no effect.

SYS_RESETN_FALL, SYS_RESETN_RISE, STUCK_RESET_RELEASE, RELEASE_TIMER_EXPIRY (R55, R58, R59): the 10 µs filter, the 8
s count that a blown HONOUR_RESET_HOLD never starts, the ignore period, and its end after 100 ms high. -/
def Obligations.ResetsAndIslandBoot : Prop :=
  ((∀ s, ∃ t, exec .islPornAssert s = .next t ∧ t.dom.island = .inReset ∧ t.dom.mainUp = false ∧ t.dom.islOkPin = false
      ∧ t.dom.mainOkPin = false ∧ t.outs = [] ∧ (∀ r i k, t.get r i k = r.initial) ∧ (∀ a, t.readByte a = Memory.unlisted)
      ∧ t.fuses = s.fuses ∧ t.pending = s.pending)
    ∧ (∀ s ddr, s.dom.porn = false → exec (.islPornRelease ddr) s = .next (settled s { s with
        dom := { s.dom with porn := true, island := .booting, ddrSel := ddr, filterArmed := s.dom.resetnLow } }))
    ∧ (∀ s ddr, s.dom.porn = true → exec (.islPornRelease ddr) s = .next (settled s s)))
  ∧ ((∀ s fw, s.dom.island = .booting → s.pwr.state = 0 → ∃ t, exec (.islandFirmwareCheck fw) s = .next t ∧ t.ram = s.ram
      ∧ t.flag F.SYS_BOOT_STATUS.honour_hold = s.fuses.honourHold
      ∧ (if islandImageOk fw then
          t.dom.island = .running ∧ t.rcp.islandFw = some fw ∧ t.flag F.SYS_BOOT_STATUS.island_ok = true
            ∧ t.dom.islOkPin = true
            ∧ ∀ k, k < 17 → t.get .ISL_ID_KEY 0 k = BitVec.ofNat 32 (u32 Config.identityKey (4 * k))
         else t.dom.island = .inRom ∧ t.flag F.SYS_BOOT_STATUS.island_ok = false ∧ t.dom.islOkPin = false))
    ∧ (∀ s fw, s.dom.island ≠ .booting → exec (.islandFirmwareCheck fw) s = .next (settled s s)))
  ∧ ((∀ s, s.dom.ignoring = false → s.dom.island ≠ .inReset → ∃ t, exec .sysResetnFall s = .next t ∧ t.dom.resetnLow = true
      ∧ t.dom.filterArmed = true
      ∧ (t.dom.stuckArmed = true ↔ s.dom.island = .running ∧ s.pwr.state < 3 ∧ s.fuses.honourHold = false)
      ∧ t.dom.mainUp = s.dom.mainUp ∧ t.ram = s.ram)
    ∧ (∀ s, s.dom.ignoring = true → exec .sysResetnFall s = .next (settled s { s with
        dom := { s.dom with resetnLow := true, releaseArmed := false } }))
    ∧ (∀ s, exec .sysResetnRise s = .next (settled s { s with
        dom := { s.dom with
          resetnLow := false, filterArmed := false, stuckArmed := false, pinHold := false, releaseArmed := s.dom.ignoring } }))
    ∧ (∀ s, s.dom.stuckArmed = true → s.dom.resetnLow = true → s.dom.filterArmed = false → ∃ t,
        exec .stuckResetRelease s = .next t ∧ t.dom.ignoring = true ∧ t.dom.pinHold = false ∧ t.dom.stuckEvent = true
        ∧ t.flag F.SYS_RESET_CAUSE.stuck = true ∧ (∀ r i k, r ≠ .SYS_RESET_CAUSE → r.delivered = false →
          t.get r i k = s.get r i k) ∧ t.ram = s.ram)
    ∧ (∀ s, s.dom.stuckArmed = false → exec .stuckResetRelease s = .next (settled s s))
    ∧ (∀ s, s.dom.releaseArmed = true → s.dom.resetnLow = false → exec .releaseTimerExpiry s = .next (settled s { s with
        dom := { s.dom with releaseArmed := false, ignoring := false } }))
    ∧ (∀ s, s.dom.releaseArmed = false ∨ s.dom.resetnLow = true → exec .releaseTimerExpiry s = .next (settled s s)))

/-- SYS_RESETN_FILTER_EXPIRY, PERST_ASSERT on host port 0, FULL_RESET_REQUEST with its key, RESET_TO_LOADER,
SUPPLY_OUT_OF_RANGE, SENSOR_READ at 115 °C (R53, R56, R392): each puts the main domain into reset and records its
cause; OTP stays.

PERST_ASSERT on host ports 1 to 3, PERST_DEASSERT, SUPPLY_IN_RANGE, SENSOR_READ below the trip, MAIN_DOMAIN_RELEASE
(R53, R56, R390, R392, R61 step 3): a port's own reset spares the main domain; holds end one by one; a release needs
every source gone. -/
def Obligations.MainDomainResets : Prop :=
  ((∀ s, s.dom.filterArmed = true → s.dom.resetnLow = true → ∃ t, exec .sysResetnFilterExpiry s = .next t
      ∧ t.dom.mainUp = false ∧ t.dom.pinHold = true ∧ t.flag F.SYS_RESET_CAUSE.pin = true ∧ t.fuses = s.fuses)
    ∧ (∀ s, s.dom.island ≠ .inReset → ∃ t, exec (.perstAssert 0) s = .next t
      ∧ t.dom.mainUp = false ∧ 0 ∈ t.dom.perst ∧ t.flag F.SYS_RESET_CAUSE.perst = true ∧ t.fuses = s.fuses)
    ∧ (∀ s a v, a = .manager ∨ a = .inner → s.awake = true → F.SYS_RESET_CTRL.full.of v = 1 → F.SYS_RESET_CTRL.key.of v = 0xA5 →
      ∃ t, exec (.fullResetRequest a v) s = .next t ∧ t.dom.mainUp = false ∧ t.flag F.SYS_RESET_CAUSE.soft = true
        ∧ t.fuses = s.fuses)
    ∧ (∀ s a v, a = .manager ∨ a = .inner → s.awake = true →
      F.SYS_RESET_CTRL.full.of v ≠ 1 ∨ F.SYS_RESET_CTRL.key.of v ≠ 0xA5 →
      ∃ t, exec (.fullResetRequest a v) s = .next t ∧ t.dom = s.dom ∧ (∀ r i k, r.delivered = false → t.get r i k = s.get r i k))
    ∧ (∀ s, s.awake = true → ∃ t, exec (.resetToLoader .manager) s = .next t ∧ t.dom.mainUp = false
      ∧ t.dom.loaderPending = true ∧ t.flag F.SYS_RESET_CAUSE.soft = true ∧ t.flag F.SYS_RESET_CAUSE.loader = true
      ∧ t.fuses = s.fuses)
    ∧ (∀ s a v, s.awake = false ∨ (a ≠ .manager ∧ a ≠ .inner) → ∃ t, exec (.fullResetRequest a v) s = .next t ∧ t.dom = s.dom
        ∧ .busError a ∈ t.sent ∧ (∀ r i k, r.delivered = false → t.get r i k = s.get r i k) ∧ t.ram = s.ram)
    ∧ (∀ s a, s.awake = false ∨ a ≠ .manager → ∃ t, exec (.resetToLoader a) s = .next t ∧ t.dom = s.dom
        ∧ (s.awake = false ∨ a ≠ .inner → .busError a ∈ t.sent) ∧ (∀ r i k, r.delivered = false → t.get r i k = s.get r i k)
        ∧ t.ram = s.ram)
    ∧ (∀ s x, s.dom.island ≠ .inReset → ∃ t, exec (.supplyOutOfRange x) s = .next t ∧ t.dom.mainUp = false
      ∧ x ∈ t.dom.suppliesOut ∧ t.flag F.SYS_RESET_CAUSE.supply = true ∧ t.fuses = s.fuses)
    ∧ (∀ s l, s.dom.island ≠ .inReset → (∃ x ∈ l, 115 ≤ x) → ∃ t, exec (.sensorRead l) s = .next t ∧ t.dom.mainUp = false
      ∧ t.dom.thermalTrip = true ∧ t.dom.thermTripn = false ∧ t.flag F.SYS_RESET_CAUSE.thermal = true ∧ t.fuses = s.fuses))
  ∧ ((∀ s p, p ≠ 0 → s.dom.mainUp = true → s.dom.island ≠ .inReset → ∃ t, exec (.perstAssert p) s = .next t
      ∧ t.dom.mainUp = true ∧ p.val ∈ t.dom.perst ∧ p.val ∈ t.vir.linkDown ∧ p.val ∉ t.vir.vfEnable
      ∧ t.flag F.VIR_PORT_CFG.locked p.val = false ∧ t.ram = s.ram)
    ∧ (∀ s p, p ≠ 0 → s.dom.mainUp = false → ∃ t, exec (.perstAssert p) s = .next t ∧ t.dom.mainUp = false
      ∧ p.val ∈ t.dom.perst ∧ t.vir.linkDown = s.vir.linkDown)
    ∧ (∀ s p, ∃ t, exec (.perstDeassert p) s = .next t ∧ t.dom.perst = NSet.erase s.dom.perst p.val
      ∧ t.dom.mainUp = s.dom.mainUp ∧ (∀ r i k, r.delivered = false → t.get r i k = s.get r i k) ∧ t.ram = s.ram)
    ∧ (∀ s, ∃ t, exec .supplyInRange s = .next t ∧ t.dom.suppliesOut = [] ∧ t.dom.coreLost = false
      ∧ t.dom.mainUp = s.dom.mainUp ∧ t.ram = s.ram)
    ∧ (∀ s l, s.dom.island ≠ .inReset → l ≠ [] → (∀ x ∈ l, x ≤ 95) → ∃ t, exec (.sensorRead l) s = .next t
      ∧ t.dom.mainUp = s.dom.mainUp ∧ t.dom.thermalTrip = false ∧ (s.dom.thermalTrip = true → t.dom.thermTripn = true)
      ∧ t.fget F.SYS_TEMP.tj = unsignedBits 9 (hottest l 0).1 ∧ t.fget F.SYS_TEMP.sensor = (hottest l 0).2 % 16 ∧ t.flag F.SYS_TEMP.over = false)
    ∧ (∀ s b, s.dom.mainUp = false → s.dom.island = .running → s.dom.resetnLow = false → s.dom.perst.contains 0 = false →
      s.dom.suppliesOut = [] → s.dom.thermalTrip = false → s.pwr.state = 0 → ∃ t, exec (.mainDomainRelease b) s = .next t
        ∧ t.dom.mainUp = true ∧ t.dom.bridgeOpen = true ∧ t.dom.toLoader = (!b || s.dom.loaderPending)
        ∧ t.tim.st = s.tim.islandCopy ∧ t.fget F.SYS_RCP_IFACE.island_if = s.islandIf % 256 ∧ t.ram = s.ram)
    ∧ (∀ s b, s.dom.suppliesOut ≠ [] ∨ s.dom.thermalTrip = true ∨ s.dom.perst.contains 0 = true ∨
      (s.dom.resetnLow = true ∧ s.dom.ignoring = false) → exec (.mainDomainRelease b) s = .next (settled s s)))

/-- TARTAL_CHECK, DRAM_BOOT_TRAINING (R60, R61 steps 4 and 5, R62, R246, R247): once for a release of the main
domain, Tartal that passes its check runs, and Tartal that fails leaves the loader state; training under each strap
value records the channels, the rate and the capacity that it found, and no channel under a reserved value.

R247: the channels that stay after training are those that pass with the density of the lowest that passes, in rising
order; at least half of them must stay for a fold. -/
def Obligations.BootOfTheMainDomain : Prop :=
  ((∀ s fw, s.dom.mainUp = true → s.dom.tartalChecked = false → ∃ t, exec (.tartalCheck fw) s = .next t
      ∧ t.dom.tartalChecked = true ∧ t.ram = s.ram
      ∧ (if tartalImageOk fw then
          t.rcp.tartalFw = some fw ∧ t.flag F.SYS_BOOT_STATUS.tartal_ok = true
            ∧ t.fget F.SYS_RCP_IFACE.tartal_if = fw.iface % 256 ∧ t.dom.stuckEvent = false
            ∧ (s.dom.toLoader = true → t.rcpState = rcpLoader) ∧ (s.dom.toLoader = false → t.rcpState = s.rcpState)
         else
          t.rcp.tartalFw = s.rcp.tartalFw ∧ t.flag F.SYS_BOOT_STATUS.tartal_ok = false
            ∧ t.fget F.SYS_RCP_IFACE.tartal_if = 0 ∧ t.rcpState = rcpLoader))
    ∧ (∀ s l, s.dom.mainUp = true → s.dom.trained = false → (strapRate s.dom.ddrSel.toNat).1 ≠ 0 → ∃ t,
      exec (.dramBootTraining l) s = .next t ∧ t.dom.trained = true
      ∧ t.fget F.SYS_BOOT_STATUS.channels = (trainedChannels l).length
      ∧ t.fget F.SYS_BOOT_STATUS.data_rate = (strapRate s.dom.ddrSel.toNat).2
      ∧ t.fget F.MEM_STATUS.dram_type = (strapRate s.dom.ddrSel.toNat).1
      ∧ t.get .MEM_CHAN_ACTIVE = chanMask (trainedChannels l) ∧ t.flag F.MEM_STATUS.folded = folds l
      ∧ t.fget F.MEM_CAPACITY.usable_mib = usableMib l % 2 ^ F.MEM_CAPACITY.usable_mib.width
      ∧ t.rcp = s.rcp ∧ t.ram = s.ram)
    ∧ (∀ s l, s.dom.mainUp = true → s.dom.trained = false → (strapRate s.dom.ddrSel.toNat).1 = 0 → ∃ t,
      exec (.dramBootTraining l) s = .next t ∧ t.dom.trained = true ∧ t.fget F.SYS_BOOT_STATUS.channels = 0
      ∧ t.get .MEM_CHAN_ACTIVE = 0 ∧ t.fget F.MEM_CAPACITY.usable_mib = 0 ∧ t.rcp = s.rcp ∧ t.ram = s.ram)
    ∧ (∀ s fw l, s.dom.mainUp = false ∨ (s.dom.tartalChecked = true ∧ s.dom.trained = true) →
      exec (.tartalCheck fw) s = .next (settled s s) ∧ exec (.dramBootTraining l) s = .next (settled s s)))
  ∧ (∀ l c, c ∈ trainedChannels l ↔ c < 32 ∧ (chanReport l c).passes = true ∧
      ∀ d, d < 32 → (chanReport l d).passes = true → (∀ e, e < d → (chanReport l e).passes = false) →
        (chanReport l c).densityMib = (chanReport l d).densityMib)

/-- RECIPE_IMAGE_FETCH, PUSH, SIGNATURE_CHECK (R38, R39, R47 to R50, R399): an image fetched from flash or pushed
goes to the signature check, or ends in the loader state with code 1 at the first format failure; a push outside the
loader state is refused; the signature check goes on to admission, or ends in the loader state with code 2.

ADMISSION (R40, R45 to R48, R63): a recipe that passes every order is admitted and locked with its verdict; the first
order that fails decides the code and the position, and the loader state is entered. -/
def Obligations.RecipeLoad : Prop :=
  ((∀ s image, s.awake = true → s.rcp.phase = .fetch → ∃ t, exec (.recipeImageFetch image) s = .next t
      ∧ t.rcp.admitted = s.rcp.admitted ∧ t.ram = s.ram ∧ t.flag F.SYS_RCP_STATUS.busy = false
      ∧ (match formatError (image.take s.rcp.loading.size) s.rcp.loading.size with
        | some e => t.rcpState = rcpLoader ∧ t.fget F.SYS_RCP_STATUS.err = 1 ∧ t.rcp.phase = .idle
            ∧ t.get .SYS_RCP_ERR_DETAIL = BitVec.ofNat 32 (e.section_ % 256 + 256 * e.offset)
        | none => t.rcp.phase = .sign ∧ t.rcp.image = image.take s.rcp.loading.size ∧ t.rcpState = rcpLoading
            ∧ t.rcp.loading = imageRecipe (image.take s.rcp.loading.size)))
    ∧ (∀ s image, s.rcp.phase = .idle → s.readsFlash = true → ∃ t, exec (.recipeImageFetch image) s = .next t
      ∧ t.rcp.admitted = s.rcp.admitted ∧ t.ram = s.ram ∧ t.flag F.SYS_RCP_STATUS.source = false ∧ t.get .SYS_RCP_ID = 0
      ∧ (match formatError (image.take (max 64 (u32 image 8))) (max 64 (u32 image 8)) with
        | some e => t.rcpState = rcpLoader ∧ t.fget F.SYS_RCP_STATUS.err = 1 ∧ t.rcp.phase = .idle
            ∧ t.get .SYS_RCP_ERR_DETAIL = BitVec.ofNat 32 (e.section_ % 256 + 256 * e.offset)
        | none => t.rcp.phase = .sign ∧ t.rcp.image = image.take (max 64 (u32 image 8)) ∧ t.rcpState = rcpLoading))
    ∧ (∀ s, s.awake = true → s.rcpState = rcpLoader → s.flag F.SYS_RCP_STATUS.busy = false → ∃ t,
      exec (.push .manager) s = .next t ∧ t.flag F.SYS_RCP_STATUS.busy = true ∧ t.flag F.SYS_RCP_STATUS.source = true
      ∧ t.get .SYS_RCP_ID = 0 ∧ t.rcp.phase = .fetch ∧ t.rcp.loading.size = s.fget F.SYS_RCP_PUSH_LEN.len ∧ t.ram = s.ram)
    ∧ (∀ s, s.awake = true → s.rcpState ≠ rcpLoader ∨ s.flag F.SYS_RCP_STATUS.busy = true →
      exec (.push .manager) s = .next (settled s (s.fset F.SYS_RCP_STATUS.push_refused 1)))
    ∧ (∀ s, s.awake = true → exec (.push .inner) s = .next (settled s s))
    ∧ (∀ s a, s.awake = false ∨ (a ≠ .manager ∧ a ≠ .inner) → exec (.push a) s = .next (settled s (s.emit (.busError a))))
    ∧ (∀ s, s.dom.mainUp = true → s.rcp.phase = .sign → ∃ t, exec .signatureCheck s = .next t
      ∧ t.rcp.admitted = s.rcp.admitted ∧ t.ram = s.ram
      ∧ (match s.signError with
        | some e => t.rcpState = rcpLoader ∧ t.rcp.phase = .idle ∧ t.fget F.SYS_RCP_STATUS.err = 2
            ∧ t.get .SYS_RCP_ERR_DETAIL = BitVec.ofNat 32 (e.section_ % 256 + 256 * e.offset)
        | none => t.rcp.phase = .admitting ∧ t.rcp.loading = s.rcp.loading
            ∧ t.flag F.SYS_RCP_STATUS.unfused = s.fuses.unfused
            ∧ t.get .SYS_RCP_ID = digestWord (Config.sha384 (signedData s.rcp.image s.rcp.loading))
            ∧ (s.dom.island = .running → t.rcp.signed = some s.rcp.loading))))
  ∧ ((∀ s, s.dom.mainUp = true → s.rcp.phase = .admitting → s.dom.trained = true →
      compatError s.rcp.loading s.fitted = none → s.verdict s.rcp.loading ≠ 3 → structureError s.rcp.loading s.fitted = none →
      ∃ t, exec .admission s = .next t ∧ t.rcp.admitted = some s.rcp.loading ∧ t.rcp.phase = .idle ∧ t.rcpState = rcpAdmitted
        ∧ t.flag F.SYS_RCP_STATUS.locked = true ∧ t.rcp.limited = (s.verdict s.rcp.loading == 2)
        ∧ t.fget F.SYS_RCP_STATUS.verdict = s.verdict s.rcp.loading ∧ t.fget F.SYS_RCP_STATUS.err = 0
        ∧ t.get .SYS_RCP_BW_ADMITTED = BitVec.ofNat 32 (reservedSum s.rcp.loading) ∧ t.ram = s.ram)
    ∧ (∀ s e, s.dom.mainUp = true → s.rcp.phase = .admitting → s.dom.trained = true →
      compatError s.rcp.loading s.fitted = some e → ∃ t, exec .admission s = .next t ∧ t.rcpState = rcpLoader
        ∧ t.fget F.SYS_RCP_STATUS.err = 3 ∧ t.get .SYS_RCP_ERR_DETAIL = BitVec.ofNat 32 (e.section_ % 256 + 256 * e.offset)
        ∧ t.rcp.phase = .idle ∧ t.rcp.admitted = s.rcp.admitted ∧ t.ram = s.ram)
    ∧ (∀ s, s.dom.mainUp = true → s.rcp.phase = .admitting → s.dom.trained = true →
      compatError s.rcp.loading s.fitted = none → s.verdict s.rcp.loading = 3 → ∃ t, exec .admission s = .next t
        ∧ t.rcpState = rcpLoader ∧ t.fget F.SYS_RCP_STATUS.err = 8 ∧ t.fget F.SYS_RCP_STATUS.verdict = 3
        ∧ t.rcp.phase = .idle ∧ t.rcp.admitted = s.rcp.admitted ∧ t.ram = s.ram)
    ∧ (∀ s e, s.dom.mainUp = true → s.rcp.phase = .admitting → s.dom.trained = true →
      compatError s.rcp.loading s.fitted = none → s.verdict s.rcp.loading ≠ 3 →
      structureError s.rcp.loading s.fitted = some e → ∃ t, exec .admission s = .next t ∧ t.rcpState = rcpLoader
        ∧ t.fget F.SYS_RCP_STATUS.err = e.code % 2 ^ F.SYS_RCP_STATUS.err.width
        ∧ t.fget F.SYS_RCP_STATUS.verdict = s.verdict s.rcp.loading ∧ t.rcp.admitted = s.rcp.admitted ∧ t.ram = s.ram))

/-- POWER_STATE_ENTRY, CORE_WFI_TIMEOUT, ENTRY_COMMIT (R66, R67, R69): an entry that nothing forbids begins, one that
a reason of R67 forbids leaves the device in Day, and the commit enters the state.

WAKE_SOURCE, ALWAYS_ON_TIMER_MATCH, CUE_LOOKAHEAD_WAKE, EXIT_TO_DAY (R66 to R69, R73): an enabled source that acts
starts the exit, which ends in Day; an exit from Eclipse that finds other images is an island reset. -/
def Obligations.PowerLadder : Prop :=
  ((∀ s target wakes, s.day = true → target.toNat ≠ 0 → s.flag F.PMU_STATE_STATUS.entering = false →
      s.entryRefusal target.toNat wakes = 0 → exec (.powerStateEntry .manager target wakes) s = .next (settled s
        { (s.fset F.PMU_STATE_CTRL.target target.toNat).fset F.PMU_STATE_STATUS.entering 1 with
          pwr := { s.pwr with target := target.toNat } }))
    ∧ (∀ s target wakes, s.day = true → target.toNat ≠ 0 → s.flag F.PMU_STATE_STATUS.entering = false →
      s.entryRefusal target.toNat wakes ≠ 0 → ∃ u, exec (.powerStateEntry .manager target wakes) s = .next (settled s u)
        ∧ u.pwr = s.pwr ∧ u.fget F.PMU_STATE_STATUS.refused = s.entryRefusal target.toNat wakes
        ∧ u.flag F.PMU_STATE_STATUS.entering = false ∧ 376 ∈ u.raised)
    ∧ (∀ s, s.day = true → s.flag F.PMU_STATE_STATUS.entering = true → ∃ u, exec .coreWfiTimeout s = .next (settled s u)
        ∧ u.pwr = s.pwr ∧ u.fget F.PMU_STATE_STATUS.refused = 3 ∧ u.flag F.PMU_STATE_STATUS.entering = false ∧ 376 ∈ u.raised)
    ∧ (∀ s, s.flag F.PMU_STATE_STATUS.entering = false → exec .coreWfiTimeout s = .next (settled s s)
        ∧ exec .entryCommit s = .next (settled s s))
    ∧ (∀ s, s.day = true → s.flag F.PMU_STATE_STATUS.entering = true → s.entryWaits = false → ∃ t,
      exec .entryCommit s = .next t ∧ t.pwr.state = s.pwr.target ∧ t.dom.mainUp = s.dom.mainUp ∧ t.ram = s.ram))
  ∧ ((∀ s b, s.wakeEnabled b.val = true → s.pwr.state ≠ 0 → wakeActs b.val s.pwr.state = true →
      exec (.wakeSource b) s = .next (settled s { s with
        pwr := { s.pwr with exiting := true, causes := s.pwr.causes ||| 2 ^ b.val } }))
    ∧ (∀ s b, s.wakeEnabled b.val = false ∨ (s.pwr.state ≠ 0 ∧ wakeActs b.val s.pwr.state = false) →
      exec (.wakeSource b) s = .next (settled s s))
    ∧ (∀ s, s.pwr.aotArmed = true → 1 ≤ s.pwr.state → s.hasBit .PMU_WAKE_EN 4 = true → exec .alwaysOnTimerMatch s =
      .next (settled s { s with pwr := { s.pwr with aotArmed := false, exiting := true, causes := s.pwr.causes ||| 16 } }))
    ∧ (∀ s b, s.wakeEnabled b.val = true → s.pwr.state = 0 → s.flag F.PMU_STATE_STATUS.entering = true →
      wakeActs b.val s.pwr.target = true → ∃ u, exec (.wakeSource b) s = .next (settled s u) ∧ u.pwr.state = 0
        ∧ u.fget F.PMU_STATE_STATUS.refused = 2 ∧ u.flag F.PMU_STATE_STATUS.entering = false ∧ 376 ∈ u.raised)
    ∧ (∀ s, s.pwr.lookAhead = true → 2 ≤ s.pwr.state → s.lookAheadDue = true → exec .cueLookaheadWake s =
      .next (settled s { s with pwr := { s.pwr with exiting := true, causes := s.pwr.causes ||| 32 } }))
    ∧ (∀ s a b c d, s.pwr.exiting = true → s.pwr.state ≠ 0 → ¬(s.pwr.state = 4 ∧ [a, b, c, d] ≠ s.rcp.stored) → ∃ t,
      exec (.exitToDay a b c d) s = .next t ∧ t.pwr.state = 0 ∧ t.dom.mainUp = s.dom.mainUp ∧ t.fuses = s.fuses)
    ∧ (∀ s a b c d, s.pwr.exiting = true → s.pwr.state = 4 → [a, b, c, d] ≠ s.rcp.stored → ∃ t,
      exec (.exitToDay a b c d) s = .next t ∧ t.dom.island = .booting ∧ t.dom.mainUp = false ∧ t.fuses = s.fuses))

/-- SYNC_RX, PTP_MESSAGE_RX, MAINS_ZERO_CROSSING, GENLOCK_H_PULSE (R83, R85, R87, R89): in ACQUIRING and LOCKED a
measurement of the source in force shows the phase error and steers the rate within the slew limit, without a step.
The rate itself is a free value.

PTP_MESSAGE_RX in UNSET (R82, R83, R101): the first measurement loads ST in one step so that it reads the source's
time at the event, and TIME is ACQUIRING with `valid` set.

GENLOCK_V_PULSE, LTC_FRAME, SOURCE_LOSS, LOCK_CONDITION_MET, LOCK_LOST (R83, R85, R86, R88, R210, R351). -/
def Obligations.TimeDiscipline : Prop :=
  ((∀ s p h origin, s.rxVerdict p.val h (.sync origin) = .accepted → s.timeSource = srcFab →
      s.flag F.FAB_PORT_STATUS.time_port p.val = true → Following s → ∃ t, exec (.syncRx p h origin) s = .next t
        ∧ FollowsPhase s t (stDiff s.eventSt (origin + (s.get .FAB_PORT_DELAY p.val).zeroExtend 64)))
    ∧ (∀ s now, s.timeRuns = true → s.timeSource = srcEth → Following s → ∃ t, exec (.ptpMessageRx now) s = .next t
        ∧ FollowsPhase s t (stDiff s.eventSt now))
    ∧ (∀ s, s.timeRuns = true → s.timeSource = srcMains → Following s → ∃ t, exec .mainsZeroCrossing s = .next t
        ∧ FollowsPhase s t (wholeNs (s.recipe.mainsGrid.error32 s.eventSt (s.gridPoint s.recipe.mainsGrid s.eventSt))))
    ∧ (∀ s i m, s.timeRuns = true → s.timeSource = srcGenlock → s.recipe.timePort = i.val → s.tim.genLine = some m →
      s.tim.hOff < 7 → Following s → ∃ t e, exec (.genlockHPulse i) s = .next t ∧ FollowsPhase s t e
        ∧ t.tim.genLine = (if m < s.recipe.linesPerFrame then some (m + 1) else none))
    ∧ (∀ s p h origin now, s.timeRuns = false → exec (.syncRx p h origin) s = .next (settled s s)
        ∧ exec (.ptpMessageRx now) s = .next (settled s s) ∧ exec .mainsZeroCrossing s = .next (settled s s))
    ∧ (∀ s i, s.timeRuns = false ∨ s.timeSource ≠ srcGenlock ∨ s.recipe.timePort ≠ i.val ∨ s.tim.genLine = none →
      exec (.genlockHPulse i) s = .next (settled s s))
    ∧ (∀ s now, s.timeSource ≠ srcEth → exec (.ptpMessageRx now) s = .next (settled s s))
    ∧ (∀ s, s.timeSource ≠ srcMains → exec .mainsZeroCrossing s = .next (settled s s)))
  ∧ (∀ s now, s.timeRuns = true → s.timeSource = srcEth → s.timeState = timeUnset → ∃ t,
      exec (.ptpMessageRx now) s = .next t ∧ t.tim.st = stAdd s.tim.islandCopy (-(stDiff s.eventSt now))
        ∧ t.tim.islandCopy = t.tim.st ∧ t.stValid = true ∧ t.timeState = timeAcquiring ∧ t.get .TIME_PHASE_ERR = 0
        ∧ t.ram = s.ram)
  ∧ ((∀ s i, ∃ t, exec (.genlockVPulse i) s = .next t ∧ (t.genIn i.val).lastV = some s.tim.islandCopy
      ∧ (t.genIn i.val).period = (s.genIn i.val).lastV.map (fun v => (s.tim.islandCopy - v).toNat)
      ∧ (s.timeRuns = true → s.timeSource = srcGenlock → s.recipe.timePort = i.val → t.tim.genLine = some 1)
      ∧ (2 ≤ (s.genIn i.val).run → (t.genIn i.val).lost = false) ∧ t.tim.st = s.tim.st ∧ t.ram = s.ram)
    ∧ (∀ s i f, ltcValid f = true → s.awake = true → s.recipe.ltcEnabled i.val = true → ∃ t, exec (.ltcFrame i f) s = .next t
      ∧ t.get .LTC_IN_TC i.val = ltcWord f ∧ t.get .LTC_IN_USER i.val = f.user ∧ t.flag F.LTC_IN_STATUS.locked i.val = true
      ∧ t.flag F.LTC_IN_STATUS.reverse i.val = f.reversed
      ∧ t.get64 .LTC_IN_ST_LO .LTC_IN_ST_HI i.val = s.gridTime
      ∧ (s.timeRuns = true → s.timeSource = srcLtc → s.recipe.timePort = i.val → t.get .TIME_LTC_TC = ltcWord f) ∧ t.ram = s.ram)
    ∧ (∀ s i f, ltcValid f = false ∨ s.awake = false ∨ s.recipe.ltcEnabled i.val = false → exec (.ltcFrame i f) s = .next (settled s s))
    ∧ (∀ s edges, s.timeRuns = true → s.timeSource ≠ srcFree → Following s → ∃ t, exec (.sourceLoss edges) s = .next t
      ∧ t.timeState = timeHoldover ∧ t.flag F.TIME_STATUS.clk_present = edges
      ∧ t.fget F.TIME_STATUS.holdover_count = min (s.fget F.TIME_STATUS.holdover_count + 1) 255 ∧ t.tim.st = s.tim.st
      ∧ t.stValid = s.stValid ∧ t.ram = s.ram)
    ∧ (∀ s edges, s.timeRuns = false ∨ s.timeSource = srcFree → exec (.sourceLoss edges) s = .next (settled s s))
    ∧ (∀ s, s.timeRuns = true → s.timeState = timeAcquiring → s.phase.natAbs ≤ lockThreshold s.timeSource →
      exec .lockConditionMet s = .next (settled s ((s.fset F.TIME_STATUS.state timeLocked).raise 17)))
    ∧ (∀ s, s.timeRuns = false ∨ s.timeState ≠ timeAcquiring ∨ lockThreshold s.timeSource < s.phase.natAbs →
      exec .lockConditionMet s = .next (settled s s))
    ∧ (∀ s, s.timeRuns = true → s.timeState = timeLocked → 4 * lockThreshold s.timeSource < s.phase.natAbs →
      exec .lockLost s = .next (settled s (s.fset F.TIME_STATUS.state timeAcquiring)))
    ∧ (∀ s, s.timeRuns = false ∨ s.timeState ≠ timeLocked ∨ s.phase.natAbs ≤ 4 * lockThreshold s.timeSource →
      exec .lockLost s = .next (settled s s)))

/-- AXIS_SAMPLE_INSTANT, SSI_READ_END, COAST_DEADLINE (R92, R95 to R97, R356): a read starts at a multiple of the
sample period, stamped with the encoder's latency taken off; a clean read gives its raw number and a bad one counts;
at the coast deadline the axis is LOST, its position frozen.

AXIS_POS_READ, LTC_TC_READ (R76, R100): the read returns the low word of the position at its ST, or the timecode, and
what belongs to it is latched for the reader alone: high word, velocity and evaluation ST, or the stamp.

R94: outside the oldest sample and 50 ms after the newest, an axis is evaluated at the nearer end of that range, so
that the position freezes there. -/
def Obligations.AxesAndTheirReads : Prop :=
  ((∀ s ax, s.awake = true → s.axState ax.val ≠ axDisabled → (s.axis ax.val).reading = none → s.sampleDue ax.val = true → ∃ t,
      exec (.axisSampleInstant ax) s = .next t
        ∧ (t.axis ax.val).reading = some (s.axisInstantSt ax.val - BitVec.ofNat 64 (axLatency (s.recipe.axis ax.val)))
        ∧ (t.axis ax.val).window = (s.axis ax.val).window ∧ (∀ r i k, r.delivered = false → t.get r i k = s.get r i k)
        ∧ t.ram = s.ram)
    ∧ (∀ s ax, s.awake = true → s.axState ax.val = axAcquiring → (s.axis ax.val).reading.isSome = true → s.sampleDue ax.val = true →
      ∃ t, exec (.axisSampleInstant ax) s = .next t
        ∧ (t.axis ax.val).reading = some (s.axisInstantSt ax.val - BitVec.ofNat 64 (axLatency (s.recipe.axis ax.val)))
        ∧ (t.axis ax.val).window = [] ∧ (t.axis ax.val).count = 0 ∧ t.axState ax.val = axAcquiring ∧ t.ram = s.ram)
    ∧ (∀ s ax, s.awake = false ∨ s.axState ax.val = axDisabled ∨ s.sampleDue ax.val = false →
      exec (.axisSampleInstant ax) s = .next (settled s s))
    ∧ (∀ s ax f st, s.awake = true → s.axState ax.val = axTracking → (s.axis ax.val).reading = some st →
      f.lowAtStart = false → f.monoflopOk = true → u8 (s.recipe.ssi (axSsi (s.recipe.axis ax.val))) 4 = 0 →
      u8 (s.recipe.ssi (axSsi (s.recipe.axis ax.val))) 3 = 0 → ∃ t, exec (.ssiReadEnd ax f) s = .next t
        ∧ t.get .AXIS_SAMPLE_RAW ax.val = BitVec.ofNat 32 (f.bits.toNat % 2 ^ u8 (s.recipe.axis ax.val) 2)
        ∧ t.flag F.SSI_STATUS.last_ok (axSsi (s.recipe.axis ax.val)) = true ∧ (t.axis ax.val).reading = none
        ∧ t.tim = s.tim ∧ t.ram = s.ram)
    ∧ (∀ s ax f st, s.awake = true → s.axState ax.val = axAcquiring → (s.axis ax.val).reading = some st →
      f.lowAtStart = true ∨ f.monoflopOk = false → ∃ t, exec (.ssiReadEnd ax f) s = .next t
        ∧ t.flag F.SSI_STATUS.last_ok (axSsi (s.recipe.axis ax.val)) = false ∧ (t.axis ax.val).window = []
        ∧ (t.axis ax.val).count = 0 ∧ t.axState ax.val = axAcquiring ∧ t.ram = s.ram)
    ∧ (∀ s ax f, (s.axis ax.val).reading = none ∨ s.awake = false ∨ s.axState ax.val = axDisabled → exec (.ssiReadEnd ax f) s = .next (settled s s))
    ∧ (∀ s ax, s.awake = true → s.axState ax.val = axCoasting → notLater (s.axis ax.val).deadline s.gridTime = true → ∃ t,
      exec (.coastDeadline ax) s = .next t ∧ t.axState ax.val = axLost ∧ (t.axis ax.val).window = []
        ∧ (t.axis ax.val).frozen = some (s.axisAt ax.val (s.axis ax.val).deadline).1 ∧ t.tim = s.tim ∧ t.ram = s.ram)
    ∧ (∀ s ax, s.awake = false ∨ s.axState ax.val ≠ axCoasting ∨ notLater (s.axis ax.val).deadline s.gridTime = false →
      exec (.coastDeadline ax) s = .next (settled s s)))
  ∧ ((∀ s a ax, s.dom.mainUp = true → s.pwr.state ≤ 2 → ∃ u, exec (.axisPosRead a ax) s = .next (settled s u)
      ∧ u.sent = .readValue a (lowWord (BitVec.ofInt 64 (s.axisAt ax.val s.gridTime).1)) :: s.sent
      ∧ u.latched a .AXIS_POS_HI ax.val = some (highWord (BitVec.ofInt 64 (s.axisAt ax.val s.gridTime).1))
      ∧ u.latched a .AXIS_VEL_LO ax.val = some (lowWord (BitVec.ofInt 64 (s.axisAt ax.val s.gridTime).2))
      ∧ u.latched a .AXIS_EVAL_ST_HI ax.val = some (highWord s.gridTime)
      ∧ (∀ b r i, b ≠ a → u.latched b r i = s.latched b r i) ∧ u.regs = s.regs)
    ∧ (∀ s a, s.dom.mainUp = true → s.pwr.state ≤ 2 → ∃ u, exec (.ltcTcRead a) s = .next (settled s u)
      ∧ u.sent = .readValue a (s.get .TIME_LTC_TC) :: s.sent
      ∧ u.latched a .TIME_LTC_ST_LO 0 = some (s.get .TIME_LTC_ST_LO)
      ∧ u.latched a .TIME_LTC_ST_HI 0 = some (s.get .TIME_LTC_ST_HI)
      ∧ (∀ b r i, b ≠ a → u.latched b r i = s.latched b r i) ∧ u.regs = s.regs)
    ∧ (∀ s a ax, s.dom.mainUp = false ∨ 2 < s.pwr.state → exec (.axisPosRead a ax) s = .next (settled s (s.emit (.busError a)))
      ∧ exec (.ltcTcRead a) s = .next (settled s (s.emit (.busError a)))))
  ∧ (∀ (w : List (ST × Int)) (x : Int), (50000000 ≤ x → (fitOf w).pos x = (fitOf w).pos 50000000) ∧
      (x ≤ (fitOf w).oldest → (fitOf w).pos x = (fitOf w).pos (fitOf w).oldest) ∧ (fitOf w).oldest ≤ 0)

/-- CUE_ARM, CUE_MODIFY, CUE_CANCEL, CUE_READ through an open window (R103, R105 to R108): the result is in
CUE_STATUS; a successful arm takes a free slot under the caller's owner code, a modify replaces the entry, a cancel
frees the slot, and an operation refused changes no cue; a closed window takes none, and a gated engine answers with
an error.

A cue that an owner placed belongs to it: an operation addressed to another owner is refused with code 4 (R107).

CUE_CLR, STAGING, AXIS_CUE_EVALUATION (R108, R114, R115): the counts clear for the manager; a time-keyed cue within
100,000 ns of its key is staged and no other changes; an axis is evaluated 100,000 ns ahead, and not while ACQUIRING
or LOST. -/
def Obligations.CueTable : Prop :=
  ((∀ s w n, s.windowOpen w = true → s.armError (windowOwner w) (s.windowEntry w) = 0 →
      s.takeSlot (windowOwner w) = some n → n < 4096 → ∃ u, exec (.cueArm w) s = .next (settled s u)
        ∧ u.cueAt n = some (s.placed { s.windowEntry w with owner := BitVec.ofNat 8 (windowOwner w) })
        ∧ (∀ m, m ≠ n → u.cueAt m = s.cueAt m) ∧ u.fget F.CUE_STATUS.err (cueWindowOf (windowOwner w)) = 0
        ∧ u.fget F.CUE_STATUS.slot (cueWindowOf (windowOwner w)) = n ∧ u.raised = s.raised)
    ∧ (∀ s w, s.windowOpen w = true → s.armError (windowOwner w) (s.windowEntry w) ≠ 0 → ∃ u,
      exec (.cueArm w) s = .next (settled s u) ∧ u.cue = s.cue
        ∧ u.fget F.CUE_STATUS.err (cueWindowOf (windowOwner w)) = s.armError (windowOwner w) (s.windowEntry w) % 16)
    ∧ (∀ s w, s.windowOpen w = true → s.armError (windowOwner w) (s.windowEntry w) = 0 → s.takeSlot (windowOwner w) = none →
      ∃ u, exec (.cueArm w) s = .next (settled s u) ∧ u.cue = s.cue
        ∧ u.fget F.CUE_STATUS.err (cueWindowOf (windowOwner w)) = 1)
    ∧ (∀ s w n win, s.windowOpen w = true →
      s.modifyError (windowOwner w) (addressed w win) n.val (s.windowEntry w) = 0 → ∃ u,
      exec (.cueModify w n win) s = .next (settled s u)
        ∧ u.cueAt n.val = some (s.placed { s.windowEntry w with owner := BitVec.ofNat 8 (addressed w win) })
        ∧ (∀ m, m ≠ n.val → u.cueAt m = s.cueAt m) ∧ u.fget F.CUE_STATUS.err (cueWindowOf (windowOwner w)) = 0)
    ∧ (∀ s w n win, s.windowOpen w = true →
      s.modifyError (windowOwner w) (addressed w win) n.val (s.windowEntry w) ≠ 0 → ∃ u,
      exec (.cueModify w n win) s = .next (settled s u) ∧ u.cue = s.cue)
    ∧ (∀ s w n win, s.windowOpen w = true → s.cancelError (addressed w win) n.val = 0 → ∃ u,
      exec (.cueCancel w n win) s = .next (settled s u) ∧ u.cueAt n.val = none ∧ (∀ m, m ≠ n.val → u.cueAt m = s.cueAt m)
        ∧ u.fget F.CUE_STATUS.err (cueWindowOf (windowOwner w)) = 0)
    ∧ (∀ s w n win, s.windowOpen w = true → s.cancelError (addressed w win) n.val ≠ 0 → ∃ u,
      exec (.cueCancel w n win) s = .next (settled s u) ∧ u.cue = s.cue)
    ∧ (∀ s w n win c, s.windowOpen w = true → s.slotError (addressed w win) n.val = 0 → s.cueAt n.val = some c → ∃ t,
      exec (.cueRead w n win) s = .next t
        ∧ (∀ k, k < 8 → t.get .CUE_ENTRY (cueWindowOf (windowOwner w)) k = wordAt c.entry.words k)
        ∧ t.fget F.CUE_STATUS.err (cueWindowOf (windowOwner w)) = 0 ∧ t.ram = s.ram)
    ∧ (∀ s w n win, s.windowOpen w = true → s.slotError (addressed w win) n.val ≠ 0 → ∃ u,
      exec (.cueRead w n win) s = .next (settled s u) ∧ u.cue = s.cue
        ∧ u.fget F.CUE_STATUS.err (cueWindowOf (windowOwner w)) = s.slotError (addressed w win) n.val
        ∧ (∀ k, u.get .CUE_ENTRY (cueWindowOf (windowOwner w)) k = s.get .CUE_ENTRY (cueWindowOf (windowOwner w)) k))
    ∧ (∀ s w n win, s.windowOpen w = false → s.awake = true → exec (.cueArm w) s = .next (settled s s)
        ∧ exec (.cueModify w n win) s = .next (settled s s) ∧ exec (.cueCancel w n win) s = .next (settled s s)
        ∧ exec (.cueRead w n win) s = .next (settled s s))
    ∧ (∀ s w n win, s.awake = false → exec (.cueArm w) s = .next (settled s (s.emit (.busError (windowAgent w))))
        ∧ exec (.cueModify w n win) s = .next (settled s (s.emit (.busError (windowAgent w))))
        ∧ exec (.cueCancel w n win) s = .next (settled s (s.emit (.busError (windowAgent w))))
        ∧ exec (.cueRead w n win) s = .next (settled s (s.emit (.busError (windowAgent w))))))
  ∧ (∀ (s : State) (w : CueWindow) (n : Fin 4096) (win : BitVec 7) (c : CueSlot), s.windowOpen w = true →
      s.cueAt n.val = some c → c.entry.owner.toNat ≠ addressed w win → ∃ u,
      exec (.cueCancel w n win) s = .next (settled s u) ∧ u.cue = s.cue
        ∧ u.fget F.CUE_STATUS.err (cueWindowOf (windowOwner w)) = 4)
  ∧ ((∀ s, s.awake = true → exec (.cueClr .manager) s =
      .next (settled s (((s.put .CUE_DEFER_COUNT 0).put .CUE_LATE_COUNT 0).put .CUE_VOID_COUNT 0)))
    ∧ (∀ s a, s.awake = true → a ≠ .manager → exec (.cueClr a) s = .next (settled s s))
    ∧ (∀ s a, s.awake = false → exec (.cueClr a) s = .next (settled s (s.emit (.busError a))))
    ∧ (∀ s, s.awake = true → s.stValid = true → ∃ u, exec .staging s = .next (settled s u) ∧ ∀ n, u.cueAt n =
      (s.cueAt n).map (fun c => { c with
        staged := c.staged || (!c.entry.axisKeyed && notLater (c.entry.key - 100000#64) s.tim.st) }))
    ∧ (∀ s ax, s.awake = false ∨ s.stValid = false → exec .staging s = .next (settled s s)
        ∧ exec (.axisCueEvaluation ax) s = .next (settled s s))
    ∧ (∀ s ax, s.awake = true → s.stValid = true → s.axState ax.val = axTracking ∨ s.axState ax.val = axCoasting → ∃ u,
      exec (.axisCueEvaluation ax) s = .next (settled s u)
        ∧ Tbl.get none u.cue.axisPrev ax.val = some (s.axisAt ax.val (s.tim.st + 100000#64)).1
        ∧ ∀ n c, s.cueAt n = some c → c.entry.axisKeyed = false → u.cueAt n = some c)
    ∧ (∀ s ax, s.awake = true → s.stValid = true → s.axState ax.val = axAcquiring ∨ s.axState ax.val = axLost → ∃ u,
      exec (.axisCueEvaluation ax) s = .next (settled s u) ∧ Tbl.get none u.cue.axisPrev ax.val = none
        ∧ u.cue.slots = s.cue.slots))

/-- LAUNCH_WINDOW (R109, R111, R112): a window in which nothing is due launches nothing; a single due cue launches,
its slot is freed, and the window counts it; a single due cue past its slack with `void_after` is voided and acts on
nothing.

R109: ranking a launch window and ordering its launches by their STs loses no cue and adds none. -/
def Obligations.CueLaunch : Prop :=
  ((∀ s, s.awake = true → s.stValid = true → s.dueCues (s.tim.st - BitVec.ofNat 64 (s.tim.st.toNat % 1000)) = [] → ∃ u,
      exec .launchWindow s = .next (settled s u) ∧ u.cue.slots = s.cue.slots ∧ u.regs = s.regs ∧ u.raised = s.raised)
    ∧ (∀ s n c, s.awake = true → s.stValid = true →
      s.dueCues (s.tim.st - BitVec.ofNat 64 (s.tim.st.toNat % 1000)) = [(n, c)] →
      s.cue.winStart ≠ s.tim.st - BitVec.ofNat 64 (s.tim.st.toNat % 1000) → c.entry.action = 3 → c.entry.target.toNat < 16 →
      c.voided = false → c.entry.voidAfter = false → c.late = false → c.deferred = false → c.entry.repeats = false →
      c.key = c.due → earlier c.due (s.tim.st - BitVec.ofNat 64 (s.tim.st.toNat % 1000)) = false → ∃ u,
      exec .launchWindow s = .next (settled s u) ∧ u.cueAt n = none ∧ u.raised = s.raised ++ [56 + c.entry.target.toNat]
        ∧ u.cue.winCount = 1)
    ∧ (∀ s n c, s.awake = true → s.stValid = true →
      s.dueCues (s.tim.st - BitVec.ofNat 64 (s.tim.st.toNat % 1000)) = [(n, c)] →
      s.cue.winStart ≠ s.tim.st - BitVec.ofNat 64 (s.tim.st.toNat % 1000) →
      c.isVoid (launchSt (s.tim.st - BitVec.ofNat 64 (s.tim.st.toNat % 1000)) c) = true → ∃ u,
      exec .launchWindow s = .next (settled s u) ∧ u.cueAt n = none ∧ u.raised = s.raised ++ [42]
        ∧ u.get .CUE_VOID_COUNT = s.get .CUE_VOID_COUNT + 1)
    ∧ (∀ s, s.awake = false ∨ s.stValid = false → exec .launchWindow s = .next (settled s s)))
  ∧ (∀ (w : ST) (l : List (Nat × CueSlot)), (ranked l).Perm l ∧ (launchOrder w (ranked l)).Perm l)

/-- BLOCK_LOCK, VERIFY_RESEND, VERIFY_RESPONSE, HELLO (R131, R134): DOWN to VERIFY, at most three verify frames,
HELLO, and its refusals with their reasons; in mode 1 an accepted HELLO leads to AUTH. A HELLO that comes early waits
(log entry 111).

KEY, CERTIFICATE_CHECK, FINISH (R131, R132, R134): the peer's KEY is held; a peer that is not proven is refused with
CERT or MISMATCH, and for a proven one the keys of both directions are derived with the counter at its FINISH; a
FINISH with the transcript of both ends brings the link up. -/
def Obligations.LinksComeUp : Prop :=
  ((∀ s p, s.fabRuns = true → s.portEnabled p.val = true → s.portState p.val = portDown → ∃ t,
      exec (.blockLock p) s = .next t ∧ t.portState p.val = portVerify ∧ (t.fport p.val).verifyTries = 1
        ∧ t.flag F.FAB_PORT_STATUS.clk_present p.val = true ∧ t.ram = s.ram)
    ∧ (∀ s p, s.fabRuns = true → s.portState p.val = portVerify → (s.fport p.val).verifyTries < 3 → ∃ t,
      exec (.verifyResend p) s = .next t ∧ t.portState p.val = portVerify
        ∧ (t.fport p.val).verifyTries = (s.fport p.val).verifyTries + 1 ∧ t.ram = s.ram)
    ∧ (∀ s p, s.fabRuns = true → s.portState p.val = portVerify → 3 ≤ (s.fport p.val).verifyTries → ∃ t,
      exec (.verifyResend p) s = .next t ∧ t.portState p.val = portDown ∧ t.ram = s.ram)
    ∧ (∀ s p, s.fabRuns = true → s.portState p.val = portVerify → (s.fport p.val).heldHello = none → ∃ t,
      exec (.verifyResponse p) s = .next t ∧ t.portState p.val = portHello
        ∧ t.get64 .FAB_PORT_TXCTR_LO .FAB_PORT_TXCTR_HI p.val = s.get64 .FAB_PORT_TXCTR_LO .FAB_PORT_TXCTR_HI p.val
        ∧ t.ram = s.ram)
    ∧ (∀ s p x, s.fabRuns = true → s.portState p.val = portVerify → (s.fport p.val).heldHello = some x →
      s.helloRefusal p.val x.hdr x.version x.secure = 0 → ∃ t, exec (.verifyResponse p) s = .next t
        ∧ t.portState p.val = (if s.secure then portAuth else portHello) ∧ (t.fport p.val).helloDone = true
        ∧ t.peerStar p.val = x.hdr.src ∧ t.ram = s.ram)
    ∧ (∀ s p, s.portState p.val ≠ portVerify → exec (.verifyResend p) s = .next (settled s s)
        ∧ exec (.verifyResponse p) s = .next (settled s s))
    ∧ (∀ s p h version secure rate, s.fabRuns = true → AwaitsHello s p.val → version ≠ 2 → ∃ t,
      exec (.hello p h version secure rate) s = .next t ∧ t.portState p.val = portRefused
        ∧ t.fget F.FAB_PORT_STATUS.reason p.val = 1 ∧ t.ram = s.ram)
    ∧ (∀ s p h secure rate, s.fabRuns = true → AwaitsHello s p.val → secure ≠ s.secure → ∃ t,
      exec (.hello p h 2 secure rate) s = .next t ∧ t.portState p.val = portRefused
        ∧ t.fget F.FAB_PORT_STATUS.reason p.val = 2 ∧ t.ram = s.ram)
    ∧ (∀ s p h rate, s.fabRuns = true → AwaitsHello s p.val → h.unnumbered = false → s.numberTaken p.val h.src = true → ∃ u,
      exec (.hello p h 2 s.secure rate) s = .next (settled s u) ∧ u.portState p.val = portRefused
        ∧ u.fget F.FAB_PORT_STATUS.reason p.val = 4 ∧ 81 ∈ u.raised)
    ∧ (∀ s p h rate, s.fabRuns = true → AwaitsHello s p.val → h.unnumbered = true ∨ s.numberTaken p.val h.src = false → ∃ t,
      exec (.hello p h 2 s.secure rate) s = .next t
        ∧ t.portState p.val = (if s.secure then portAuth else portHello) ∧ (t.fport p.val).helloDone = true
        ∧ t.peerStar p.val = h.src ∧ t.flag F.FAB_PORT_STATUS.peer_numbered p.val = !h.unnumbered ∧ t.ram = s.ram)
    ∧ (∀ s p h version secure rate, s.fabRuns = true → s.portState p.val = portVerify → ∃ t,
      exec (.hello p h version secure rate) s = .next t ∧ (t.fport p.val).heldHello = some ⟨h, version, secure, rate⟩
        ∧ t.portState p.val = portVerify ∧ t.ram = s.ram)
    ∧ (∀ s p, s.dom.mainUp = true → s.fabRuns = false ∨ s.portEnabled p.val = false ∨ s.portState p.val ≠ portDown →
      exec (.blockLock p) s = .next (settled s (s.fset F.FAB_PORT_STATUS.clk_present 1 p.val)))
    ∧ (∀ s p h version secure rate, s.fabRuns = false ∨ (¬ AwaitsHello s p.val ∧ s.portState p.val ≠ portVerify) →
      exec (.hello p h version secure rate) s = .next (settled s s)))
  ∧ ((∀ s p h c nonce eph sig, s.fabRuns = true → s.portState p.val = portAuth → ∃ t,
      exec (.key p h c nonce eph sig) s = .next t ∧ (t.fport p.val).keyIn = true ∧ (t.fport p.val).certIndex = c
        ∧ (t.fport p.val).peerNonce = nonce ∧ (t.fport p.val).peerEphemeral = eph ∧ (t.fport p.val).peerSignature = sig
        ∧ t.portState p.val = portAuth ∧ t.ram = s.ram)
    ∧ (∀ s p, s.fabRuns = true → s.portState p.val = portAuth → (s.fport p.val).keyIn = true →
      (s.fport p.val).keysOk = false → (s.fport p.val).heldFinish = none → ∃ t,
      exec (.certificateCheck p) s = .next t ∧ t.ram = s.ram
        ∧ (if s.peerProven p.val = false then t.portState p.val = portRefused ∧ t.fget F.FAB_PORT_STATUS.reason p.val = 3
           else if s.certMismatch p.val (s.fport p.val).certIndex then
            t.portState p.val = portRefused ∧ t.fget F.FAB_PORT_STATUS.reason p.val = 5
           else
            (t.fport p.val).keysOk = true ∧ (t.fport p.val).txKey = (s.deriveKeys p.val).1
              ∧ (t.fport p.val).rxKey = (s.deriveKeys p.val).2 ∧ t.txCtr p.val = 1 ∧ t.portState p.val = portAuth))
    ∧ (∀ s p, s.portState p.val ≠ portAuth ∨ (s.fport p.val).keyIn = false →
      exec (.certificateCheck p) s = .next (settled s s))
    ∧ (∀ s p h hash, s.fabRuns = true → s.awaitsFinish p.val = true → s.frameCheck p.val h (.finish hash) = .accepted → ∃ u,
      exec (.finish p h hash) s = .next (settled s u)
        ∧ (if hash = s.transcript p.val then u.linked p.val = true ∧ 72 ∈ u.raised else u.portState p.val = portDown))
    ∧ (∀ s p h hash, s.fabRuns = true → s.portState p.val = portAuth → (s.fport p.val).keysOk = false → ∃ t,
      exec (.finish p h hash) s = .next t ∧ (t.fport p.val).heldFinish = some (h, hash) ∧ t.portState p.val = portAuth
        ∧ t.ram = s.ram)
    ∧ (∀ s p h hash, s.awaitsFinish p.val = false → s.portState p.val ≠ portAuth →
      exec (.finish p h hash) s = .next (settled s s)))

/-- LINK_ACK, LINK_RETRY_TIMER (R135): an acknowledged frame is sent no more; an unacknowledged one goes out with
identical bytes four times in all, then it is abandoned, counted and reported.

REKEY_START, REKEY, KEY, REKEY_STALL, OLD_PHASE_ACCEPT_END (R133): at 2^40 the exchange of KEY and REKEY starts; once
both came in, the phase turns and the counter starts again; at 2^41 without an end the link stalls; and the old phase
is taken for a while only. -/
def Obligations.LinkRetryAndRekey : Prop :=
  ((∀ s p h ctr, s.rxVerdict p.val h (.linkAck ctr) = .accepted → ∃ t, exec (.linkAck p h ctr) s = .next t
      ∧ (t.fport p.val).outstanding = (s.fport p.val).outstanding.filter (fun o => o.ctr != ctr) ∧ t.ram = s.ram)
    ∧ (∀ s p ctr o, s.fabRuns = true → s.linked p.val = true →
      (s.fport p.val).outstanding.find? (fun o => o.ctr == ctr) = some o → o.sends < 4 → ∃ u,
      exec (.linkRetryTimer p ctr) s = .next (settled s u)
        ∧ u.sent = .frame p.val o.packet.body.express o.packet.body.priority o.packet.body o.bytes :: s.sent
        ∧ (u.fport p.val).outstanding = (s.fport p.val).outstanding.map
            (fun q => if q.ctr = ctr then { q with sends := q.sends + 1 } else q)
        ∧ u.regs = s.regs)
    ∧ (∀ s p ctr o, s.fabRuns = true → s.linked p.val = true →
      (s.fport p.val).outstanding.find? (fun o => o.ctr == ctr) = some o → 4 ≤ o.sends → ∃ u,
      exec (.linkRetryTimer p ctr) s = .next (settled s u) ∧ (∀ q ∈ (u.fport p.val).outstanding, q.ctr ≠ ctr)
        ∧ u.get .FAB_PORT_RETRY p.val = s.get .FAB_PORT_RETRY p.val + 1 ∧ u.raised = s.raised ++ [78] ∧ u.sent = s.sent)
    ∧ (∀ s p ctr, (s.fport p.val).outstanding.find? (fun o => o.ctr == ctr) = none →
      exec (.linkRetryTimer p ctr) s = .next (settled s s)))
  ∧ ((∀ s p, s.fabRuns = true → s.secure = true → s.linked p.val = true → (s.fport p.val).rekeying = false →
      2 ^ 40 ≤ s.txCtr p.val → ∃ t, exec (.rekeyStart p) s = .next t ∧ (t.fport p.val).rekeying = true
        ∧ t.get64 .FAB_PORT_TXCTR_LO .FAB_PORT_TXCTR_HI p.val = s.get64 .FAB_PORT_TXCTR_LO .FAB_PORT_TXCTR_HI p.val + 2
        ∧ (t.fport p.val).phaseTx = (s.fport p.val).phaseTx ∧ t.ram = s.ram)
    ∧ (∀ s p, s.txCtr p.val < 2 ^ 40 → (s.fport p.val).window.high < 2 ^ 40 →
      exec (.rekeyStart p) s = .next (settled s s) ∧ exec (.rekeyStall p) s = .next (settled s s))
    ∧ (∀ s p h, s.fabRuns = true → s.linked p.val = true → s.secure = true → (s.fport p.val).rekeying = true →
      (s.fport p.val).keyIn = true → ∃ t, exec (.rekey p h) s = .next t ∧ t.ram = s.ram
        ∧ (if s.rxVerdict p.val h .rekey = .accepted then
            (t.fport p.val).phaseTx = (!(s.fport p.val).phaseTx) ∧ (t.fport p.val).rekeying = false
              ∧ (t.fport p.val).newRxKey.isSome = true ∧ t.txCtr p.val = 0
           else (t.fport p.val).phaseTx = (s.fport p.val).phaseTx ∧ (t.fport p.val).rekeying = true))
    ∧ (∀ s p h, s.fabRuns = true → s.linked p.val = true → s.secure = true → (s.fport p.val).rekeying = false →
      (s.fport p.val).keyIn = false → ∃ t, exec (.rekey p h) s = .next t ∧ t.ram = s.ram
        ∧ (t.fport p.val).rekeying = decide (s.rxVerdict p.val h .rekey = .accepted)
        ∧ (t.fport p.val).phaseTx = (s.fport p.val).phaseTx)
    ∧ (∀ s p h, s.rxVerdict p.val h .rekey = .accepted → s.secure = false →
      exec (.rekey p h) s = .next (settled s (s.recordRx p.val h)))
    ∧ (∀ s p h c nonce eph sig, s.fabRuns = true → s.linked p.val = true → s.secure = true →
      (s.fport p.val).rekeying = false → ∃ t, exec (.key p h c nonce eph sig) s = .next t ∧ t.ram = s.ram
        ∧ (s.rxVerdict p.val h (.key c nonce eph sig) = .accepted →
            (t.fport p.val).keyIn = true ∧ (t.fport p.val).peerEphemeral = eph ∧ (t.fport p.val).peerNonce = nonce)
        ∧ (t.fport p.val).phaseTx = (s.fport p.val).phaseTx)
    ∧ (∀ s p, s.fabRuns = true → s.linked p.val = true → (s.fport p.val).rekeying = true → 2 ^ 41 ≤ s.txCtr p.val → ∃ u,
      exec (.rekeyStall p) s = .next (settled s u) ∧ u.portState p.val = portStall ∧ 79 ∈ u.raised)
    ∧ (∀ s p, s.fabRuns = true → exec (.oldPhaseAcceptEnd p) s =
      .next (settled s (s.updPort p.val (fun x => { x with oldRxKey := none, oldWindow := RxWindow.initial })))))

/-- ENUM, TOPO, HEARTBEAT, INDICATION: a frame that the checks of R126 and R136 accept has its effect (R130, R145,
R146): a star without a number takes the one it is given, a new TOPO enters the routes and a foreign one in the own
name is a conflict, a heartbeat clears the misses, and an indication of a listed origin whose count advances is kept
and raised.

A received frame that the checks refuse (R126, R128, R134, R136, R148): a bad tag counts, a replay or a frame on no
link does nothing; a replayed frame that the neighbour sent again is acknowledged again (R135); and a frame once
accepted is a replay from then on. -/
def Obligations.LinkFrames : Prop :=
  ((∀ s p h n, s.rxVerdict p.val h (.enum n) = .accepted → s.numbered = false → ∃ t, exec (.enum p h n) s = .next t
      ∧ t.numbered = true ∧ t.star = n ∧ t.ram = s.ram)
    ∧ (∀ s p h n, s.rxVerdict p.val h (.enum n) = .accepted → s.numbered = true → ∃ t, exec (.enum p h n) s = .next t
      ∧ t.numbered = true ∧ t.star = s.star ∧ t.ram = s.ram)
    ∧ (∀ s p h links, s.rxVerdict p.val h (.topo links) = .accepted → h.src ≠ s.star → (h.src, links) ∉ s.fab.topology → ∃ t,
      exec (.topo p h links) s = .next t ∧ (h.src, links) ∈ t.fab.topology
        ∧ (∀ l, (h.src, l) ∈ t.fab.topology → l = links) ∧ t.ram = s.ram)
    ∧ (∀ s p h links, s.rxVerdict p.val h (.topo links) = .accepted → s.numbered = true → h.unnumbered = false →
      h.src = s.star → links ∉ s.fab.ownTopo → ∃ u, exec (.topo p h links) s = .next (settled s u)
        ∧ u.portState p.val = portRefused ∧ u.fget F.FAB_PORT_STATUS.reason p.val = 4 ∧ 81 ∈ u.raised)
    ∧ (∀ s p h, s.rxVerdict p.val h .heartbeat = .accepted → ∃ t, exec (.heartbeat p h) s = .next t
      ∧ (t.fport p.val).missed = 0 ∧ (∀ r i k, r.delivered = false → t.get r i k = s.get r i k) ∧ t.ram = s.ram)
    ∧ (∀ s p h id n st body, s.rxVerdict p.val h (.indication id n st body) = .accepted → s.originListed h = true →
      (∀ y ∈ s.fab.accepted, y.origin = h.src → y.indId = id → advances y.change n = true) → ∃ u,
      exec (.indication p h id n st body) s = .next (settled s u) ∧ ⟨h.src, id, n, st, body, 0⟩ ∈ u.fab.accepted
        ∧ ⟨h.src, id, n, st, body, 0⟩ ∈ u.isl.indications ∧ 85 ∈ u.raised)
    ∧ (∀ s p h id n st body, s.rxVerdict p.val h (.indication id n st body) = .accepted → s.originListed h = false → ∃ t,
      exec (.indication p h id n st body) s = .next t
        ∧ t.get .FAB_PORT_AUTH_FAIL p.val = s.get .FAB_PORT_AUTH_FAIL p.val + 1 ∧ t.fab.accepted = s.fab.accepted
        ∧ t.ram = s.ram))
  ∧ ((∀ s p h links n d st ctr cf, cf ∈ [(Instr.heartbeat p h, Frame.heartbeat), (.topo p h links, .topo links), (.enum p h n, .enum n),
        (.linkAck p h ctr, .linkAck ctr), (.syncRx p h st, .sync st), (.pdelayMessage p h (some d), .pdelayResp)] →
      (s.rxVerdict p.val h cf.2 = .badTag → exec cf.1 s = .next (settled s ((s.bump F.FAB_PORT_AUTH_FAIL.count p.val).raise 80)))
      ∧ (s.rxVerdict p.val h cf.2 = .replay ∨ s.rxVerdict p.val h cf.2 = .noLink → exec cf.1 s = .next (settled s s)))
    ∧ (∀ s p h a b, s.rxVerdict p.val h (.ringHealed a b) = .badTag → ∃ u, exec (.ringHealed p h a b) s = .next (settled s u)
        ∧ u.get .FAB_PORT_AUTH_FAIL p.val = s.get .FAB_PORT_AUTH_FAIL p.val + 1 ∧ u.fab.topology = s.fab.topology
        ∧ u.raised.getLast? = some 80)
    ∧ (∀ s p h m, s.fabCarries = true → s.rxVerdict p.val h (.reply m) = .replay → h.resent = true →
      exec (.reply p h m) s = .next (settled s (s.sendLink p.val (.linkAck h.ctr))))
    ∧ (∀ s p h m, s.rxVerdict p.val h (.reply m) = .replay → h.resent = false → exec (.reply p h m) s = .next (settled s s))
    ∧ (∀ (s : State) (p : Nat) (h : FabHdr) (f : Frame), s.rxVerdict p h f = .accepted →
      (s.recordRx p h).rxVerdict p h f = .replay))

/-- HEARTBEAT_SEND, PDELAY_TIMER, SYNC_SEND, ANNOUNCE_SEND (R131, R141, R143, R146): which ports send.

HEARTBEAT_MISSED, BLOCK_LOCK_LOSS, RING_FAULT, RING_HEALED, ANNOUNCE (R143, R144, R146): five misses or the loss of
block lock take a link down; a ring manager opens its blocked port, and any other member passes the fault on; a
healed ring loses the failed link from the routes; a better candidate becomes master.

EXPRESS_SEND_SLOT, PDELAY_MESSAGE, UNSUPPORTED_FRAME, PEER_RECORD_RELEASE, FAB_PEER_RELEASE (R121, R130, R138, R139,
R141). -/
def Obligations.PeriodicFramesAndRings : Prop :=
  ((∀ s, s.fabRuns = true → ∃ t, exec .heartbeatSend s = .next t ∧ CountsFrames s t (fun p => s.linked p = true)
      ∧ t.ram = s.ram)
    ∧ (∀ s, s.fabRuns = true → ∃ t, exec .pdelayTimer s = .next t ∧ CountsFrames s t (fun p => s.linked p = true)
      ∧ t.ram = s.ram)
    ∧ (∀ s, s.fabRuns = true → s.stValid = true → ∃ t, exec .syncSend s = .next t ∧ CountsFrames s t (fun p =>
      s.portState p = portUp ∧ s.flag F.FAB_PORT_STATUS.time_port p = false ∧ (s.fport p).delayKnown = true) ∧ t.ram = s.ram)
    ∧ (∀ s, s.fabRuns = true → s.isMaster = true → s.recipe.masterPriority ≠ 0 → (∀ p, p < 8 → (s.fport p).heard = none) → ∃ t,
      exec .announceSend s = .next t ∧ CountsFrames s t (fun p => t.portState p = portUp) ∧ t.isMaster = true ∧ t.ram = s.ram)
    ∧ (∀ s, s.fabRuns = true → s.joined = false → s.isMaster = true → ∃ t, exec .announceSend s = .next t
      ∧ CountsFrames s t (fun _ => False) ∧ t.isMaster = true ∧ t.ram = s.ram)
    ∧ (∀ s, s.fabRuns = false → exec .heartbeatSend s = .next (settled s s) ∧ exec .pdelayTimer s = .next (settled s s)
      ∧ exec .syncSend s = .next (settled s s) ∧ exec .announceSend s = .next (settled s s)))
  ∧ ((∀ s p, s.fabRuns = true → s.linked p.val = true → (s.fport p.val).missed < 4 → ∃ t,
      exec (.heartbeatMissed p) s = .next t ∧ (t.fport p.val).missed = (s.fport p.val).missed + 1
        ∧ t.portState p.val = s.portState p.val ∧ t.ram = s.ram)
    ∧ (∀ s p, s.fabRuns = true → s.linked p.val = true → 4 ≤ (s.fport p.val).missed → ∃ u,
      exec (.heartbeatMissed p) s = .next (settled s u) ∧ u.portState p.val = portDown ∧ 73 ∈ u.raised)
    ∧ (∀ s p, s.fabRuns = true → s.linked p.val = true → ∃ u, exec (.blockLockLoss p) s = .next (settled s u)
        ∧ u.portState p.val = portDown ∧ u.flag F.FAB_PORT_STATUS.clk_present p.val = false ∧ 73 ∈ u.raised)
    ∧ (∀ s p, s.fabRuns = true → s.portState p.val = portAuth → ∃ t, exec (.blockLockLoss p) s = .next t
        ∧ t.portState p.val = portDown ∧ t.flag F.FAB_PORT_STATUS.clk_present p.val = false ∧ t.ram = s.ram)
    ∧ (∀ s p h other q, s.rxVerdict p.val h (.ringFault other) = .accepted → s.recipe.portRing p.val ≠ 255 →
      s.ringManager (s.recipe.portRing p.val) = true →
      (s.recipe.ringPorts (s.recipe.portRing p.val)).find? (fun q => s.portState q == portBlocked) = some q →
      h.src ≠ s.star → other ≠ s.star → ∃ u, exec (.ringFault p h other) s = .next (settled s u) ∧ u.linked q = true
        ∧ (∀ l, (h.src, l) ∈ u.fab.topology → ∀ x ∈ l, x.neighbour ≠ other) ∧ 74 ∈ u.raised)
    ∧ (∀ s p h other, s.rxVerdict p.val h (.ringFault other) = .accepted → s.recipe.portRing p.val ≠ 255 →
      s.ringManager (s.recipe.portRing p.val) = false → h.hops < 32 → ∃ t, exec (.ringFault p h other) s = .next t
        ∧ CountsFrames s t (fun q => q ∈ s.faultWays p.val) ∧ t.ram = s.ram)
    ∧ (∀ s p h a b, s.rxVerdict p.val h (.ringHealed a b) = .accepted → a ≠ b → ∃ u,
      exec (.ringHealed p h a b) s = .next (settled s u) ∧ 74 ∈ u.raised
        ∧ (∀ l, (a, l) ∈ u.fab.topology → ∀ x ∈ l, x.neighbour ≠ b)
        ∧ (∀ l, (b, l) ∈ u.fab.topology → ∀ x ∈ l, x.neighbour ≠ a))
    ∧ (∀ s p h prio star hops, s.rxVerdict p.val h (.announce prio star hops) = .accepted → s.portState p.val = portUp →
      s.isMaster = true → prio ≠ 0 → betterMaster prio star s.recipe.masterPriority s.star = true →
      (∀ q, q ≠ p.val → (s.fport q).heard = none) → ∃ u, exec (.announce p h prio star hops) s = .next (settled s u)
        ∧ u.isMaster = false ∧ u.fget F.FAB_STATUS.master_star = star.toNat ∧ u.fab.masterPriority = prio ∧ 75 ∈ u.raised)
    ∧ (∀ s p, s.fabRuns = false ∨ s.linked p.val = false → exec (.heartbeatMissed p) s = .next (settled s s))
    ∧ (∀ s p, s.fabRuns = true → s.portState p.val = portDown ∨ s.portState p.val = portRefused →
      exec (.blockLockLoss p) s = .next (settled s (s.fset F.FAB_PORT_STATUS.clk_present 0 p.val))))
  ∧ ((∀ s c, s.fabRuns = true → oldestCopy s.gridTime s.fab.copies = some c → ∃ t, exec .expressSendSlot s = .next t
      ∧ t.fab.copies = s.fab.copies.filter (· != c)
          ++ (if c.copy < 3 then [⟨c.indId, c.copy + 1, s.gridTime + 10000#64⟩] else []) ∧ t.ram = s.ram)
    ∧ (∀ s x, s.fabRuns = true → oldestCopy s.gridTime s.fab.copies = none → oldestRepeat s.gridTime s.fab.origin = some x → ∃ t,
      exec .expressSendSlot s = .next t ∧ CountsFrames s t (fun p => s.portState p = portUp)
        ∧ (∀ y ∈ t.fab.origin, y.indId = x.indId → y.sentSt = s.gridTime) ∧ t.ram = s.ram)
    ∧ (∀ s p h d, s.rxVerdict p.val h .pdelayResp = .accepted → ∃ t, exec (.pdelayMessage p h (some d)) s = .next t
      ∧ t.get .FAB_PORT_DELAY p.val = BitVec.ofNat 32 d ∧ (t.fport p.val).delayKnown = true ∧ t.ram = s.ram)
    ∧ (∀ s p h, s.rxVerdict p.val h .pdelayReq = .accepted → ∃ t, exec (.pdelayMessage p h none) s = .next t
      ∧ CountsFrames s t (fun q => q = p.val) ∧ t.ram = s.ram)
    ∧ (∀ s p kind, s.fabRuns = true →
      exec (.unsupportedFrame p kind) s = .next (settled s (s.bump F.FAB_PORT_DISCARD.count p.val)))
    ∧ (∀ s star, s.fabRuns = true → ∃ t, exec (.peerRecordRelease star) s = .next t
      ∧ t.fab.rxPeers = s.fab.rxPeers.filter (fun e => e.star != star || !notLater (e.last + 2000000000#64) s.gridTime)
      ∧ t.fget F.FAB_PEER_COUNT.rx = t.fab.rxPeers.length % 512 ∧ t.fab.txPeers = s.fab.txPeers ∧ t.ram = s.ram)
    ∧ (∀ s star e, s.dozing = true → s.fab.txPeer star = some e → e.unanswered = [] → e.waiting = [] → ∃ t,
      exec (.fabPeerRelease .manager star) s = .next t ∧ t.fab.txPeer star = none
        ∧ t.fget F.FAB_PEER_COUNT.tx = t.fab.txPeers.length % 512 ∧ t.ram = s.ram)
    ∧ (∀ s star e, s.dozing = true → s.fab.txPeer star = some e → e.unanswered ≠ [] →
      exec (.fabPeerRelease .manager star) s = .next (settled s s))
    ∧ (∀ s star, s.dozing = true → s.fab.txPeer star = none → exec (.fabPeerRelease .manager star) s = .next (settled s s))
    ∧ (∀ s star, s.dozing = true → exec (.fabPeerRelease .inner star) s = .next (settled s s))
    ∧ (∀ s a star, s.dozing = false ∨ (a ≠ .manager ∧ a ≠ .inner) →
      exec (.fabPeerRelease a star) s = .next (settled s (s.emit (.busError a)))))

/-- DATA, BULK_DATA (R127, R136, R139, R140): a message of a new sender that delivers to a ring with a free place is
executed once: the head advances and DONE is recorded; a message recorded already is answered from the record and not
executed again; a message for another star passes by.

REPLY, MESSAGE_REPEAT, SENDER_TIMEOUT, FAB_SLOT_SEND (R138, R140, R147): a reply ends its slot with its outcome, an
unanswered message goes out again every 2 D, a timeout ends it as UNKNOWN whether sent or waiting, and a send that is
refused leaves only its code. -/
def Obligations.MessageDelivery : Prop :=
  ((∀ s p h m, s.fabCarries = true → s.rxVerdict p.val h (.data m) = .accepted → s.numbered = true → h.dst = s.star →
      s.fab.rxPeer h.src = none → s.dataRow h.src m = 6 → m.kind = .deliver → s.ringRefusal m.appPort.val = 0 → ∃ t,
      exec (.data p h m) s = .next t
        ∧ t.fget F.FAB_APP_RING_HEAD.head m.appPort.val = (s.fget F.FAB_APP_RING_HEAD.head m.appPort.val + 1) %
            2 ^ (s.fget F.FAB_APP_RING_CFG.log2 m.appPort.val + 4) % 4096
        ∧ (t.fab.rxPeer h.src).bind (fun e => e.outcome m.seq) = some ⟨m.seq, 1, 0, 0⟩)
    ∧ (∀ s p h m r, s.fabCarries = true → s.rxVerdict p.val h (.data m) = .accepted → s.numbered = true → h.dst = s.star →
      s.dataRow h.src m = 1 → (s.fab.rxPeer h.src).bind (fun e => e.outcome m.seq) = some r → ∃ t,
      exec (.data p h m) s = .next t ∧ (t.fab.rxPeer h.src).bind (fun e => e.outcome m.seq) = some r
        ∧ t.fget F.FAB_APP_RING_HEAD.head m.appPort.val = s.fget F.FAB_APP_RING_HEAD.head m.appPort.val ∧ t.ram = s.ram)
    ∧ (∀ s p h m, s.fabCarries = true → s.rxVerdict p.val h (.data m) = .accepted → s.numbered = true → h.dst ≠ s.star → ∃ t,
      exec (.data p h m) s = .next t ∧ t.fab.rxPeers = s.fab.rxPeers
        ∧ t.fget F.FAB_APP_RING_HEAD.head m.appPort.val = s.fget F.FAB_APP_RING_HEAD.head m.appPort.val ∧ t.ram = s.ram)
    ∧ (∀ s p h q body, s.fabCarries = true → s.rxVerdict p.val h (.bulk q.val body) = .accepted → s.forMe h = true →
      s.bulkKept q.val = true → ∃ t, exec (.bulkData p h q body) s = .next t
        ∧ t.fget F.FAB_APP_RING_HEAD.head q.val = (s.fget F.FAB_APP_RING_HEAD.head q.val + 1) %
            2 ^ (s.fget F.FAB_APP_RING_CFG.log2 q.val + 4) % 4096)
    ∧ (∀ s p h q body, s.fabCarries = true → s.rxVerdict p.val h (.bulk q.val body) = .accepted →
      s.forMe h = false ∨ s.bulkKept q.val = false → ∃ t, exec (.bulkData p h q body) s = .next t ∧ t.ram = s.ram
        ∧ t.fget F.FAB_APP_RING_HEAD.head q.val = s.fget F.FAB_APP_RING_HEAD.head q.val))
  ∧ ((∀ s p h m n, s.fabCarries = true → s.rxVerdict p.val h (.reply m) = .accepted → s.numbered = true → h.dst = s.star →
      s.slotAnswered h.src m = some n → s.slotState n = 2 → NotQueued s h.src n → ∃ t, exec (.reply p h m) s = .next t
        ∧ t.slotState n = 3 ∧ t.fget F.FAB_SLOT_STATUS.outcome n = replyMeaning m % 8
        ∧ t.get64 .FAB_SLOT_RESULT_LO .FAB_SLOT_RESULT_HI n = m.result
        ∧ t.hasBit .FAB_SLOT_DONE (n % 32) 0 (n / 32) = true ∧ t.ram = s.ram)
    ∧ (∀ s n m r, s.fabCarries = true → s.slotState n.val = 2 → notLater (s.slotOf n.val).nextRepeat s.gridTime = true →
      (s.slotOf n.val).msg = some m → s.ownRoute (s.slotOf n.val).dst = some r → r.1 < 8 → ∃ t,
      exec (.messageRepeat n) s = .next t ∧ (t.slotOf n.val).repeats = (s.slotOf n.val).repeats + 1
        ∧ (t.slotOf n.val).msg = some m ∧ t.slotState n.val = 2 ∧ CountsFrames s t (fun p => p = r.1) ∧ t.ram = s.ram)
    ∧ (∀ s n, s.slotState n.val ≠ 2 → s.slotState n.val ≠ 1 → exec (.messageRepeat n) s = .next (settled s s)
        ∧ exec (.senderTimeout n) s = .next (settled s s))
    ∧ (∀ s n, s.fabRuns = true → notLater (s.slotOf n.val).timeout s.tim.st = true → s.slotState n.val = 2 →
      NotQueued s (s.slotOf n.val).dst n.val → ∃ u, exec (.senderTimeout n) s = .next (settled s u) ∧ u.slotState n.val = 3
        ∧ u.fget F.FAB_SLOT_STATUS.outcome n.val = 4 ∧ u.get .FAB_UNKNOWN_COUNT = s.get .FAB_UNKNOWN_COUNT + 1 ∧ 76 ∈ u.raised)
    ∧ (∀ s n, s.fabRuns = true → notLater (s.slotOf n.val).timeout s.tim.st = true → s.slotState n.val = 1 → ∃ u,
      exec (.senderTimeout n) s = .next (settled s u) ∧ u.slotState n.val = 3 ∧ u.fget F.FAB_SLOT_STATUS.outcome n.val = 4
        ∧ NotQueued u (s.slotOf n.val).dst n.val ∧ 76 ∈ u.raised)
    ∧ (∀ s a n, a = .manager ∨ a = .inner → s.fabCarries = true → s.fabSlotError n.val (s.slotVoid n.val s.tim.st) ≠ 0 →
      exec (.fabSlotSend a n) s = .next (settled s
        (onlyIf (s.fabSlotError n.val (s.slotVoid n.val s.tim.st) == 1) (fun s => s.raise 82)
          (s.fset F.FAB_SLOT_STATUS.err (s.fabSlotError n.val (s.slotVoid n.val s.tim.st)) n.val))))
    ∧ (∀ s a n, a = .manager ∨ a = .inner → s.fabCarries = true → s.fabSlotError n.val (s.slotVoid n.val s.tim.st) = 0 →
      s.flag F.FAB_SLOT_CFG.bulk n.val = false → ∃ t, exec (.fabSlotSend a n) s = .next t
        ∧ (t.slotState n.val = 1 ∨ t.slotState n.val = 2) ∧ (t.slotOf n.val).dst = s.slotDst n.val
        ∧ (t.fab.txPeer (s.slotDst n.val)).isSome = true ∧ t.ram = s.ram)
    ∧ (∀ s a n, a = .manager ∨ a = .inner → s.fabCarries = true → s.fabSlotError n.val (s.slotVoid n.val s.tim.st) = 0 →
      s.flag F.FAB_SLOT_CFG.bulk n.val = true → ∃ t, exec (.fabSlotSend a n) s = .next t ∧ t.slotState n.val = 3
        ∧ t.fget F.FAB_SLOT_STATUS.outcome n.val = 0 ∧ t.hasBit .FAB_SLOT_DONE (n.val % 32) 0 (n.val / 32) = true
        ∧ t.ram = s.ram)
    ∧ (∀ s a n, a = .manager ∨ a = .inner → s.dozing = true → s.fabCarries = false →
      exec (.fabSlotSend a n) s = .next (settled s (s.fset F.FAB_SLOT_STATUS.err 3 n.val)))
    ∧ (∀ s a n, s.dozing = false ∨ (a ≠ .manager ∧ a ≠ .inner) →
      exec (.fabSlotSend a n) s = .next (settled s (s.emit (.busError a)))))

/-- NOP, BARRIER, CACHE_OP, CONST_WRITE, CALL, SIGNAL, LAYER_SUBMIT (R152, R155 to R157, R189): a packet does its own
work and fetch moves past it; a CALL leads to its buffer, and a context whose work ends is IDLE.

R154 to R156, R171, R172: whatever command executes the packet, one that the table does not allow where it stands
stops the context with PACKET, a fetch that does not translate with TRANSLATION, and a context that cannot run, or
whose packet has another opcode, is left alone. A CALL too deep, and a layer of another owner, have codes of their
own. A context of which something is asked stops so when its work ends. -/
def Obligations.RasterPackets : Prop :=
  ((∀ s (c : Fin 64) b r, packetAt s c = some (0, b, r) → WorkAfter s c (1 + b.length) ∨ NothingAsked s c → ∃ u,
      exec (.nop c) s = .next (settledMem s [] u) ∧ Executed s u c (1 + b.length) ∧ u.raised = r.raised)
    ∧ (∀ s (c : Fin 64) b r, packetAt s c = some (64, b, r) → WorkAfter s c 2 ∨ NothingAsked s c → ∃ u,
      exec (.barrier c) s = .next (settledMem s (r.barrierActions c (dword b 0)).1 u) ∧ Executed s u c 2
        ∧ (bit (dword b 0) 1 = 1 → (u.ctx c).l1 = [])
        ∧ (bit (dword b 0) 2 = 1 → ∀ a v, u.l2Byte a ≠ some ⟨v, some c.val⟩)
        ∧ (bit (dword b 0) 3 = 1 → ∀ a x, u.l2Byte a = some x → ∃ o, x.owner = some o ∧ o ≠ c.val))
    ∧ (∀ s (c : Fin 64) b r rng, packetAt s c = some (65, b, r) → WorkAfter s c 5 ∨ NothingAsked s c →
      rng = r.gfxRanges c (dword2 b 1 / 64 * 64) ((dword2 b 1 + dword b 3 + 63) / 64 * 64 - dword2 b 1 / 64 * 64) →
      rng.2.1 = none → ∃ w u, exec (.cacheOp c) s = .next (settledMem s w u) ∧ Executed s u c 5
        ∧ (dword b 0 % 2 = 1 → ∀ a v o, inRanges rng.1 a = true → u.l2Byte a ≠ some ⟨v, some o⟩)
        ∧ (2 ≤ dword b 0 → ∀ a x, inRanges rng.1 a = true → u.l2Byte a = some x → ∃ o, x.owner = some o ∧ o ≠ c.val))
    ∧ (∀ s (c : Fin 64) b r, packetAt s c = some (17, b, r) → WorkAfter s c (1 + b.length) ∨ NothingAsked s c → ∃ u,
      exec (.constWrite c) s = .next (settledMem s [] u) ∧ Executed s u c (1 + b.length)
        ∧ (∀ k, k + 1 < b.length → Tbl.get 0 (u.ctx c).consts (dword b 0 + k) = b.getD (k + 1) 0)
        ∧ (∀ k, k < dword b 0 ∨ dword b 0 + (b.length - 1) ≤ k → Tbl.get 0 (u.ctx c).consts k = Tbl.get 0 (s.ctx c).consts k))
    ∧ (∀ s (c : Fin 64) b r, packetAt s c = some (1, b, r) → (s.ctx c).calls.length < 2 → dword b 2 ≠ 0 → ∃ u,
      exec (.call c) s = .next (settledMem s [] u) ∧ u.ctxState c = ctxRunning ∧ (u.ctx c).callAt = s.packetOffset c
        ∧ (match (s.ctx c).calls with
           | [] => (u.ctx c).calls = [(dword2 b 0 % 2 ^ 48, dword b 2)]
              ∧ u.fget F.CTX_HEAD.index c = (s.fget F.CTX_HEAD.index c + 4) % s.ringSize c % 2 ^ 22
           | (a, k) :: t => (u.ctx c).calls = (dword2 b 0 % 2 ^ 48, dword b 2) :: (a + 16, k - 4) :: t
              ∧ u.fget F.CTX_HEAD.index c = s.fget F.CTX_HEAD.index c))
    ∧ (∀ s (c : Fin 64) b r, packetAt s c = some (83, b, r) → WorkAfter s c 4 ∨ NothingAsked s c → ∃ u,
      exec (.signal c) s = .next (settledMem s (r.l2Release c).1 u) ∧ Executed s u c 4
        ∧ u.get64 .QCOMP_LO .QCOMP_HI (s.ctxOwner c) (s.fget F.CTX_CFG.queue c) = BitVec.ofNat 64 (dword2 b 0)
        ∧ (∀ a v, u.l2Byte a ≠ some ⟨v, some c.val⟩)
        ∧ (dword b 2 = 255 → u.raised = r.raised ∧ u.sent = r.sent)
        ∧ (dword b 2 ≠ 255 → s.ctxOwner c = 0 → u.raised = r.raised ++ [152])
        ∧ (dword b 2 ≠ 255 → 64 ≤ s.ctxOwner c → u.raised = r.raised ++ [144 + (s.ctxOwner c - 64)]))
    ∧ (∀ s (c : Fin 64) b r, packetAt s c = some (97, b, r) → WorkAfter s c 9 ∨ NothingAsked s c →
      s.layerHolder (dword b 0 % 64) = some (s.ctxOwner c) → ∃ u,
      exec (.layerSubmit c) s = .next (settledMem s (r.l2Release c).1 u) ∧ Executed s u c 9
        ∧ (∀ a v, u.l2Byte a ≠ some ⟨v, some c.val⟩)
        ∧ u.cmp = ((r.l2Release c).2.submit (dword b 0 % 64) (submitFrame b)).cmp
        ∧ u.fget F.SUB_STATUS.err (dword b 0 % 64) = ((r.l2Release c).2.submit (dword b 0 % 64) (submitFrame b)).fget
            F.SUB_STATUS.err (dword b 0 % 64)))
  ∧ ((∀ s (c : Fin 64) w l x e q, s.ctxCanRun c = true → e ∈ packetCommands c w l x → q = s.gfxFetch c (s.fetchAddr c) 4 →
      q.fault = none →
      (headerOk (BitVec.ofNat 32 (u32 q.bytes 0)) (s.inPass c) = false ∨
        s.packetFits c (1 + packetLength (BitVec.ofNat 32 (u32 q.bytes 0))) = false) → ∃ u,
      exec e.2 s = .next (settledMem s [] u) ∧ PacketFaulted s u c faultPacket
        ∧ u.get64 .CTX_FAULT_ADDR_LO .CTX_FAULT_ADDR_HI c = BitVec.ofNat 64 (s.fetchAddr c))
    ∧ (∀ s (c : Fin 64) w l x e a, s.ctxCanRun c = true → e ∈ packetCommands c w l x →
      (s.gfxFetch c (s.fetchAddr c) 4).fault = some a → ∃ u,
      exec e.2 s = .next (settledMem s [] u) ∧ PacketFaulted s u c faultTranslation
        ∧ u.get64 .CTX_FAULT_ADDR_LO .CTX_FAULT_ADDR_HI c = BitVec.ofNat 64 a)
    ∧ (∀ s (c : Fin 64) w l x e, s.ctxCanRun c = false → e ∈ packetCommands c w l x → exec e.2 s = .next (settledMem s [] s))
    ∧ (∀ s (c : Fin 64) w l x e op b r, packetAt s c = some (op, b, r) → e ∈ packetCommands c w l x → op ≠ e.1 →
      exec e.2 s = .next (settledMem s [] s))
    ∧ (∀ s (c : Fin 64) b r, packetAt s c = some (1, b, r) → 2 ≤ (s.ctx c).calls.length → ∃ u,
      exec (.call c) s = .next (settledMem s [] u) ∧ PacketFaulted s u c faultCallDepth)
    ∧ (∀ s (c : Fin 64) b r, packetAt s c = some (97, b, r) → s.layerHolder (dword b 0 % 64) ≠ some (s.ctxOwner c) → ∃ u,
      exec (.layerSubmit c) s = .next (settledMem s [] u) ∧ PacketFaulted s u c faultLayerPerm ∧ u.cmp = s.cmp)
    ∧ (∀ s (c : Fin 64) b r a, packetAt s c = some (65, b, r) →
      (r.gfxRanges c (dword2 b 1 / 64 * 64) ((dword2 b 1 + dword b 3 + 63) / 64 * 64 - dword2 b 1 / 64 * 64)).2.1 = some a → ∃ u,
      exec (.cacheOp c) s = .next (settledMem s [] u) ∧ PacketFaulted s u c faultTranslation)
    ∧ (∀ s (c : Fin 64) b r f, packetAt s c = some (0, b, r) → ¬ WorkAfter s c (1 + b.length) → (s.ctx c).pendFault = some f → ∃ u,
      exec (.nop c) s = .next (settledMem s [] u) ∧ u.ctxState c = ctxFaulted ∧ u.fget F.CTX_STATE.fault c = f.1 % 256)
    ∧ (∀ s (c : Fin 64) b r, packetAt s c = some (0, b, r) → ¬ WorkAfter s c (1 + b.length) → (s.ctx c).pendFault = none →
      (s.ctx c).destroy = true → ∃ u,
      exec (.nop c) s = .next (settledMem s [] u) ∧ u.ctxState c = ctxFree ∧ u.ctx c = CtxState.initial ∧ u.coresOf c = [])
    ∧ (∀ s (c : Fin 64) b r, packetAt s c = some (0, b, r) → ¬ WorkAfter s c (1 + b.length) → (s.ctx c).pendFault = none →
      (s.ctx c).destroy = false → s.flag F.CTX_STATE.destroy_pending c = false → (s.ctx c).freeze = true → ∃ w u,
      exec (.nop c) s = .next (settledMem s w u) ∧ u.ctxState c = ctxFrozen ∧ u.coresOf c = [] ∧ 140 ∈ u.raised))

/-- FENCE_WAIT_ST, FENCE_WAIT_ST_RELEASE, WAIT_VALUE, WAIT_VALUE_SATISFIED, WRITE_VALUE (R152, R156, R157): a fence
or compare that holds lets the queue go on, one that does not makes the context wait without cores; a write releases
what the context wrote before and stores the value and, with `stamp`, the ST. -/
def Obligations.RasterWaitsAndWrites : Prop :=
  (∀ s (c : Fin 64) b r, packetAt s c = some (80, b, r) → WorkAfter s c 3 ∨ NothingAsked s c →
    s.fencePassed (BitVec.ofNat 64 (dword2 b 0)) = true → ∃ u,
    exec (.fenceWaitSt c) s = .next (settledMem s [] u) ∧ Executed s u c 3)
  ∧ (∀ s (c : Fin 64) b r, packetAt s c = some (80, b, r) → NothingAsked s c →
    s.fencePassed (BitVec.ofNat 64 (dword2 b 0)) = false → ∃ u,
    exec (.fenceWaitSt c) s = .next (settledMem s [] u) ∧ Waits s u c (.untilSt (BitVec.ofNat 64 (dword2 b 0))))
  ∧ (∀ s (c : Fin 64) st, s.day = true → s.ctxState c = ctxWaiting → (s.ctx c).wait = some (.untilSt st) →
    WorkAfter s c 3 ∨ NothingAsked s c → s.fencePassed st = true → ∃ u,
    exec (.fenceWaitStRelease c) s = .next (settledMem s [] u) ∧ GoesOn s u c 3)
  ∧ (∀ s (c : Fin 64) st, (s.ctx c).wait = some (.untilSt st) → s.fencePassed st = false →
    exec (.fenceWaitStRelease c) s = .next (settledMem s [] s))
  ∧ (∀ s (c : Fin 64) b r q, packetAt s c = some (81, b, r) → WorkAfter s c 6 ∨ NothingAsked s c →
    q = r.gfxFetch c (dword2 b 0) 8 → q.fault = none →
    waitCompare (dword b 4) (BitVec.ofNat 64 (u64 q.bytes 0)) (BitVec.ofNat 64 (dword2 b 2)) = true → ∃ u,
    exec (.waitValue c) s = .next (settledMem s [] u) ∧ Executed s u c 6)
  ∧ (∀ s (c : Fin 64) b r q, packetAt s c = some (81, b, r) → NothingAsked s c →
    q = r.gfxFetch c (dword2 b 0) 8 → q.fault = none →
    waitCompare (dword b 4) (BitVec.ofNat 64 (u64 q.bytes 0)) (BitVec.ofNat 64 (dword2 b 2)) = false → ∃ u,
    exec (.waitValue c) s = .next (settledMem s [] u)
      ∧ Waits s u c (.onValue (dword2 b 0) (BitVec.ofNat 64 (dword2 b 2)) (dword b 4)))
  ∧ (∀ s (c : Fin 64) b r a, packetAt s c = some (81, b, r) → (r.gfxFetch c (dword2 b 0) 8).fault = some a → ∃ u,
    exec (.waitValue c) s = .next (settledMem s [] u) ∧ PacketFaulted s u c faultTranslation)
  ∧ (∀ s (c : Fin 64) addr value cmp q, s.day = true → s.ctxState c = ctxWaiting →
    (s.ctx c).wait = some (.onValue addr value cmp) → WorkAfter s c 6 ∨ NothingAsked s c → q = s.gfxFetch c addr 8 →
    q.fault = none → waitCompare cmp (BitVec.ofNat 64 (u64 q.bytes 0)) value = true → ∃ u,
    exec (.waitValueSatisfied c) s = .next (settledMem s [] u) ∧ GoesOn s u c 6)
  ∧ (∀ s (c : Fin 64) addr value cmp, (s.ctx c).wait = some (.onValue addr value cmp) →
    (s.gfxFetch c addr 8).fault = none →
    waitCompare cmp (BitVec.ofNat 64 (u64 (s.gfxFetch c addr 8).bytes 0)) value = false →
    ∃ u, exec (.waitValueSatisfied c) s = .next (settledMem s [] u) ∧ u.ctx c = s.ctx c ∧ u.ctxState c = s.ctxState c)
  ∧ (∀ s (c : Fin 64) b r w, packetAt s c = some (82, b, r) → WorkAfter s c 6 ∨ NothingAsked s c →
    w = (r.l2Release c).2.gfxStore c (dword2 b 0)
      (leBytes 8 (dword2 b 2) ++ (if dword b 4 = 1 then leBytes 8 s.tim.st.toNat else [])) → w.fault = none → ∃ u,
    exec (.writeValue c) s = .next (settledMem s ((r.l2Release c).1 ++ w.stores) u) ∧ Executed s u c 6
      ∧ (∀ a v, u.l2Byte a ≠ some ⟨v, some c.val⟩))
  ∧ (∀ s (c : Fin 64) b r w a, packetAt s c = some (82, b, r) →
    w = (r.l2Release c).2.gfxStore c (dword2 b 0)
      (leBytes 8 (dword2 b 2) ++ (if dword b 4 = 1 then leBytes 8 s.tim.st.toNat else [])) → w.fault = some a → ∃ u,
    exec (.writeValue c) s = .next (settledMem s ((r.l2Release c).1 ++ w.stores) u) ∧ PacketFaulted s u c faultTranslation)

/-- STATE_BIND, PASS_BEGIN, PASS_END (R158 to R164, R166, R168, R177): a bound object replaces the one of its type
and slot with the bytes read now, and what its table or containers do not allow is a fault; a pass starts in the mode
of its descriptor and pool, taking the bin reserve, or waits for a cluster; its end gives every chunk back. -/
def Obligations.RasterObjectsAndPasses : Prop :=
  (∀ s (c : Fin 64) b r, packetAt s c = some (16, b, r) →
    bindSlotOk (dword b 0 % 256) (dword b 0 / 256) = false ∨ dword2 b 1 % 64 ≠ 0 → ∃ u,
    exec (.stateBind c) s = .next (settledMem s [] u) ∧ PacketFaulted s u c faultDescriptor)
  ∧ (∀ s (c : Fin 64) b r q, packetAt s c = some (16, b, r) → WorkAfter s c 4 ∨ NothingAsked s c →
    dword b 0 = 3 ∨ dword b 0 = 4 → dword2 b 1 % 64 = 0 → q = r.gfxFetch c (dword2 b 1) (objectBytes (dword b 0)) →
    q.fault = none → objectOk (dword b 0) q.bytes = true → ∃ u,
    exec (.stateBind c) s = .next (settledMem s [] u) ∧ Bound s u c (dword b 0) 0 q.bytes ∧ Executed s u c 4)
  ∧ (∀ s (c : Fin 64) b r q d, packetAt s c = some (16, b, r) → WorkAfter s c 4 ∨ NothingAsked s c →
    dword b 0 % 256 = 2 → dword b 0 / 256 < 8 → dword2 b 1 % 64 = 0 → q = r.gfxFetch c (dword2 b 1) 64 → q.fault = none →
    objectOk 2 q.bytes = true → d = q.s.gfxRead c (tableAddr q.bytes) (32 * u32 q.bytes 0) → d.fault = none →
    tableOk d.bytes (u32 q.bytes 0) = true → ∃ u,
    exec (.stateBind c) s = .next (settledMem s [] u) ∧ Bound s u c 2 (dword b 0 / 256) (q.bytes ++ d.bytes)
      ∧ Executed s u c 4)
  ∧ (∀ s (c : Fin 64) b r q h k x, packetAt s c = some (16, b, r) → WorkAfter s c 4 ∨ NothingAsked s c → dword b 0 = 1 →
    dword2 b 1 % 64 = 0 → q = r.gfxFetch c (dword2 b 1) 128 → q.fault = none → pipelineOk q.bytes = true →
    u64 q.bytes 16 ≠ 0 → u64 q.bytes 16 % 256 = 0 → h = q.s.gfxFetch c (u64 q.bytes 16) 64 → h.fault = none →
    k = h.s.gfxFetch c (u64 q.bytes 16) (max 64 (u32 h.bytes 24)) → k.fault = none → x = slice k.bytes 0 (u32 h.bytes 24) →
    containerOk x 2 (s.fget F.GFX_STATUS.isa_rev) = true → ∃ u,
    exec (.stateBind c) s = .next (settledMem s [] u) ∧ Bound s u c 1 0 q.bytes ∧ Executed s u c 4
      ∧ (u.ctx c).pipe = some ⟨false, u16 x 8, u32 x 12, u16 x 16 * u16 x 18 * u16 x 20⟩)
  ∧ (∀ s (c : Fin 64) b r q, packetAt s c = some (16, b, r) → WorkAfter s c 4 ∨ NothingAsked s c → dword b 0 = 1 →
    dword2 b 1 % 64 = 0 → q = r.gfxFetch c (dword2 b 1) 128 → q.fault = none → pipelineOk q.bytes = true → ∃ u,
    exec (.stateBind c) s = .next (settledMem s [] u)
      ∧ ((Bound s u c 1 0 q.bytes ∧ (u.ctx c).pipe.isSome = true ∧ Executed s u c 4)
        ∨ PacketFaulted s u c faultTranslation ∨ PacketFaulted s u c faultShader ∨ PacketFaulted s u c faultDescriptor))
  ∧ (∀ s (c : Fin 64) b r, packetAt s c = some (32, b, r) → dword2 b 0 % 64 ≠ 0 → ∃ u,
    exec (.passBegin c) s = .next (settledMem s [] u) ∧ PacketFaulted s u c faultDescriptor)
  ∧ (∀ s (c : Fin 64) b r q, packetAt s c = some (32, b, r) → dword2 b 0 % 64 = 0 → q = r.gfxFetch c (dword2 b 0) 320 →
    q.fault = none → passOk q.bytes = false → ∃ u,
    exec (.passBegin c) s = .next (settledMem s [] u) ∧ PacketFaulted s u c faultDescriptor)
  ∧ (∀ s (c : Fin 64) b r q, packetAt s c = some (32, b, r) → dword2 b 0 % 64 = 0 → q = r.gfxFetch c (dword2 b 0) 320 →
    q.fault = none → passOk q.bytes = true → passFlags q.bytes % 2 = 0 →
    ((s.ctx c).pipe.map (·.interlock)).getD false = true → ∃ u,
    exec (.passBegin c) s = .next (settledMem s [] u) ∧ PacketFaulted s u c faultShader)
  ∧ (∀ s (c : Fin 64) b r q, packetAt s c = some (32, b, r) → WorkAfter s c 3 → dword2 b 0 % 64 = 0 →
    q = r.gfxFetch c (dword2 b 0) 320 → q.fault = none → passOk q.bytes = true →
    (passFlags q.bytes % 2 = 1 ∨ ((s.ctx c).pipe.map (·.interlock)).getD false = false) →
    (s.claimClusters c).coresOf c ≠ [] → ∃ w u p,
    exec (.passBegin c) s = .next (settledMem s w u) ∧ (u.ctx c).pass = some p ∧ p.desc = q.bytes ∧ p.draws = 0 ∧ p.prims = 0
      ∧ p.start = s.tim.st ∧ p.binned = (passStart q.bytes s.binFree).1 ∧ p.tile = (passStart q.bytes s.binFree).2.1
      ∧ p.undecided = (passStart q.bytes s.binFree).2.2.1 ∧ p.forced = (passStart q.bytes s.binFree).2.2.2
      ∧ p.chunks = (if p.binned then 16 else 0) ∧ u.binFree + p.chunks = s.binFree
      ∧ PastPacket s u c 3 ∧ u.ctxState c = ctxRunning)
  ∧ (∀ s (c : Fin 64) b r q, packetAt s c = some (32, b, r) → NothingAsked s c → dword2 b 0 % 64 = 0 →
    q = r.gfxFetch c (dword2 b 0) 320 → q.fault = none → passOk q.bytes = true →
    (passFlags q.bytes % 2 = 1 ∨ ((s.ctx c).pipe.map (·.interlock)).getD false = false) →
    (s.claimClusters c).coresOf c = [] → ∃ u,
    exec (.passBegin c) s = .next (settledMem s [] u) ∧ (u.ctx c).wantsPass = true ∧ (u.ctx c).pass = none
      ∧ u.fget F.CTX_HEAD.index c = s.fget F.CTX_HEAD.index c ∧ (u.ctxState c = ctxReady ∨ u.ctxState c = ctxRunning))
  ∧ (∀ s (c : Fin 64) b r p, packetAt s c = some (33, b, r) → (s.ctx c).pass = some p → PhysicalOwner s c → NothingAsked s c →
    s.binFree + p.chunks < 32768 → ∃ w u,
    exec (.passEnd c) s = .next (settledMem s w u) ∧ (u.ctx c).pass = none ∧ u.binFree = s.binFree + p.chunks
      ∧ PastPacket s u c 1 ∧ (WorkAfter s c 1 → u.ctxState c = ctxRunning)
      ∧ (¬ WorkAfter s c 1 → u.ctxState c = ctxIdle ∧ u.coresOf c = []))
  ∧ (∀ s (c : Fin 64) b r, packetAt s c = some (33, b, r) → NothingAsked s c → ∃ w u,
    exec (.passEnd c) s = .next (settledMem s w u)
      ∧ (((u.ctx c).pass = none ∧ PastPacket s u c 1) ∨ (u.ctxState c = ctxFaulted ∧ u.fget F.CTX_STATE.fault c = 3)))

/-- DRAW, DRAW_INDEXED, DRAW_INDIRECT, DRAW_INDEXED_INDIRECT, DISPATCH, DISPATCH_INDIRECT (R150, R156 to R158, R162):
a draw adds itself and its primitives, as many as its topology makes of its counts, to its pass; a dispatch runs what
its shaders do; without a pipeline, an index buffer or a group nothing runs; fetch moves on. -/
def Obligations.RasterDraws : Prop :=
  (∀ s (c : Fin 64) b r p w tp m, packetAt s c = some (34, b, r) → (s.ctx c).pass = some p → s.samplesMatch c = true →
    WorkAfter s c 5 → Draws s c tp → m = min w.prims.length (primitives tp (dword b 0) * dword b 1) → ∃ x u,
    exec (.draw c w) s = .next (settledMem s x u) ∧ Drew u c p 1 m m ∧ PastPacket s u c 5 ∧ u.ctxState c = ctxRunning)
  ∧ (∀ s (c : Fin 64) b r p w tp m, packetAt s c = some (35, b, r) → (s.ctx c).pass = some p → s.samplesMatch c = true →
    WorkAfter s c 6 → Draws s c tp → (∃ e ∈ (s.ctx c).bindings, e.type = 3) →
    m = min w.prims.length (primitives tp (dword b 0) * dword b 1) → ∃ x u,
    exec (.drawIndexed c w) s = .next (settledMem s x u) ∧ Drew u c p 1 m m ∧ PastPacket s u c 6 ∧ u.ctxState c = ctxRunning)
  ∧ (∀ s (c : Fin 64) b r p l tp, packetAt s c = some (36, b, r) → (s.ctx c).pass = some p → s.samplesMatch c = true →
    WorkAfter s c 5 → Draws s c tp → PhysicalOwner s c → ∃ x u,
    exec (.drawIndirect c l) s = .next (settledMem s x u)
      ∧ Drew u c p (dword b 2) 0 (((List.range (dword b 2)).map (fun k => (workAt l k).prims.length)).sum)
      ∧ PastPacket s u c 5 ∧ u.ctxState c = ctxRunning)
  ∧ (∀ s (c : Fin 64) b r p l tp, packetAt s c = some (37, b, r) → (s.ctx c).pass = some p → s.samplesMatch c = true →
    WorkAfter s c 5 → Draws s c tp → (∃ e ∈ (s.ctx c).bindings, e.type = 3) → PhysicalOwner s c → ∃ x u,
    exec (.drawIndexedIndirect c l) s = .next (settledMem s x u)
      ∧ Drew u c p (dword b 2) 0 (((List.range (dword b 2)).map (fun k => (workAt l k).prims.length)).sum)
      ∧ PastPacket s u c 5 ∧ u.ctxState c = ctxRunning)
  ∧ (∀ s (c : Fin 64) b r w, packetAt s c = some (34, b, r) → WorkAfter s c 5 ∨ NothingAsked s c → s.samplesMatch c = true →
    (∀ x, s.boundPipeline c = some x → u64 x 16 ≠ 0) → ∃ u,
    exec (.draw c w) s = .next (settledMem s [] u) ∧ (u.ctx c).pass = (s.ctx c).pass ∧ Executed s u c 5)
  ∧ (∀ s (c : Fin 64) b r w, packetAt s c = some (35, b, r) → WorkAfter s c 6 ∨ NothingAsked s c → s.samplesMatch c = true →
    (∀ e ∈ (s.ctx c).bindings, e.type ≠ 3) → ∃ u,
    exec (.drawIndexed c w) s = .next (settledMem s [] u) ∧ (u.ctx c).pass = (s.ctx c).pass ∧ Executed s u c 6)
  ∧ (∀ s (c : Fin 64) w l x e op b r, packetAt s c = some (op, b, r) → 34 ≤ op → op ≤ 37 → s.samplesMatch c = false →
    e ∈ packetCommands c w l x → e.1 = op → ∃ u,
    exec e.2 s = .next (settledMem s [] u) ∧ PacketFaulted s u c faultDescriptor)
  ∧ (∀ s (c : Fin 64) b r y p w q, packetAt s c = some (48, b, r) → WorkAfter s c 4 → s.boundPipeline c = some y →
    u64 y 16 ≠ 0 → (s.ctx c).pipe = some p → dword b 0 * dword b 1 * dword b 2 ≠ 0 →
    q = (r.launch c b [] (residentGroups p)).shaderWork c w → ∃ u,
    exec (.dispatch c w) s = .next (settledMem s q.1 u) ∧ Executed s u c 4
      ∧ (u.ctx c).launched = some ⟨b, [], (s.ctx c).consts, residentGroups p⟩ ∧ (u.ctx c).returned = (q.2.ctx c).returned)
  ∧ (∀ s (c : Fin 64) b r w, packetAt s c = some (48, b, r) → WorkAfter s c 4 ∨ NothingAsked s c →
    ((∀ y, s.boundPipeline c = some y → u64 y 16 = 0) ∨ dword b 0 * dword b 1 * dword b 2 = 0) → ∃ u,
    exec (.dispatch c w) s = .next (settledMem s [] u) ∧ Executed s u c 4 ∧ (u.ctx c).launched = (s.ctx c).launched)
  ∧ (∀ s (c : Fin 64) b r v y p w q, packetAt s c = some (49, b, r) → WorkAfter s c 3 → v = r.gfxRead c (dword2 b 0) 12 →
    v.fault = none → s.boundPipeline c = some y → u64 y 16 ≠ 0 → (s.ctx c).pipe = some p →
    dword (dwordsOf v.bytes) 0 * dword (dwordsOf v.bytes) 1 * dword (dwordsOf v.bytes) 2 ≠ 0 →
    q = (v.s.launch c (dwordsOf v.bytes) [] (residentGroups p)).shaderWork c w → ∃ u,
    exec (.dispatchIndirect c w) s = .next (settledMem s q.1 u) ∧ Executed s u c 3
      ∧ (u.ctx c).launched = some ⟨dwordsOf v.bytes, [], (s.ctx c).consts, residentGroups p⟩)
  ∧ (∀ s (c : Fin 64) b r a w, packetAt s c = some (49, b, r) → (r.gfxRead c (dword2 b 0) 12).fault = some a → ∃ u,
    exec (.dispatchIndirect c w) s = .next (settledMem s [] u) ∧ PacketFaulted s u c faultTranslation)

/-- DOORBELL, GFX_CTX_ALLOC, CTX_FREEZE, CTX_RESUME, CTX_DESTROY (R154, R167, R170, R172): a doorbell wakes an idle
context and faults on an index outside the ring, at once or at the preemption point of a HUNG context; the manager
allocates, stops, resumes and frees contexts, and no other agent does.

SLICE_EXPIRY, PREEMPTION_POINT, YIELD_TIMEOUT (R169 to R172): a slice ends for another ready context of the same
priority; at a preemption point what waits for the context happens, else its state is saved and its cores go; a
request not honoured hangs the context, which keeps its cores. -/
def Obligations.RasterContexts : Prop :=
  ((∀ s (owner : Fin 72) (q : Fin 16) (tail : BitVec 32) c, s.day = true → s.boundCtx owner q = some c →
      s.pagesOpen owner = true → tail.toNat % 2 ^ 22 < s.ringSize c → s.ctxState c ≠ ctxIdle →
      exec (.doorbell owner q tail) s = .next (settled s (s.fset F.CTX_TAIL.index (tail.toNat % 2 ^ 22) c)))
    ∧ (∀ s (owner : Fin 72) (q : Fin 16) (tail : BitVec 32) c, s.day = true → s.boundCtx owner q = some c →
      s.pagesOpen owner = true → tail.toNat % 2 ^ 22 < s.ringSize c → s.ctxState c = ctxIdle →
      tail.toNat % 2 ^ 22 ≠ s.fget F.CTX_HEAD.index c → s.fget F.CTX_HEAD.index c < s.ringSize c → ∃ u,
      exec (.doorbell owner q tail) s = .next (settled s u) ∧ u.fget F.CTX_TAIL.index c = tail.toNat % 2 ^ 22
        ∧ (u.ctxState c = ctxReady ∨ u.ctxState c = ctxRunning))
    ∧ (∀ s (owner : Fin 72) (q : Fin 16) (tail : BitVec 32) c, s.day = true → s.boundCtx owner q = some c →
      s.pagesOpen owner = true → s.ringSize c ≤ tail.toNat % 2 ^ 22 → s.ctxState c ≠ ctxFaulted → s.ctxState c ≠ ctxHung → ∃ u,
      exec (.doorbell owner q tail) s = .next (settled s u) ∧ PacketFaulted s u c faultDoorbell)
    ∧ (∀ s (owner : Fin 72) (q : Fin 16) (tail : BitVec 32) c, s.day = true → s.boundCtx owner q = some c →
      s.pagesOpen owner = true → s.ringSize c ≤ tail.toNat % 2 ^ 22 → s.ctxState c = ctxHung → (s.ctx c).pendFault = none → ∃ u,
      exec (.doorbell owner q tail) s = .next (settled s u) ∧ (u.ctx c).pendFault = some (faultDoorbell, 0, s.packetOffset c)
        ∧ u.regs = s.regs ∧ u.coresOf c = s.coresOf c)
    ∧ (∀ s (owner : Fin 72) (q : Fin 16) tail, s.day = true → (s.boundCtx owner q = none ∨ s.pagesOpen owner = false) →
      exec (.doorbell owner q tail) s = .next (settled s s))
    ∧ (∀ s (owner : Fin 72) (q : Fin 16) tail, s.day = false →
      exec (.doorbell owner q tail) s = .next (settled s (s.emit (.busError (agentOf owner)))))
    ∧ (∀ s owner (q : Fin 16) c, s.day = true → s.ctxAllocError owner.toNat q = 0 → s.freeSlot = some c → ∃ u,
      exec (.gfxCtxAlloc .manager owner q) s = .next (settled s u) ∧ u.ctxState c = ctxIdle ∧ u.ctxOwner c = owner.toNat
        ∧ u.fget F.CTX_CFG.queue c = q.val ∧ u.fget F.CTX_SLICE.slice_us c = 1000 ∧ u.ctx c = CtxState.initial
        ∧ u.fget F.GFX_CTX_ALLOC_STATUS.err = 0 ∧ u.fget F.GFX_CTX_ALLOC_STATUS.slot = c
        ∧ (∀ d, d ≠ c → u.ctxState d = s.ctxState d ∧ u.ctx d = s.ctx d))
    ∧ (∀ s owner (q : Fin 16), s.day = true → s.ctxAllocError owner.toNat q ≠ 0 → exec (.gfxCtxAlloc .manager owner q) s =
      .next (settled s ((s.fset F.GFX_CTX_ALLOC_STATUS.err (s.ctxAllocError owner.toNat q)).raise 139)))
    ∧ (∀ s (c : Fin 64), s.day = true → s.ctxState c = ctxIdle ∨ s.ctxState c = ctxReady ∨ s.ctxState c = ctxWaiting → ∃ w u,
      exec (.ctxFreeze .manager c) s = .next (settledMem s w u) ∧ u.ctxState c = ctxFrozen ∧ u.coresOf c = [] ∧ 140 ∈ u.raised)
    ∧ (∀ s (c : Fin 64), s.day = true → s.ctxState c = ctxRunning → ∃ u,
      exec (.ctxFreeze .manager c) s = .next (settledMem s [] u) ∧ (u.ctx c).freeze = true ∧ (u.ctx c).preempt = true
        ∧ u.coresOf c = s.coresOf c ∧ u.regs = s.regs)
    ∧ (∀ s (c : Fin 64), s.day = true → s.ctxState c = ctxHung → ∃ u,
      exec (.ctxFreeze .manager c) s = .next (settledMem s [] u) ∧ (u.ctx c).freeze = true ∧ u.coresOf c = s.coresOf c
        ∧ u.regs = s.regs)
    ∧ (∀ s (c : Fin 64), s.day = true → s.ctxState c = ctxFree ∨ s.ctxState c = ctxFrozen ∨ s.ctxState c = ctxFaulted →
      exec (.ctxFreeze .manager c) s = .next (settledMem s [] s))
    ∧ (∀ s (c : Fin 64), s.day = true → s.ctxState c = ctxFrozen → ∃ u, exec (.ctxResume .manager c) s = .next (settled s u)
        ∧ (s.ctxHasWork c = true → u.ctxState c = ctxReady ∨ u.ctxState c = ctxRunning)
        ∧ (s.ctxHasWork c = false → u.ctxState c = ctxIdle))
    ∧ (∀ s (c : Fin 64), s.day = true → s.ctxState c ≠ ctxFrozen → exec (.ctxResume .manager c) s = .next (settled s s))
    ∧ (∀ s (c : Fin 64), s.day = true → s.ctxState c ≠ ctxFree → s.ctxState c ≠ ctxHung → s.ctxState c ≠ ctxRunning → ∃ u,
      exec (.ctxDestroy .manager c) s = .next (settled s u) ∧ u.ctxState c = ctxFree ∧ u.ctxOwner c = 0
        ∧ u.ctx c = CtxState.initial ∧ u.coresOf c = [])
    ∧ (∀ s (c : Fin 64), s.day = true → s.ctxState c = ctxRunning → ∃ u, exec (.ctxDestroy .manager c) s = .next (settled s u)
        ∧ (u.ctx c).destroy = true ∧ (u.ctx c).preempt = true ∧ u.regs = s.regs)
    ∧ (∀ s (c : Fin 64), s.day = true → s.ctxState c = ctxHung → exec (.ctxDestroy .manager c) s =
      .next (settled s (s.fset F.CTX_STATE.destroy_pending 1 c)))
    ∧ (∀ s a (c : Fin 64) owner q, a ≠ .manager ∨ s.day = false →
      exec (.gfxCtxAlloc a owner q) s = .next (settled s (s.emit (.busError a)))
        ∧ exec (.ctxFreeze a c) s = .next (settledMem s [] (s.emit (.busError a)))
        ∧ exec (.ctxDestroy a c) s = .next (settled s (s.emit (.busError a)))
        ∧ exec (.ctxResume a c) s = .next (settled s (s.emit (.busError a)))))
  ∧ ((∀ s (c : Fin 64) d, s.day = true → s.ctxState c = ctxRunning → d ∈ s.gfx.order → s.ctxState d = ctxReady →
      s.fget F.CTX_CFG.priority d = s.fget F.CTX_CFG.priority c → 0 < s.fget F.CTX_CFG.max_cores d → ∃ u,
      exec (.sliceExpiry c) s = .next (settled s u) ∧ (u.ctx c).preempt = true ∧ u.coresOf c = s.coresOf c
        ∧ u.gfx.order.getLast? = some c.val ∧ u.regs = s.regs)
    ∧ (∀ s (c : Fin 64), s.ctxState c ≠ ctxRunning → exec (.sliceExpiry c) s = .next (settled s s))
    ∧ (∀ s (c : Fin 64), s.day = true → s.ctxState c = ctxRunning → (s.ctx c).preempt = true → NothingAsked s c →
      PhysicalOwner s c ∨ ((s.saveArea c).2.ctx c).pendFault = none → ∃ u,
      exec (.preemptionPoint c) s = .next (settledMem s (s.saveArea c).1 u)
        ∧ ((u.ctxState c = ctxReady ∧ u.coresOf c = [] ∧ u.flag F.CTX_STATE.saved c = true)
          ∨ (u.ctxState c = ctxRunning ∧ 0 < s.fget F.CTX_CFG.max_cores c)))
    ∧ (∀ s (c : Fin 64), s.day = true → s.ctxState c = ctxRunning ∨ s.ctxState c = ctxHung → (s.ctx c).pendFault = none →
      ((s.ctx c).destroy = true ∨ s.flag F.CTX_STATE.destroy_pending c = true) → ∃ u,
      exec (.preemptionPoint c) s = .next (settledMem s [] u) ∧ u.ctxState c = ctxFree ∧ u.ctx c = CtxState.initial ∧ u.coresOf c = [])
    ∧ (∀ s (c : Fin 64), s.day = true → s.ctxState c = ctxRunning ∨ s.ctxState c = ctxHung → (s.ctx c).pendFault = none →
      (s.ctx c).destroy = false → s.flag F.CTX_STATE.destroy_pending c = false → (s.ctx c).freeze = true → ∃ w u,
      exec (.preemptionPoint c) s = .next (settledMem s w u) ∧ u.ctxState c = ctxFrozen ∧ u.coresOf c = [] ∧ 140 ∈ u.raised)
    ∧ (∀ s (c : Fin 64) f, s.day = true → s.ctxState c = ctxRunning ∨ s.ctxState c = ctxHung → (s.ctx c).pendFault = some f → ∃ u,
      exec (.preemptionPoint c) s = .next (settledMem s [] u) ∧ u.ctxState c = ctxFaulted ∧ u.fget F.CTX_STATE.fault c = f.1 % 256
        ∧ u.coresOf c = [] ∧ 137 ∈ u.raised)
    ∧ (∀ s (c : Fin 64), s.stopAsked c = false → exec (.preemptionPoint c) s = .next (settledMem s [] s))
    ∧ (∀ s (c : Fin 64), s.day = true → s.ctxState c = ctxRunning →
      ((s.ctx c).preempt = true ∨ (s.ctx c).freeze = true ∨ (s.ctx c).destroy = true) → ∃ u,
      exec (.yieldTimeout c) s = .next (settled s u) ∧ u.ctxState c = ctxHung ∧ u.coresOf c = s.coresOf c ∧ 138 ∈ u.raised
        ∧ ((s.ctx c).destroy = true → u.flag F.CTX_STATE.destroy_pending c = true))
    ∧ (∀ s (c : Fin 64), s.ctxState c ≠ ctxRunning ∨ NothingAsked s c ∧ (s.ctx c).preempt = false →
      exec (.yieldTimeout c) s = .next (settled s s)))

/-- LAYER_COMMIT, SUBMISSION, FLUSH, REL_POP (R187 to R189, R193): a commit that passes the check becomes the pending
set; a submission joins the end of the queue or is refused with its code; a flush releases every queued frame
CANCELLED; a pop drops the oldest record; an agent that does not hold the layer changes nothing.

WARP_BAND, CURSOR_COPY_DONE (R197 to R200): the warp of a band is coefficient times distance, held within 64 pixels
and 2 degrees, and a band beyond that counts, and is reported once a frame but not while the axis is lost; a copy
that ends before the first active line is shown in this frame, a later one from the next. -/
def Obligations.LayersAndWarp : Prop :=
  ((∀ s a (n : Fin 48), LayerReach s a n → s.commitOk n (s.shadowSet n) = true → ∃ t, exec (.layerCommit a n) s = .next t
        ∧ (t.layer n).pending = some (s.shadowSet n) ∧ (t.layer n).live = (s.layer n).live
        ∧ t.fget F.LAYER_COMMIT.pending n = 1 ∧ t.fget F.LAYER_COMMIT.commit_err n = 0 ∧ OtherLayers s t n ∧ t.ram = s.ram)
    ∧ (∀ s a (n : Fin 48), LayerReach s a n → s.commitOk n (s.shadowSet n) = false →
      exec (.layerCommit a n) s = .next (settled s (s.fset F.LAYER_COMMIT.commit_err 1 n)))
    ∧ (∀ s a (n : Fin 48) (ctrl : W32) f, LayerReach s a n → ctrl.getLsbD 18 = false → f = s.stagedFrame n ctrl →
      s.submitError n f.addr.toNat f.nb f.da f.ref = 0 → ∃ u, exec (.submission a n ctrl) s = .next (settled s u)
        ∧ (u.layer n).queue = (s.layer n).queue ++ [f] ∧ (u.layer n).current = (s.layer n).current
        ∧ u.fget F.SUB_STATUS.err n = 0 ∧ u.fget F.SUB_STATUS.queued n = (s.layer n).held + 1 ∧ u.raised = s.raised
        ∧ OtherLayers s u n)
    ∧ (∀ s a (n : Fin 48) (ctrl : W32) f, LayerReach s a n → ctrl.getLsbD 18 = false → f = s.stagedFrame n ctrl →
      s.submitError n f.addr.toNat f.nb f.da f.ref ≠ 0 → ∃ u, exec (.submission a n ctrl) s = .next (settled s u)
        ∧ u.cmp = s.cmp ∧ u.fget F.SUB_STATUS.err n = s.submitError n f.addr.toNat f.nb f.da f.ref
        ∧ u.fget F.CNT_REFUSED.count n = (s.fget F.CNT_REFUSED.count n + 1) % 2 ^ 32 ∧ u.raised = s.raised ++ [177])
    ∧ (∀ s a (n : Fin 48) (ctrl : W32), LayerReach s a n → ctrl.getLsbD 18 = true →
      exec (.submission a n ctrl) s = .next (settled s ((s.flushLayer n).submit n (s.stagedFrame n ctrl))))
    ∧ (∀ s a (n : Fin 48), LayerReach s a n → (s.layer n).rel.length + (s.layer n).queue.length ≤ 16 → ∃ t,
      exec (.flush a n) s = .next t ∧ (t.layer n).queue = [] ∧ (t.layer n).current = (s.layer n).current
        ∧ (t.layer n).rel = (s.layer n).rel ++ (s.layer n).queue.map (fun f => ⟨f.tag, relCancelled, s.tim.st⟩)
        ∧ OtherLayers s t n ∧ t.ram = s.ram)
    ∧ (∀ s a (n : Fin 48) f, LayerReach s a n → (s.layer n).queue = [f] → 16 ≤ (s.layer n).rel.length → ∃ t,
      exec (.flush a n) s = .next t ∧ (t.layer n).queue = [] ∧ (t.layer n).rel = (s.layer n).rel
        ∧ t.flag F.SUB_STATUS.rel_lost n = true)
    ∧ (∀ s a (n : Fin 48), LayerReach s a n →
      exec (.relPop a n) s = .next (settled s (s.setLayer n { s.layer n with rel := (s.layer n).rel.drop 1 })))
    ∧ (∀ s a (n : Fin 48) ctrl, s.awake = true → ((∃ i, a = .guest i) ∨ (∃ p, a = .partition p)) → s.pageSeven a n = false →
      exec (.layerCommit a n) s = .next (settled s s) ∧ exec (.submission a n ctrl) s = .next (settled s s)
        ∧ exec (.flush a n) s = .next (settled s s) ∧ exec (.relPop a n) s = .next (settled s s))
    ∧ (∀ s a (n : Fin 48) ctrl,
      s.awake = false ∨ (a ≠ .manager ∧ (∀ i, a ≠ .guest i) ∧ (∀ p, a ≠ .partition p)) →
      exec (.layerCommit a n) s = .next (settled s (s.emit (.busError a)))
        ∧ exec (.submission a n ctrl) s = .next (settled s (s.emit (.busError a)))
        ∧ exec (.flush a n) s = .next (settled s (s.emit (.busError a)))
        ∧ exec (.relPop a n) s = .next (settled s (s.emit (.busError a)))))
  ∧ ((∀ s (n : Fin 48) bandSt x st, s.awake = true → s.axisLocked n = true → s.contributes n = true →
      st = s.axState (s.recipe.layerAxis n) →
      x = warpTerms (s.layer n).live ((s.axisAt (s.recipe.layerAxis n) bandSt).1 - (s.layer n).pRef) → ∃ u,
      exec (.warpBand n bandSt) s = .next (settled s u)
        ∧ (u.layer n).warp.1 = max (-(64 * one32)) (min (64 * one32) x.1)
        ∧ (u.layer n).warp.2.1 = max (-(64 * one32)) (min (64 * one32) x.2.1)
        ∧ (u.layer n).warp.2.2 = max (-(2 * one32)) (min (2 * one32) x.2.2)
        ∧ ((u.layer n).warp = x → u.raised = s.raised ∧ u.fget F.CNT_CLAMP.count n = s.fget F.CNT_CLAMP.count n)
        ∧ ((u.layer n).warp ≠ x → (u.layer n).clamped = true
            ∧ u.fget F.CNT_CLAMP.count n = (s.fget F.CNT_CLAMP.count n + 1) % 2 ^ 32
            ∧ u.raised = (if (s.layer n).clamped = true ∨ st = axAcquiring ∨ st = axLost then s.raised else s.raised ++ [180]))
        ∧ OtherLayers s u n)
    ∧ (∀ s (n : Fin 48) bandSt, s.awake = false ∨ s.axisLocked n = false ∨ s.contributes n = false →
      exec (.warpBand n bandSt) s = .next (settled s s))
    ∧ (∀ s (n : Fin 48) f, s.awake = true → n.val < 8 → s.recipe.layerUsed n = true → (s.layer n).current = some f →
      (s.layer n).copying = true → s.inBlanking (s.recipe.layerOut n) = true → ∃ u,
      exec (.cursorCopyDone n) s = .next (settled s u) ∧ (u.layer n).copying = false
        ∧ (u.layer n).image = some (s.cursorImage n).1 ∧ (u.layer n).lag = (s.layer n).old.length ∧ (u.layer n).ready = none
        ∧ OtherLayers s u n)
    ∧ (∀ s (n : Fin 48) f, s.awake = true → n.val < 8 → s.recipe.layerUsed n = true → (s.layer n).current = some f →
      (s.layer n).copying = true → s.inBlanking (s.recipe.layerOut n) = false → ∃ u,
      exec (.cursorCopyDone n) s = .next (settled s u) ∧ (u.layer n).copying = false
        ∧ (u.layer n).image = (s.layer n).image ∧ (u.layer n).ready = some ((s.cursorImage n).1, (s.layer n).old.length)
        ∧ OtherLayers s u n)
    ∧ (∀ s (n : Fin 48), 8 ≤ n.val ∨ (s.layer n).copying = false → exec (.cursorCopyDone n) s = .next (settled s s)))

/-- FRAME_START, layers (R180, R187, R190, R192, R193, R200, R202): pending sets of the output become live, no stale
frame stays queued, a single eligible frame becomes current and the one it replaces is released DISPLAYED, on a
cursor layer once the new image is shown; a layer to be shed or hidden is so from now on; layers of other outputs do
not change.

FRAME_START, lock (R209 to R212, R214, R220): the measured error is shown; an error beyond one line leaves LOCKED and
reports it, the eighth small one in a row enters it; the frame index follows the frame grid, or counts frames on a
free-running output; the odd half of a pair follows the even one; and the substitute background follows the pass bit
of composition. -/
def Obligations.FrameStarts : Prop :=
  ((∀ s (o : Fin 8) fs, s.scans o = true → s.composing = true → ∃ t, exec (.frameStart o fs) s = .next t
        ∧ (∀ n, n ∈ s.recipe.layersOf o → (t.layer n).pending = none ∧ (∀ f ∈ (t.layer n).queue, s.staleAt f fs = false)
            ∧ ((s.layer n).leaving = false → (t.layer n).live = (s.layer n).pending.getD (s.layer n).live))
        ∧ (∀ n, n ∉ s.recipe.layersOf o → t.layer n = s.layer n)
        ∧ t.get64 .CMP_OUT_FS_LO .CMP_OUT_FS_HI o = fs ∧ t.ram = s.ram)
    ∧ (∀ s (o : Fin 8) fs n f g, s.scans o = true → s.composing = true → n ∈ s.recipe.layersOf o → 8 ≤ n →
      (s.layer n).leaving = false → (s.layer n).shedding = false → (s.layer n).pending = none →
      LayerSet.ctrl (s.layer n).live 1 = false → (s.layer n).current = some g → (s.layer n).queue = [f] →
      s.eligible false f fs = true → (s.layer n).rel.length < 16 → ∃ t, exec (.frameStart o fs) s = .next t
        ∧ (t.layer n).current = some f ∧ (t.layer n).queue = []
        ∧ (t.layer n).rel = (s.layer n).rel ++ [⟨g.tag, relDisplayed, fs⟩])
    ∧ (∀ s (o : Fin 8) fs n f g, s.scans o = true → s.composing = true → n ∈ s.recipe.layersOf o → n < 8 →
      (s.layer n).leaving = false → (s.layer n).shedding = false → (s.layer n).pending = none →
      LayerSet.ctrl (s.layer n).live 1 = false → (s.layer n).current = some g → (s.layer n).queue = [f] →
      s.eligible false f fs = true → ∃ t, exec (.frameStart o fs) s = .next t ∧ (t.layer n).current = some f
        ∧ (t.layer n).queue = [] ∧ (t.layer n).old = (s.layer n).old.drop (s.layer n).lag ++ [g]
        ∧ (t.layer n).copying = true)
    ∧ (∀ s (o : Fin 8) fs n f, s.scans o = true → s.composing = true → n ∈ s.recipe.layersOf o → 8 ≤ n →
      (s.layer n).leaving = false → (s.layer n).shedding = false → (s.layer n).queue = [f] → s.staleAt f fs = true →
      (s.layer n).rel.length < 16 → ∃ t, exec (.frameStart o fs) s = .next t ∧ (t.layer n).current = (s.layer n).current
        ∧ (t.layer n).queue = [] ∧ (t.layer n).rel = (s.layer n).rel ++ [⟨f.tag, relLate, fs⟩]
        ∧ t.fget F.CNT_LATE.count n = (s.fget F.CNT_LATE.count n + 1) % 2 ^ 32)
    ∧ (∀ s (o : Fin 8) fs n, s.scans o = true → s.composing = true → n ∈ s.recipe.layersOf o →
      (s.layer n).leaving = false → (s.layer n).shedding = true → ∃ t, exec (.frameStart o fs) s = .next t
        ∧ t.layerShed n = true ∧ (t.layer n).current = none ∧ (t.layer n).queue = [] ∧ (t.layer n).shedding = false
        ∧ t.hasBit (if n < 32 then .CMP_SHED_LO else .CMP_SHED_HI) (n % 32) = true)
    ∧ (∀ s (o : Fin 8) fs n, s.scans o = true → s.composing = true → n ∈ s.recipe.layersOf o →
      (s.layer n).leaving = true → (s.layer n).pending = none → (s.layer n).queue = [] → ∃ t,
      exec (.frameStart o fs) s = .next t ∧ (t.layer n).hidden = true ∧ (t.layer n).current = none
        ∧ (t.layer n).live = LayerSet.initial ∧ (t.layer n).leaving = false)
    ∧ (∀ s (o : Fin 8) fs, s.scans o = true → s.composing = false → ∃ t, exec (.frameStart o fs) s = .next t
        ∧ ∀ n, t.layer n = s.layer n)
    ∧ (∀ s (o : Fin 8) fs, s.scans o = false → exec (.frameStart o fs) s = .next (settled s s)))
  ∧ ((∀ s (o : Fin 8) fs g e, s.scans o = true → s.oddHalf o = false → s.stValid = true → s.tailRecipe.outLockSource o ≠ 0 →
      s.targetGrid o = some g → e = g.error32 fs (g.nearest fs) →
      s.lockOf o = lockLocked ∨ s.lockOf o = lockAligning → ∃ u, exec (.frameStart o fs) s = .next (settled s u)
        ∧ u.get .OUT_LOCK_ERR o = BitVec.ofInt 32 (saturate 32 (wholeNs e))
        ∧ u.get .OUT_FRAME_INDEX o = BitVec.ofInt 32 (roundDiv (stDiff fs (s.outGrid o).anchor * (s.outGrid o).den)
            ((s.outGrid o).num : Int))
        ∧ (s.lockOf o = lockLocked → (s.out o).timing.overLine e = true → u.lockOf o = lockAligning ∧ (232 + o.val) ∈ u.raised)
        ∧ (s.lockOf o = lockLocked → (s.out o).timing.overLine e = false → u.lockOf o = lockLocked)
        ∧ (s.lockOf o = lockAligning → e.natAbs ≤ 4 * 2 ^ 32 → (s.out o).good = 7 → u.lockOf o = lockLocked)
        ∧ (s.lockOf o = lockAligning → e.natAbs ≤ 4 * 2 ^ 32 → (s.out o).good < 7 →
            u.lockOf o = lockAligning ∧ (u.out o).good = (s.out o).good + 1)
        ∧ (s.lockOf o = lockAligning → 4 * 2 ^ 32 < e.natAbs → u.lockOf o = lockAligning ∧ (u.out o).good = 0)
        ∧ ((s.out o).timing.overLine e = true → (u.out o).vAdjust = (s.out o).timing.lineStep e)
        ∧ ((s.out o).timing.overLine e = false → (u.out o).vAdjust = 0 ∧ (u.out o).pclkTrim.natAbs ≤ 500
            ∧ 0 ≤ (u.out o).pclkTrim * -e.sign)
        ∧ u.flag F.OUT_STATUS.substitute o = !(s.up && s.hasBit .CMP_STATUS o) ∧ (u.out o).lastFs = fs)
    ∧ (∀ s (o : Fin 8) fs, s.scans o = true → s.oddHalf o = false → s.tailRecipe.outLockSource o = 0 ∨ s.stValid = false → ∃ t,
      exec (.frameStart o fs) s = .next t ∧ t.lockOf o = lockFreeRun ∧ t.get .OUT_FRAME_INDEX o = BitVec.ofNat 32 (s.out o).frames
        ∧ (t.out o).frames = (s.out o).frames + 1 ∧ (t.out o).lastFs = fs)
    ∧ (∀ s (o : Fin 8) fs, s.scans o = true → s.oddHalf o = true → ∃ t,
      exec (.frameStart o fs) s = .next t ∧ t.lockOf o = s.lockOf (o - 1) ∧ t.get .OUT_LOCK_ERR o = s.get .OUT_LOCK_ERR (o - 1)))

/-- OUTPUT_ENABLE, APPLY (R212 to R215): an enabled output starts its generator and its link; a disabled one drives
nothing; a timing that fits takes effect and retrains a changed output, and one that does not fit only sets
`apply_err`. The even half of a locked pair acts for both, the odd one ignores the command, and only the manager
reaches the tails, while they run.

RETRAIN, HOT_PLUG, HOT_PLUG_LOSS, TRAINING_DONE, TRAINING_RETRY (R206, R216, R217): links train on hot plug and on
request, come up or fail with their reason, and report it; a link that sleeps waits until it wakes. -/
def Obligations.OutputsAndLinks : Prop :=
  ((∀ s (o : Fin 8), LoneOutput s o → s.tailRecipe.outEnabled o = true → s.lockOf o = 0 → ∃ t,
      exec (.outputEnable .manager o true) s = .next t ∧ t.lockOf o = s.startLock o
        ∧ t.flag F.OUT_STATUS.clk_present o = true ∧ t.flag F.OUT_CTRL.enable o = true ∧ Trains s t o ∧ OtherOutputs s t o
        ∧ t.ram = s.ram)
    ∧ (∀ s (o : Fin 8), LoneOutput s o → s.tailRecipe.outEnabled o = true → s.lockOf o ≠ 0 → ∃ t,
      exec (.outputEnable .manager o false) s = .next t ∧ t.lockOf o = 0 ∧ t.linkOf o = lnkDisabled
        ∧ t.flag F.OUT_STATUS.clk_present o = false ∧ t.flag F.OUT_CTRL.enable o = false ∧ OtherOutputs s t o ∧ t.ram = s.ram)
    ∧ (∀ s (o : Fin 8) en, LoneOutput s o → s.tailRecipe.outEnabled o = true → s.outOn o = en → ∃ t,
      exec (.outputEnable .manager o en) s = .next t ∧ t.lockOf o = s.lockOf o ∧ t.linkOf o = s.linkOf o
        ∧ t.flag F.OUT_CTRL.enable o = en ∧ OtherOutputs s t o ∧ t.ram = s.ram)
    ∧ (∀ s (o : Fin 8) en, LoneOutput s o → s.tailRecipe.outEnabled o = false →
      exec (.outputEnable .manager o en) s = .next (settled s s.refreshIsl))
    ∧ (∀ s (o : Fin 8), s.clocked .OUT = true → s.tailRecipe.outPair o = true → o.val % 2 = 0 →
      s.tailRecipe.outEnabled o = true → s.tailRecipe.outEnabled (o + 1) = true → s.lockOf o = 0 → s.lockOf (o + 1) = 0 → ∃ t,
      exec (.outputEnable .manager o true) s = .next t ∧ t.lockOf o = s.startLock o ∧ t.lockOf (o.val + 1) = s.startLock (o.val + 1))
    ∧ (∀ s (o : Fin 8) en, s.clocked .OUT = true → s.oddHalf o = true →
      exec (.outputEnable .manager o en) s = .next (settled s s)
        ∧ exec (.applyTiming .manager o) s = .next (settled s s) ∧ exec (.retrain .manager o) s = .next (settled s s))
    ∧ (∀ s a (o : Fin 8) en, a ≠ .manager ∨ s.clocked .OUT = false →
      exec (.outputEnable a o en) s = .next (settled s (s.emit (.busError a)))
        ∧ exec (.applyTiming a o) s = .next (settled s (s.emit (.busError a)))
        ∧ exec (.retrain a o) s = .next (settled s (s.emit (.busError a)))
        ∧ exec (.outFrzClr a o) s = .next (settled s (s.emit (.busError a))))
    ∧ (∀ s (o : Fin 8), LoneOutput s o → s.tailRecipe.timingFits o (s.shadowTiming o) = true → ∃ t,
      exec (.applyTiming .manager o) s = .next t ∧ (t.out o).timing = s.shadowTiming o
        ∧ (s.lockOf o ≠ 0 → (s.out o).timing.shape ≠ (s.shadowTiming o).shape → (t.out o).dark = true
            ∧ t.lockOf o = s.startLock o ∧ Trains s t o)
        ∧ OtherOutputs s t o ∧ t.ram = s.ram)
    ∧ (∀ s (o : Fin 8), LoneOutput s o → s.tailRecipe.timingFits o (s.shadowTiming o) = false → ∃ t,
      exec (.applyTiming .manager o) s = .next t ∧ (t.out o).timing = (s.out o).timing ∧ t.lockOf o = s.lockOf o
        ∧ t.flag F.OUT_STATUS.apply_err o = true ∧ OtherOutputs s t o ∧ t.ram = s.ram))
  ∧ ((∀ s (o : Fin 8), LoneOutput s o → s.lockOf o ≠ 0 → ∃ t, exec (.retrain .manager o) s = .next t ∧ Trains s t o
        ∧ t.lockOf o = s.lockOf o ∧ OtherOutputs s t o ∧ t.ram = s.ram)
    ∧ (∀ s (o : Fin 8) d, s.tailRecipe.openLdi o = false → s.dom.island ≠ .inReset → s.lockOf o ≠ 0 → s.outSleeps o = false →
      ∃ t, exec (.hotPlug o d) s = .next t ∧ t.flag F.OUT_STATUS.hpd o = true ∧ (t.out o).sinkDsc = d
        ∧ t.linkOf o = (if s.tailRecipe.outDsc o ≠ 0 ∧ d = false then lnkRefused else lnkTraining) ∧ OtherOutputs s t o)
    ∧ (∀ s (o : Fin 8) d, s.tailRecipe.openLdi o = false → s.dom.island ≠ .inReset →
      s.lockOf o = 0 ∨ s.outSleeps o = true → ∃ t, exec (.hotPlug o d) s = .next t ∧ t.flag F.OUT_STATUS.hpd o = true
        ∧ (t.out o).sinkDsc = d ∧ t.linkOf o = s.linkOf o ∧ OtherOutputs s t o)
    ∧ (∀ s (o : Fin 8), s.tailRecipe.openLdi o = false → s.dom.island ≠ .inReset → s.lockOf o ≠ 0 → s.outSleeps o = false →
      s.flag F.OUT_STATUS.hpd o = true → ∃ u, exec (.hotPlugLoss o false) s = .next (settled s u)
        ∧ u.flag F.OUT_STATUS.hpd o = false ∧ u.linkOf o = lnkWaitHpd ∧ (216 + o.val) ∈ u.raised)
    ∧ (∀ s (o : Fin 8), s.tailRecipe.openLdi o = false → s.dom.island ≠ .inReset → s.linkOf o = lnkUp → ∃ u,
      exec (.hotPlugLoss o true) s = .next (settled s u) ∧ Trains s u o ∧ (216 + o.val) ∈ u.raised)
    ∧ (∀ s (o : Fin 8) d l, s.tailRecipe.openLdi o = true ∨ s.dom.island = .inReset →
      exec (.hotPlug o d) s = .next (settled s s.refreshIsl) ∧ exec (.hotPlugLoss o l) s = .next (settled s s.refreshIsl))
    ∧ (∀ s (o : Fin 8), s.linkOf o = lnkTraining → ∃ u, exec (.trainingDone o true) s = .next (settled s u)
        ∧ u.linkOf o = lnkUp ∧ u.fget F.OUT_LINK_INFO.link_rate o = s.tailRecipe.outRate o % 4096
        ∧ u.fget F.OUT_LINK_INFO.lanes o = s.tailRecipe.outLanes o % 8 ∧ (224 + o.val) ∈ u.raised)
    ∧ (∀ s (o : Fin 8), s.linkOf o = lnkTraining → ∃ u, exec (.trainingDone o false) s = .next (settled s u)
        ∧ u.linkOf o = lnkFailed ∧ u.fget F.OUT_STATUS.reason o = 2)
    ∧ (∀ s (o : Fin 8) b, s.linkOf o ≠ lnkTraining → exec (.trainingDone o b) s = .next (settled s s.refreshIsl))
    ∧ (∀ s (o : Fin 8), s.linkOf o = lnkFailed → ∃ t, exec (.trainingRetry o) s = .next t ∧ Trains s t o ∧ t.ram = s.ram)
    ∧ (∀ s (o : Fin 8), s.linkOf o ≠ lnkFailed → exec (.trainingRetry o) s = .next (settled s s)))

/-- FRAME_START, freeze detector, OUT_FRZ_CLR, GENLOCK_REFERENCE_LOSS, LINE_END, underrun and pixels (R77, R212, R218
to R220): signatures that do not change when they should are counted up to the limit and reported once; outputs
without their reference hold; an underrun line is counted and reported once a frame; an output on the substitute
background sends its pixels. -/
def Obligations.FreezeAndUnderrun : Prop :=
  (∀ s (o : Fin 8) fs, s.scans o = true → frzOn (s.out o).frzCtrl = true → (s.out o).shouldChange = true →
    (s.out o).sigKnown = true → (s.out o).sigs = (s.out o).signatures →
    s.fget F.OUT_FRZ_COUNT.count o + 1 = F.OUT_FRZ_CTRL.frames.of (s.out o).frzCtrl → s.flag F.OUT_STATUS.frozen o = false →
    ∃ u, exec (.frameStart o fs) s = .next (settled s u) ∧ u.flag F.OUT_STATUS.frozen o = true
      ∧ u.fget F.OUT_FRZ_COUNT.count o = F.OUT_FRZ_CTRL.frames.of (s.out o).frzCtrl ∧ (208 + o.val) ∈ u.raised)
  ∧ (∀ s (o : Fin 8) fs, s.scans o = true → frzOn (s.out o).frzCtrl = true → (s.out o).shouldChange = true →
    (s.out o).sigKnown = true → (s.out o).sigs ≠ (s.out o).signatures → ∃ t, exec (.frameStart o fs) s = .next t
      ∧ t.flag F.OUT_STATUS.frozen o = false ∧ t.fget F.OUT_FRZ_COUNT.count o = 0
      ∧ (t.out o).sigs = (s.out o).signatures)
  ∧ (∀ s (o : Fin 8) fs k, s.scans o = true → k < 4 → ∃ t, exec (.frameStart o fs) s = .next t
      ∧ t.get .OUT_FRZ_SIG o k = (s.out o).signatures.getD k 0)
  ∧ (∀ s (o : Fin 8), s.clocked .OUT = true → exec (.outFrzClr .manager o) s =
    .next (settled s ((s.fset F.OUT_FRZ_COUNT.count 0 o).fset F.OUT_STATUS.frozen 0 o)))
  ∧ (∀ s (i : Fin 2), ∃ u, exec (.genlockReferenceLoss i) s = .next (settled s u) ∧ (u.genIn i).run = 0
      ∧ (u.genIn i).lost = true ∧ (∀ o, o ∈ s.genOutputs i → u.lockOf o = lockHold)
      ∧ (∀ o, o ∉ s.genOutputs i → u.lockOf o = s.lockOf o)
      ∧ (∀ o, o ∈ s.genOutputs i → s.lockOf o = lockLocked → (232 + o) ∈ u.raised)
      ∧ (s.timeSource = srcGenlock → s.recipe.timePort = i.val → u.flag F.TIME_STATUS.clk_present = false))
  ∧ (∀ s (o : Fin 8) b, s.scans o = true → s.underruns o b = true → ∃ u, exec (.lineEnd o b) s = .next (settled s u)
      ∧ u.fget F.OUT_UNDERRUN_COUNT.count o = (s.fget F.OUT_UNDERRUN_COUNT.count o + 1) % 2 ^ 32
      ∧ u.fget F.OUT_UNDERRUN_LINE.line o = b.line % 65536 ∧ (u.out o).underrunFrame = true
      ∧ ((s.out o).underrunFrame = false → u.flag F.OUT_STATUS.underrun o = true ∧ (200 + o.val) ∈ u.raised))
  ∧ (∀ s (o : Fin 8) b, s.scans o = true → s.underruns o b = false → ∃ u, exec (.lineEnd o b) s = .next (settled s u)
      ∧ u.fget F.OUT_UNDERRUN_COUNT.count o = s.fget F.OUT_UNDERRUN_COUNT.count o
      ∧ (u.out o).underrunFrame = (s.out o).underrunFrame)
  ∧ (∀ s (o : Fin 8) b, s.scans o = true → 1 ≤ b.line → b.line ≤ (s.out o).timing.vActive → s.linkOf o = lnkUp →
    (s.out o).dark = false → s.flag F.OUT_STATUS.substitute o = true → s.mixes o = false → ∃ u,
    exec (.lineEnd o b) s = .next (settled s u)
      ∧ u.sent = .scanLine o b.line ((List.replicate (s.out o).timing.hActive (s.substitutePx o)).zipIdx.map
          (fun e => e.1 ^^^ errAt b.phyErr e.2)) :: s.sent)
  ∧ (∀ s (o : Fin 8) b, s.scans o = false → exec (.lineEnd o b) s = .next (settled s s))

/-- CHECKPOINT, LOCKSTEP_ERROR, PAIR_SWITCH, PAIR_SELF_TEST, SRAM_CORRECTED_ERROR (R222 to R225, R240): the older
checkpoint is overwritten and acknowledges the events seen; a lockstep error switches to the standby pair, which
resumes from the newest checkpoint and does the work since once more, and without one stops the firmware and lowers
ISL_OK; a pair that passes its self-test becomes standby or resumes the firmware, and the third failure within a
second holds it. -/
def Obligations.LockstepPairs : Prop :=
  (∀ s, s.islWorks = true → ∃ u, exec .checkpoint s = .next (settled s u)
      ∧ u.isl.ckpt = (if s.isl.ckptNew then (s.checkpointNow, s.isl.ckpt.2) else (s.isl.ckpt.1, s.checkpointNow))
      ∧ u.isl.ckptNew = !s.isl.ckptNew ∧ u.isl.work = [] ∧ u.isl.seen = []
      ∧ (∀ n, n ∈ u.isl.pend ↔ n ∈ s.isl.pend ∧ n ∉ s.isl.seen) ∧ u.isl.glaze = s.isl.glaze ∧ u.regs = s.regs)
  ∧ (∀ s, s.islWorks = false → exec .checkpoint s = .next (settled s s) ∧ exec .islandPass s = .next (settled s s))
  ∧ (∀ s, s.islRuns = false → exec .lockstepError s = .next (settled s s) ∧ exec .pairSwitch s = .next (settled s s))
  ∧ (∀ s, s.islRuns = true → s.flag F.ISL_STATUS.standby_ok = true → ∃ u, exec .lockstepError s = .next (settled s u)
      ∧ u.isl.switching = true ∧ u.flag F.ISL_STATUS.standby_ok = false ∧ u.isl.firmware = true ∧ u.dom.islOkPin = true
      ∧ (s.isl.switching = false → (u.pair (s.fget F.ISL_STATUS.active_pair)).fails.head? = some s.islandTime))
  ∧ (∀ s, s.islRuns = true → s.flag F.ISL_STATUS.standby_ok = false → ∃ u, exec .lockstepError s = .next (settled s u)
      ∧ u.isl.firmware = false ∧ u.isl.switching = false ∧ u.dom.islOkPin = false ∧ u.flag F.ISL_STATUS.isl_ok = false)
  ∧ (∀ s, s.islRuns = true → s.isl.switching = true → ∃ u, exec .pairSwitch s = .next (settled s u)
      ∧ u.isl.switching = false ∧ u.isl.firmware = true
      ∧ u.fget F.ISL_STATUS.active_pair = 1 - s.fget F.ISL_STATUS.active_pair
      ∧ u.fget F.ISL_PAIR_SWITCH_COUNT.count = (s.fget F.ISL_PAIR_SWITCH_COUNT.count + 1) % 2 ^ 32
      ∧ u.isl.indications = s.isl.work.filterMap (fun w => match w with | .ind x => some x | _ => none) ++ s.isl.indications
      ∧ 120 ∈ u.raised)
  ∧ (∀ s, s.islRuns = true → s.isl.switching = false → exec .pairSwitch s = .next (settled s s))
  ∧ (∀ s (p : Fin 2), (s.pair p).testing = true → s.dom.island = .running →
    (s.isl.switching = false ∨ p.val ≠ s.fget F.ISL_STATUS.active_pair) → s.isl.firmware = true →
    exec (.pairSelfTest p true) s = .next (settled s ((s.setPair p
      { s.pair p with testing := false, loaded := some s.newest }).fset F.ISL_STATUS.standby_ok 1)))
  ∧ (∀ s (p : Fin 2), (s.pair p).testing = true → s.dom.island = .running → s.isl.switching = false →
    s.isl.firmware = false → s.pwr.state < 3 → ∃ u, exec (.pairSelfTest p true) s = .next (settled s u)
      ∧ u.isl.firmware = true ∧ u.fget F.ISL_STATUS.active_pair = p.val ∧ u.dom.islOkPin = true)
  ∧ (∀ s (p : Fin 2), (s.pair p).testing = true → s.dom.island = .running → s.isl.switching = false →
    (s.pair p).held = false → 3 ≤ (recentFails s.islandTime (s.pair p).fails).length → ∃ u,
    exec (.pairSelfTest p false) s = .next (settled s u) ∧ (u.pair p).held = true ∧ (u.pair p).testing = false
      ∧ u.raised = s.raised ++ [121])
  ∧ (∀ s (p : Fin 2), (s.pair p).testing = true → s.dom.island = .running → s.isl.switching = false →
    (s.pair p).held = false → (recentFails s.islandTime (s.pair p).fails).length < 3 → ∃ u,
    exec (.pairSelfTest p false) s = .next (settled s u) ∧ (u.pair p).held = false ∧ (u.pair p).testing = true
      ∧ (u.pair p).fails = recentFails s.islandTime (s.pair p).fails ∧ u.raised = s.raised)
  ∧ (∀ s (p : Fin 2) ok, (s.pair p).testing = false → exec (.pairSelfTest p ok) s = .next (settled s s))
  ∧ (∀ s, s.dom.island ≠ .inReset → exec .sramCorrectedError s =
    .next (settled s ((s.bump F.ISL_SRAM_CE_COUNT.count).raise 129)))
  ∧ (∀ s, s.dom.island = .inReset → exec .sramCorrectedError s = .next (settled s s))

/-- GLZ_EDIT, GLZ_COMMIT, GLZ_READ, MAIN_ALIVE, STATUS, RNG_READ, SEAL, UNSEAL, DBG_STATE, ISL_MBOX_RX_POP (R234,
R235, R244, R245, R276): what each message answers and with which status, that a channel carries one message at a
time, and that a message waits while no pair does the work. -/
def Obligations.IslandMailbox : Prop :=
  (∀ s (c : Fin 2) seq, MailReady s c → ∃ u, exec (.status c seq) s = .next (settled s u)
      ∧ Replied s u c 5 0 seq s.statusBytes)
  ∧ (∀ s (c : Fin 2) seq o i r, MailReady s c → s.hasList o = true → recordAt (s.glzCopy o).back.normal i = some r → ∃ u,
    exec (.glzRead c seq o i) s = .next (settled s u) ∧ Replied s u c 3 0 seq r.2)
  ∧ (∀ s (c : Fin 2) seq o i, MailReady s c →
    s.hasList o = false ∨ recordAt (s.glzCopy o).back.normal i = none → ∃ u,
    exec (.glzRead c seq o i) s = .next (settled s u) ∧ Replied s u c 3 2 seq [])
  ∧ (∀ s (c : Fin 2) seq imm o i off b, MailReady s c → ∃ u, exec (.glzEdit c seq imm o i off b) s = .next (settled s u)
      ∧ Replied s u c 1 (s.editStatus o i off b) seq []
      ∧ (s.editStatus o i off b = 0 → ∀ r,
          ((u.glz o).rend r).copy.back.normal = patchRecord ((s.glz o).rend r).copy.back.normal i off b
          ∧ ((u.glz o).rend r).copy.front.normal = (if imm then patchRecord ((s.glz o).rend r).copy.front.normal i off b
              else ((s.glz o).rend r).copy.front.normal))
      ∧ (s.editStatus o i off b ≠ 0 → u.isl.glaze = s.isl.glaze))
  ∧ (∀ s (c : Fin 2) seq (mask : Byte), MailReady s c → (∃ o, o < 8 ∧ mask.getLsbD o = true) →
    (∀ o, o < 8 → mask.getLsbD o = true → s.hasList o = true ∧ s.scans o = true) → ∃ u,
    exec (.glzCommit c seq mask) s = .next (settled s u) ∧ u.mailRx c = s.mailRx c
      ∧ (∀ o, o < 8 → mask.getLsbD o = true → (u.glz o).commits = (s.glz o).commits ++ [{ s.snap o with
          lists := { (s.snap o).lists with normal := (s.glzCopy o).back.normal }, chans := [c.val] }])
      ∧ (∀ o, o < 8 → mask.getLsbD o = false → u.glz o = s.glz o))
  ∧ (∀ s (c : Fin 2) seq (mask : Byte) o, MailReady s c → o < 8 → mask.getLsbD o = true → s.hasList o = false → ∃ u,
    exec (.glzCommit c seq mask) s = .next (settled s u) ∧ Replied s u c 2 2 seq [] ∧ u.isl.glaze = s.isl.glaze)
  ∧ (∀ s (c : Fin 2) seq, MailReady s c → ∃ u,
    exec (.glzCommit c seq 0) s = .next (settled s u) ∧ Replied s u c 2 0 seq [] ∧ u.isl.glaze = s.isl.glaze)
  ∧ (∀ s seq, MailReady s 0 → ∃ u, exec (.mainAlive 0 seq) s = .next (settled s u) ∧ u.isl.alive = true
      ∧ u.flag F.ISL_MBOX_STATUS.tx_busy 0 = false
      ∧ u.dom.mainOkPin = (s.up && s.admitted && decide (s.pwr.state < 3)))
  ∧ (∀ s seq n, MailReady s 1 → 1 ≤ n → n ≤ 32 → ∃ u b, exec (.rngRead 1 seq n) s = .next (settled s u)
      ∧ Replied s u 1 16 0 seq b ∧ b.length = n)
  ∧ (∀ s seq n, MailReady s 1 → n = 0 ∨ 32 < n → ∃ u, exec (.rngRead 1 seq n) s = .next (settled s u)
      ∧ Replied s u 1 16 2 seq [])
  ∧ (∀ s seq plain, MailReady s 1 → 1 ≤ plain.length → plain.length ≤ 200 → ∃ u iv,
    exec (.seal 1 seq plain) s = .next (settled s u)
      ∧ Replied s u 1 17 0 seq (leBytes 12 (BitVec.toNat iv) ++ Config.sealData iv plain))
  ∧ (∀ s seq plain, MailReady s 1 → plain.length = 0 ∨ 200 < plain.length → ∃ u,
    exec (.seal 1 seq plain) s = .next (settled s u) ∧ Replied s u 1 17 2 seq [])
  ∧ (∀ s seq x, MailReady s 1 → ∃ u, exec (.unseal 1 seq x) s = .next (settled s u)
      ∧ (∀ plain, Config.unsealData x = some plain → Replied s u 1 18 0 seq plain)
      ∧ (Config.unsealData x = none → Replied s u 1 18 2 seq []))
  ∧ (∀ s seq, MailReady s 1 → ∃ u, exec (.dbgState 1 seq) s = .next (settled s u)
      ∧ Replied s u 1 19 0 seq (leBytes 1 ((s.get .CPX_DBG_EN).toNat % 16)))
  ∧ (∀ s seq imm o i n mask b e, MailReady s 0 → e ∈ mailCommands 0 seq imm o i n mask b → 16 ≤ e.2.cmd → ∃ u,
    exec e.1 s = .next (settled s u) ∧ Replied s u 0 e.2.cmd 5 seq [])
  ∧ (∀ s seq, MailReady s 1 → ∃ u, exec (.mainAlive 1 seq) s = .next (settled s u) ∧ Replied s u 1 4 5 seq [])
  ∧ (∀ s (c : Fin 2) seq imm o i n mask b e, e ∈ mailCommands c seq imm o i n mask b →
    s.clocked .ISL = false ∨ s.flag F.ISL_MBOX_STATUS.tx_busy c = true → exec e.1 s = .next (settled s s))
  ∧ (∀ s (c : Fin 2) seq imm o i n mask b e, e ∈ mailCommands c seq imm o i n mask b → s.clocked .ISL = true →
    s.flag F.ISL_MBOX_STATUS.tx_busy c = false → s.islWorks = false → ∃ u,
    exec e.1 s = .next (settled s u) ∧ u.flag F.ISL_MBOX_STATUS.tx_busy c = true ∧ u.mailRx c = s.mailRx c
      ∧ Tbl.get none u.isl.mail c = some e.2 ∧ u.isl.glaze = s.isl.glaze)
  ∧ (∀ s (c : Fin 2) a, s.clocked .ISL = true → mailOwner a c = true → ∃ t, exec (.islMboxRxPop a c) s = .next t
      ∧ t.mailRx c = (s.mailRx c).drop 1 ∧ t.flag F.ISL_MBOX_STATUS.rx_valid c = !((s.mailRx c).drop 1).isEmpty
      ∧ t.ram = s.ram)
  ∧ (∀ s (c : Fin 2) a, s.clocked .ISL = false ∨ (a ≠ .manager ∧ a ≠ .inner) →
    exec (.islMboxRxPop a c) s = .next (settled s (s.emit (.busError a))))
  ∧ (∀ s (c : Fin 2) a, s.clocked .ISL = true → a = .manager ∨ a = .inner → mailOwner a c = false →
    exec (.islMboxRxPop a c) s = .next (settled s s))

/-- COMMIT_TAKES_EFFECT, ISLAND_PASS, RENDERER_RELOAD, MAIN_ALIVE_TIMEOUT, GLAZE_STATUS_WORD (R223, R234, R236, R238
to R241): the oldest commit shows, in both halves of a pair; a pass takes everything that waited and sees the events
pending; a failed renderer reloads the active one's copy; the watchdog lowers MAIN_OK; the status word has odd parity
and counts.

LINE_END, renderers (R237, R238): a lockstep error of the active renderer, or a line that differs from what reaches
the PHY, hands over to the standby, and without one the output stops mixing; a good line sets `check_ok`; a second
mismatch right after the switch is a path fault; a standby that differs fails. -/
def Obligations.GlazeCommitsAndRenderers : Prop :=
  ((∀ s (o : Fin 8) c rest, s.tailRecipe.outPair o = false → s.scans o = true → (s.glz o).commits = c :: rest → ∃ u,
      exec (.commitTakesEffect o) s = .next (settled s u) ∧ u.fget F.ISL_GLAZE_STATUS.page o = c.page % 4
        ∧ rest <+: (u.glz o).commits
        ∧ ∀ r, ((u.glz o).rend r).copy.front = c.lists ∧ ((u.glz o).rend r).copy.assets = c.assets
          ∧ ((u.glz o).rend r).copy.back = ((s.glz o).rend r).copy.back)
    ∧ (∀ s (o : Fin 8) e c d rest more, s.tailRecipe.outPair o = true → e = o.val - o.val % 2 → s.scans e = true →
      s.scans (e + 1) = true → (s.glz e).commits = c :: rest → (s.glz (e + 1)).commits = d :: more → ∃ u,
      exec (.commitTakesEffect o) s = .next (settled s u)
        ∧ ∀ r, ((u.glz e).rend r).copy.front = c.lists ∧ ((u.glz (e + 1)).rend r).copy.front = d.lists)
    ∧ (∀ s (o : Fin 8), s.tailRecipe.outPair o = false → (s.glz o).commits = [] →
      exec (.commitTakesEffect o) s = .next (settled s s.refreshIsl))
    ∧ (∀ s, s.islWorks = true → ∃ u, exec .islandPass s = .next (settled s u) ∧ u.isl.indications = [] ∧ u.isl.touches = []
        ∧ u.isl.again = [] ∧ u.isl.seen = s.isl.pend ∧ u.isl.pend = s.isl.pend ∧ s.isl.work <+: u.isl.work
        ∧ ∀ o, o < 8 → (u.glz o).hbDue = false ∧ (u.glz o).hbPhase = ((s.glz o).hbPhase != (s.glz o).hbDue))
    ∧ (∀ s (o : Fin 8) (r : Fin 2), s.rendState o r = 3 → ((s.glz o).rend r).held = false → s.rendState o (1 - r.val) = 1 →
      exec (.rendererReload o r) s = .next (settled s (s.setGlz o ((s.glz o).withRend r
        { (s.glz o).rend r with copy := ((s.glz o).rend (1 - r.val)).copy, checking := true, equal := true }))))
    ∧ (∀ s (o : Fin 8) (r : Fin 2), s.rendState o r ≠ 3 ∨ ((s.glz o).rend r).held = true ∨ s.rendState o (1 - r.val) ≠ 1 →
      exec (.rendererReload o r) s = .next (settled s s))
    ∧ (∀ s, ∃ u, exec .mainAliveTimeout s = .next (settled s u) ∧ u.isl.alive = false ∧ u.dom.mainOkPin = false
        ∧ u.flag F.ISL_STATUS.main_ok = false)
    ∧ (∀ s, s.dom.island ≠ .inReset → s.pwr.state < 3 → ∃ u, exec .glazeStatusWord s = .next (settled s u)
        ∧ u.sent = .glazeWord s.glazeWord :: s.sent ∧ u.isl.wordCount = s.isl.wordCount + 1 ∧ u.isl.word = s.glazeWord)
    ∧ (∀ s, s.dom.island = .inReset ∨ 3 ≤ s.pwr.state → exec .glazeStatusWord s = .next (settled s s))
    ∧ (∀ s : State, ((List.range 16).map (bit s.glazeWord.toNat)).sum % 2 = 1))
  ∧ ((∀ s (o : Fin 8) b a x, Checked s o → a = s.fget F.ISL_GLAZE_STATUS.active o → s.rendState o (1 - a) = 2 →
      x = lineSeen s o b → (b.activeLockstep = true ∨ (x.active ≠ x.phy ∧ (s.glz o).switched = false)) → ∃ u,
      exec (.lineEnd o b) s = .next (settled s u) ∧ u.rendState o (1 - a) = 1
        ∧ u.rendState o a = 3 ∧ u.fget F.ISL_GLAZE_STATUS.active o = 1 - a ∧ (u.glz o).switched = true ∧ 122 ∈ u.raised)
    ∧ (∀ s (o : Fin 8) b a x, Checked s o → a = s.fget F.ISL_GLAZE_STATUS.active o → s.rendState o (1 - a) ≠ 1 →
      s.rendState o (1 - a) ≠ 2 → x = lineSeen s o b →
      (b.activeLockstep = true ∨ (x.active ≠ x.phy ∧ (s.glz o).switched = false)) → ∃ u,
      exec (.lineEnd o b) s = .next (settled s u) ∧ u.rendState o a = 3 ∧ u.mixes o = false
        ∧ u.flag F.ISL_GLAZE_STATUS.mixing o = false)
    ∧ (∀ s (o : Fin 8) b x, Checked s o → b.activeLockstep = false → x = lineSeen s o b → x.active ≠ x.phy →
      (s.glz o).switched = true → ∃ u,
      exec (.lineEnd o b) s = .next (settled s u) ∧ u.flag F.ISL_GLAZE_STATUS.path_fault o = true
        ∧ u.flag F.ISL_GLAZE_STATUS.check_ok o = false ∧ 124 ∈ u.raised
        ∧ u.fget F.ISL_GLAZE_STATUS.active o = s.fget F.ISL_GLAZE_STATUS.active o
        ∧ u.fget F.ISL_LINE_MISMATCH_COUNT.count = (s.fget F.ISL_LINE_MISMATCH_COUNT.count + 1) % 2 ^ 32)
    ∧ (∀ s (o : Fin 8) b a x, Checked s o → a = s.fget F.ISL_GLAZE_STATUS.active o → b.activeLockstep = false →
      x = lineSeen s o b → x.active = x.phy → s.rendState o (1 - a) = 2 → (b.standbyLockstep = true ∨ x.other ≠ x.active) → ∃ u,
      exec (.lineEnd o b) s = .next (settled s u) ∧ u.rendState o (1 - a) = 3 ∧ u.fget F.ISL_GLAZE_STATUS.active o = a
        ∧ 123 ∈ u.raised)
    ∧ (∀ s (o : Fin 8) b a x, Checked s o → a = s.fget F.ISL_GLAZE_STATUS.active o → b.activeLockstep = false →
      x = lineSeen s o b → x.active = x.phy →
      (s.rendState o (1 - a) = 2 → b.standbyLockstep = false ∧ x.other = x.active) → ∃ u,
      exec (.lineEnd o b) s = .next (settled s u) ∧ u.flag F.ISL_GLAZE_STATUS.check_ok o = true
        ∧ u.get .ISL_LINE_MISMATCH_COUNT = s.get .ISL_LINE_MISMATCH_COUNT)
    ∧ (∀ s (o : Fin 8) b, s.mixes o = false ∨ s.outSleeps o = true → ∃ u,
      exec (.lineEnd o b) s = .next (settled s u) ∧ u.glz o = s.glz o))

/-- DRAM_REQUEST (R20, R21, R254, R258, R262, R269, R271): SRAM answers at once, DRAM queues the request for its
channel, the Boot ROM answers a read, a range outside memory gets an error response, a channel that is down an
uncorrectable error, a request without the world of its region is captured and refused, and a core's access that its
translation stops is an exception of the core.

TRANSACTION_COMPLETE (R254, R256 to R258, R260, R261): a write stores its bytes and nothing else, a read returns
memory's, the credit goes down by the bytes moved, and an uncorrectable error stores nothing, is captured and
answered with an error. -/
def Obligations.MemoryTransactions : Prop :=
  ((∀ s r (addr : BitVec 64) len b fill q pa, Served s r false addr len q pa → s.admitReq q pa len = .sram → ∃ u,
      exec (.dramRequest r false addr len b fill) s = .next (settledMem s [] u)
        ∧ u.sent = .response s.mem.nextId (s.readBytes pa len) false :: s.sent ∧ u.mem.nextId = s.mem.nextId + 1
        ∧ u.regs = s.regs)
    ∧ (∀ s r (addr : BitVec 64) len b fill q pa, Served s r true addr len q pa → s.admitReq q pa len = .sram → ∃ u,
      exec (.dramRequest r true addr len b fill) s = .next (settledMem s [(pa, dataOf b len)] u)
        ∧ u.sent = .response s.mem.nextId [] false :: s.sent ∧ u.regs = s.regs)
    ∧ (∀ s r (addr : BitVec 64) len b fill q pa, Served s r true addr len q pa → b.length = len →
      s.admitReq q pa len = .sram → ∃ t, exec (.dramRequest r true addr len b fill) s = .next t
        ∧ (∀ k, k < len → t.readByte (pa + k) = b.getD k 0)
        ∧ (∀ a, a < pa ∨ pa + len ≤ a → t.readByte a = s.readByte a))
    ∧ (∀ s r w (addr : BitVec 64) len b fill q pa, Served s r w addr len q pa → MemQueuesOk s →
      s.admitReq q pa len = .dram → ∃ u d,
      exec (.dramRequest r w addr len b fill) s = .next (settledMem s [] u)
        ∧ d ∈ u.mem.waiting ++ u.mem.inFlight ∧ d.id = s.mem.nextId ∧ d.addr = pa ∧ d.len = len ∧ d.write = w
        ∧ d.bytes = dataOf b len ∧ d.req = q ∧ d.chan = (s.placeOf pa).chan ∧ u.sent = s.sent)
    ∧ (∀ s r w (addr : BitVec 64) len b fill q pa, Served s r w addr len q pa → s.admitReq q pa len = .rom → ∃ u x,
      exec (.dramRequest r w addr len b fill) s = .next (settledMem s [] u)
        ∧ u.sent = .response s.mem.nextId x w :: s.sent ∧ x.length = (if w then 0 else len))
    ∧ (∀ s r w (addr : BitVec 64) len b fill q pa, Served s r w addr len q pa → s.admitReq q pa len = .error → ∃ u,
      exec (.dramRequest r w addr len b fill) s = .next (settledMem s [] u)
        ∧ u.sent = .response s.mem.nextId [] true :: s.sent ∧ u.raised = s.raised ∧ u.regs = s.regs)
    ∧ (∀ s r w (addr : BitVec 64) len b fill q pa, Served s r w addr len q pa → s.admitReq q pa len = .down → ∃ u,
      exec (.dramRequest r w addr len b fill) s = .next (settledMem s [] u)
        ∧ u.sent = .response s.mem.nextId [] true :: s.sent ∧ u.raised = s.raised ++ [240]
        ∧ u.fget F.MEM_ERR_INFO.type_ = ueChannelDown)
    ∧ (∀ s r w (addr : BitVec 64) len b fill q pa, Served s r w addr len q pa → s.admitReq q pa len = .fence → ∃ u,
      exec (.dramRequest r w addr len b fill) s = .next (settledMem s [] u)
        ∧ u.get64 .CPX_FENCE_VIOL_ADDR_LO .CPX_FENCE_VIOL_ADDR_HI = BitVec.ofNat 64 (pa % 2 ^ 48)
        ∧ u.flag F.CPX_FENCE_VIOL_INFO.valid = true ∧ u.flag F.CPX_FENCE_VIOL_INFO.write = w
        ∧ u.fget F.CPX_FENCE_VIOL_INFO.requester = q.unit.val ∧ u.fget F.CPX_FENCE_VIOL_INFO.owner = q.owner.toNat
        ∧ u.raised = s.raised ++ [7]
        ∧ (isDemand q = false → u.sent = .response s.mem.nextId [] true :: s.sent)
        ∧ (isDemand q = true → u.sent = .coreTrap q.unit (accessKind q w).accessFault :: s.sent))
    ∧ (∀ s r w (addr : BitVec 64) len b fill q f, s.memRuns = true → q = s.knownRequester r → s.requesterRuns q = true →
      s.physical q w addr.toNat len = .error (f, none) → ∃ u,
      exec (.dramRequest r w addr len b fill) s = .next (settledMem s [] u) ∧ u.sent = .coreTrap q.unit f.cause :: s.sent
        ∧ u.mem = s.mem ∧ u.regs = s.regs)
    ∧ (∀ s r w (addr : BitVec 64) len b fill, s.memRuns = false ∨ s.requesterRuns (s.knownRequester r) = false →
      exec (.dramRequest r w addr len b fill) s = .next (settledMem s [] s)))
  ∧ ((∀ s id q, s.flying id = some q → q.write = true → ∃ u, exec (.transactionComplete id .clean) s =
      .next (settledMem s [(q.addr, q.bytes)] u) ∧ u.sent = .response id [] false :: s.sent
        ∧ u.credit q.req.port = s.credit q.req.port - q.len
        ∧ ((∀ w ∈ s.mem.waiting, w.id ≠ id) → ∀ w ∈ u.mem.inFlight, w.id ≠ id))
    ∧ (∀ s id q, s.flying id = some q → q.write = false → ∃ u, exec (.transactionComplete id .clean) s =
      .next (settledMem s [] u) ∧ u.sent = .response id (s.readBytes q.addr q.len) false :: s.sent
        ∧ u.credit q.req.port = s.credit q.req.port - q.len)
    ∧ (∀ s id q, s.flying id = some q → q.write = false → s.hasBit .MEM_LINK_ECC q.chan = true → ∃ u,
      exec (.transactionComplete id .linkRead) s = .next (settledMem s [] u) ∧ u.sent = .response id [] true :: s.sent
        ∧ u.get64 .MEM_ERR_ADDR_LO .MEM_ERR_ADDR_HI = BitVec.ofNat 64 (q.addr % 2 ^ 48 / 64 * 64)
        ∧ u.fget F.MEM_ERR_INFO.type_ = 1 ∧ 240 ∈ u.raised)
    ∧ (∀ s id q, s.flying id = some q → q.write = true → s.hasBit .MEM_LINK_ECC q.chan = true → ∃ u,
      exec (.transactionComplete id .linkWriteTwice) s = .next (settledMem s [] u) ∧ u.sent = .response id [] true :: s.sent
        ∧ u.fget F.MEM_ERR_INFO.type_ = 2 ∧ 240 ∈ u.raised)
    ∧ (∀ s id q, s.flying id = some q → s.inlineEcc q.addr = true → ∃ u,
      exec (.transactionComplete id .inlineDouble) s = .next (settledMem s [] u) ∧ u.sent = .response id [] true :: s.sent
        ∧ u.fget F.MEM_ERR_INFO.type_ = 3 ∧ 240 ∈ u.raised)
    ∧ (∀ s id q, s.flying id = some q → s.hasBit .MEM_LINK_ECC q.chan = true → ∃ t,
      exec (.transactionComplete id .linkCorrected) s = .next t ∧ t.get .MEM_CE_COUNT = s.get .MEM_CE_COUNT + 1)
    ∧ (∀ s id e, s.flying id = none → exec (.transactionComplete id e) s = .next (settledMem s [] s)))

/-- CREDIT_WINDOW, ROW_IDLE_CLOSE, PER_BANK_REFRESH, RETRAINING_PAUSE, RETRAIN_REPEAT (R250 to R252, R256, R262,
R264): credits are renewed, idle rows close, heat is reported, channels pause in their turn, and one that fails its
retraining twice goes down with every access on it. -/
def Obligations.ChannelsAndCredit : Prop :=
  (∀ s, s.awake = true → ∃ t, exec .creditWindow s = .next t
      ∧ (∀ p, p < 24 → t.credit p = ((s.get .MEM_PORT_RESERVE p).toNat * 100 : Nat)) ∧ t.mem.inFlight = s.mem.inFlight
      ∧ t.ram = s.ram)
  ∧ (∀ s, s.awake = false → exec .creditWindow s = .next (settled s s))
  ∧ (∀ s (ch : Fin 32) (b : Fin 16), s.rowIdle (ch.val * 16 + b.val) = true → exec (.rowIdleClose ch b) s =
    .next (settled s { s with mem := { s.mem with openRow := Tbl.set none s.mem.openRow (ch.val * 16 + b.val) none } }))
  ∧ (∀ s (ch : Fin 32) (b : Fin 16), s.rowIdle (ch.val * 16 + b.val) = false →
    exec (.rowIdleClose ch b) s = .next (settled s s))
  ∧ (∀ s (ch : Fin 32) b, s.mayPause ch = true → ∃ u,
    exec (.perBankRefresh ch b true) s = .next (settled s u) ∧ u.flag F.MEM_STATUS.hot = true ∧ ch.val ∈ u.mem.hot
      ∧ u.raised = (if s.flag F.MEM_STATUS.hot then s.raised else s.raised ++ [246]))
  ∧ (∀ s (ch : Fin 32) b, s.mayPause ch = true → ∃ u,
    exec (.perBankRefresh ch b false) s = .next (settled s u) ∧ ch.val ∉ u.mem.hot ∧ u.raised = s.raised
      ∧ u.flag F.MEM_STATUS.hot = !(NSet.erase s.mem.hot ch).isEmpty)
  ∧ (∀ s (ch : Fin 32) b x, s.mayPause ch = false → exec (.perBankRefresh ch b x) s = .next (settled s s)
      ∧ exec (.retrainingPause ch x) s = .next (settled s s) ∧ exec (.retrainRepeat ch x) s = .next (settled s s))
  ∧ (∀ s (ch : Fin 32) x, s.pauseDue ch = false → exec (.retrainingPause ch x) s = .next (settled s s))
  ∧ (∀ s (ch : Fin 32), s.mayPause ch = true → s.pauseDue ch = true → ∃ u,
    exec (.retrainingPause ch false) s = .next (settled s u) ∧ ch.val ∈ u.mem.failedOnce ∧ u.raised = s.raised ++ [242])
  ∧ (∀ s (ch : Fin 32), s.mayPause ch = true → s.pauseDue ch = true → ∃ t,
    exec (.retrainingPause ch true) s = .next t ∧ t.mem.failedOnce = s.mem.failedOnce ∧ ch.val ∉ t.mem.exiting)
  ∧ (∀ s (ch : Fin 32), s.mayPause ch = true → s.mem.failedOnce.contains ch.val = true → ∃ u,
    exec (.retrainRepeat ch false) s = .next (settled s u) ∧ u.hasBit .MEM_CHAN_ACTIVE ch = false
      ∧ u.hasBit .MEM_CHAN_DOWN ch = true ∧ (∀ q ∈ u.mem.inFlight ++ u.mem.waiting, q.chan ≠ ch.val) ∧ 243 ∈ u.raised)
  ∧ (∀ s (ch : Fin 32), s.mayPause ch = true → s.mem.failedOnce.contains ch.val = true →
    exec (.retrainRepeat ch true) s = .next (settled s { s with mem := { s.mem with
      failedOnce := NSet.erase s.mem.failedOnce ch.val } }))
  ∧ (∀ s (ch : Fin 32) x, s.mem.failedOnce.contains ch.val = false → exec (.retrainRepeat ch x) s = .next (settled s s))

/-- VERSION, ENTER, RETURN, DBG_LOWER, FENCE_QUERY (R274, R275, R280): each service from the world that may call it,
and the status of one that may not; a core that does not run executes nothing.

PARTITION_SERVICE (R267, R273, R275): the word of a WCALL calls the service of its bits 31 to 20: the monitor's own,
the service vector of the core's inner partition from 2,048 up, STAT_NOSVC for any other; another word of the
custom-0 opcode, and an encoding of the absent Zfh, is an illegal instruction; a prefetch has no effect.

ISL_CALL (R275, R276): for the inner world alone; a length or a range that is not allowed is STAT_ARG; the reply of
the message is written at a2, and while there is none the call returns STAT_AGAIN. -/
def Obligations.WorldCalls : Prop :=
  ((∀ s (n : Fin 8), s.coreRuns n = true → ∃ u, exec (.version n) s = .next (settled s u)
        ∧ WcallReturned s u n 0 statOk [Config.monitorInterface, BitVec.ofNat 64 (s.fget F.SYS_RCP_IFACE.island_if)])
    ∧ (∀ s (n : Fin 8), s.coreRuns n = true → s.coreInner n = false → s.innerPartition n = true → ∃ u,
      exec (.enter n) s = .next (settled s u) ∧ WcallTrapped s u n 1 ∧ u.coreInner n = true ∧ (u.core n).pc = (s.core n).arg 0
        ∧ (u.core n).saved = some ((s.core n).pc + 4) ∧ (u.core n).a = (s.core n).a ∧ (∀ m, m ≠ n.val → u.core m = s.core m))
    ∧ (∀ s (n : Fin 8), s.coreRuns n = true → s.coreInner n = true ∨ s.innerPartition n = false → ∃ u,
      exec (.enter n) s = .next (settled s u) ∧ WcallReturned s u n 1 statPerm [])
    ∧ (∀ s (n : Fin 8) pc, s.coreRuns n = true → s.coreInner n = true → (s.core n).saved = some pc → ∃ u,
      exec (.wcallReturn n) s = .next (settled s u) ∧ u.coreInner n = false ∧ (u.core n).pc = pc ∧ (u.core n).saved = none
        ∧ (u.core n).a = statOk :: (s.core n).a.drop 1 ∧ (∀ m, m ≠ n.val → u.core m = s.core m))
    ∧ (∀ s (n : Fin 8), s.coreRuns n = true → s.coreInner n = false ∨ (s.core n).saved = none → ∃ u,
      exec (.wcallReturn n) s = .next (settled s u) ∧ WcallReturned s u n 2 statPerm [])
    ∧ (∀ s (n : Fin 8), s.coreRuns n = true → s.coreInner n = true → ∃ u, exec (.dbgLower n) s = .next (settled s u)
        ∧ WcallReturned s u n 17 statOk []
        ∧ (∀ k, k < 4 → ((s.core n).arg 0).getLsbD k = true → u.hasBit .CPX_DBG_EN k = false)
        ∧ (∀ k, s.hasBit .CPX_DBG_EN k = false → u.hasBit .CPX_DBG_EN k = false))
    ∧ (∀ s (n : Fin 8), s.coreRuns n = true → s.coreInner n = false → ∃ u, exec (.dbgLower n) s = .next (settled s u)
        ∧ WcallReturned s u n 17 statPerm [] ∧ u.get .CPX_DBG_EN = s.get .CPX_DBG_EN)
    ∧ (∀ s (n : Fin 8), s.coreRuns n = true → ∃ u, exec (.fenceQuery n) s = .next (settled s u)
        ∧ WcallReturned s u n 18 statOk [if s.innerRegion ((s.core n).arg 0).toNat then 1 else 0])
    ∧ (∀ s (n : Fin 8) c, c ∈ [Instr.version n, .enter n, .wcallReturn n, .dbgLower n, .fenceQuery n] →
      s.coreRuns n = false → exec c s = .next (settled s s)))
  ∧ ((∀ s (n : Fin 8) (w : W32) c, (c = Instr.version n ∧ w = 0x0000000B) ∨ (c = .enter n ∧ w = 0x0010000B)
        ∨ (c = .wcallReturn n ∧ w = 0x0020000B) ∨ (c = .dbgLower n ∧ w = 0x0110000B) ∨ (c = .fenceQuery n ∧ w = 0x0120000B) →
      ∃ u, exec c s = .next (settled s u) ∧ exec (.partitionService n w) s = .next (settledMem s [] u))
    ∧ (∀ s (n : Fin 8), exec (.partitionService n 0x0100000B) s = exec (.islCall n) s)
    ∧ (∀ s (n : Fin 8) (w : W32), s.coreRuns n = true → w.toNat % 2 ^ 20 = 0xB → 3 ≤ w.toNat / 2 ^ 20 → w.toNat / 2 ^ 20 < 2048 →
      w.toNat / 2 ^ 20 ≠ 16 → w.toNat / 2 ^ 20 ≠ 17 → w.toNat / 2 ^ 20 ≠ 18 → ∃ u,
      exec (.partitionService n w) s = .next (settledMem s [] u) ∧ WcallReturned s u n (w.toNat / 2 ^ 20) statNosvc [])
    ∧ (∀ s (n : Fin 8) (w : W32) v, s.coreRuns n = true → w.toNat % 2 ^ 20 = 0xB → 2048 ≤ w.toNat / 2 ^ 20 →
      s.innerPartition n = true → (s.core n).vector = some v → ∃ u,
      exec (.partitionService n w) s = .next (settledMem s [] u) ∧ WcallTrapped s u n (w.toNat / 2 ^ 20) ∧ u.coreInner n = true
        ∧ (u.core n).pc = v ∧ (u.core n).a = (s.core n).a
        ∧ (u.core n).saved = (if s.coreInner n then (s.core n).saved else some ((s.core n).pc + 4)))
    ∧ (∀ s (n : Fin 8) (w : W32), s.coreRuns n = true → w.toNat % 2 ^ 20 = 0xB → 2048 ≤ w.toNat / 2 ^ 20 →
      s.innerPartition n = false ∨ (s.core n).vector = none → ∃ u,
      exec (.partitionService n w) s = .next (settledMem s [] u) ∧ WcallReturned s u n (w.toNat / 2 ^ 20) statNosvc [])
    ∧ (∀ s (n : Fin 8) (w : W32), s.coreRuns n = true → w.toNat % 2 ^ 20 ≠ 0xB → w.toNat % 128 = 0xB ∨ isZfh w = true → ∃ u,
      exec (.partitionService n w) s = .next (settledMem s [] u) ∧ ExceptionTaken s u n (s.core n).mode 2 (w.zeroExtend 64))
    ∧ (∀ s (n : Fin 8) (w : W32), s.coreRuns n = true → isPrefetch w = true → ∃ u,
      exec (.partitionService n w) s = .next (settledMem s [] u) ∧ (u.core n).pc = (s.core n).pc + 4
        ∧ (u.core n).a = (s.core n).a ∧ u.sent = s.sent ∧ u.regs = s.regs)
    ∧ (∀ s (n : Fin 8) (w : W32), s.coreRuns n = false → w.toNat % 2 ^ 20 ≠ 0xB ∨ w.toNat / 2 ^ 20 ≠ 16 →
      exec (.partitionService n w) s = .next (settledMem s [] s)))
  ∧ ((∀ s (n : Fin 8), s.coreRuns n = true → s.coreInner n = false → ∃ u, exec (.islCall n) s = .next (settledMem s [] u)
        ∧ WcallReturned s u n 16 statPerm [])
    ∧ (∀ s (n : Fin 8), s.coreRuns n = true → s.coreInner n = true → s.islCallOk n = false → ∃ u,
      exec (.islCall n) s = .next (settledMem s [] u) ∧ WcallReturned s u n 16 statArg [])
    ∧ (∀ s (n : Fin 8) m b, s.coreRuns n = true → s.coreInner n = true → s.islCallOk n = true →
      m = mailOf (s.readBytes ((s.core n).arg 0).toNat ((s.core n).arg 1).toNat) →
      (s.mailRx 1).find? (fun b => u8 b 0 == m.cmd && u32 b 4 == m.seq.toNat) = some b → ∃ u, exec (.islCall n) s =
        .next (settledMem s [(((s.core n).arg 2).toNat, b)] u) ∧ WcallReturned s u n 16 statOk []
          ∧ u.mailRx 1 = (s.mailRx 1).erase b)
    ∧ (∀ s (n : Fin 8) m, s.coreRuns n = true → s.coreInner n = true → s.islCallOk n = true →
      m = mailOf (s.readBytes ((s.core n).arg 0).toNat ((s.core n).arg 1).toNat) →
      (s.mailRx 1).find? (fun b => u8 b 0 == m.cmd && u32 b 4 == m.seq.toNat) = none →
      s.flag F.ISL_MBOX_STATUS.tx_busy 1 = true → ∃ u, exec (.islCall n) s = .next (settledMem s [] u)
        ∧ WcallReturned s u n 16 statAgain [] ∧ u.mailRx 1 = s.mailRx 1)
    ∧ (∀ s (n : Fin 8) m, s.coreRuns n = true → s.coreInner n = true → s.islCallOk n = true →
      m = mailOf (s.readBytes ((s.core n).arg 0).toNat ((s.core n).arg 1).toNat) → MailReady s 1 → m.cmd = 5 → s.mailRx 1 = [] →
      ∃ u b, exec (.islCall n) s = .next (settledMem s [(((s.core n).arg 2).toNat, b)] u) ∧ WcallReturned s u n 16 statOk []
        ∧ u8 b 0 = 5 ∧ u8 b 1 = 0 ∧ u32 b 4 = m.seq.toNat ∧ u.mailRx 1 = [])
    ∧ (∀ s (n : Fin 8), s.coreRuns n = false → exec (.islCall n) s = .next (settledMem s [] s)))

/-- MWORLD_WRITE, LOWER_DEBUG_ENABLE, HALT_REQUEST (R270, R271, R277, R278, R280): M mode switches the world, and a
switch clears the predictors that have no world tag; other modes take an illegal-instruction exception; an enable
that is lowered takes along what stands under it and none ever rises; a halt waits for its enable.

OWNERSHIP_REQUEST, OWNERSHIP_RETRY (R281, R282): a free slot is granted and the owner's copy is then the only one; a
request for a held line waits; a reserved line refuses others, and its reserved owner is refused once and granted at
the release; a release grants the first waiting core at or after the pointer, refuses the rest and reserves the next
for one of them.

CACHE_ERROR (R283): an uncorrectable error of L2 or L3 gives every running core that reads the line a hardware error
and an external read an error response, counts an event, and leaves no copy of the line and no byte of it that a
statement could name; a corrected error, and one of a parity-protected cache, changes nothing. -/
def Obligations.WorldsDirectoryAndCaches : Prop :=
  ((∀ s (n : Fin 8) v, s.coreRuns n = true → ∃ u, exec (.mworldWrite n .m v) s = .next (settled s u)
        ∧ u.coreInner n = v.getLsbD 0 ∧ (u.core n).pworld = v.getLsbD 1 ∧ (u.core n).pc = (s.core n).pc + 4
        ∧ (s.coreInner n ≠ v.getLsbD 0 → (u.core n).ras = [] ∧ (u.core n).indirect = [] ∧ (u.core n).prefetch = [])
        ∧ (u.core n).a = (s.core n).a ∧ (u.core n).tlb = (s.core n).tlb ∧ (∀ m, m ≠ n.val → u.core m = s.core m))
    ∧ (∀ s (n : Fin 8) v, s.coreRuns n = true → (s.core n).haltPending = true → s.coreInner n ≠ v.getLsbD 0 →
      s.invasive (v.getLsbD 0) = true → ∃ u, exec (.mworldWrite n .m v) s = .next (settled s u)
        ∧ u.coreHalted n = true ∧ (u.core n).haltPending = false)
    ∧ (∀ s (n : Fin 8) mode v, s.coreRuns n = true → mode ≠ .m → ∃ u, exec (.mworldWrite n mode v) s = .next (settled s u)
        ∧ ExceptionTaken s u n mode 2 0 ∧ u.coreInner n = s.coreInner n ∧ (u.core n).pworld = (s.core n).pworld)
    ∧ (∀ s (n : Fin 8) mode v, s.coreRuns n = false → exec (.mworldWrite n mode v) s = .next (settled s s))
    ∧ (∀ s v, s.awake = true → ∃ u, exec (.lowerDebugEnable .inner v) s = .next (settled s u)
        ∧ (∀ k, k < 4 → v.getLsbD k = true → u.hasBit .CPX_DBG_EN k = false)
        ∧ (v.getLsbD 0 = true → u.hasBit .CPX_DBG_EN 1 = false) ∧ (v.getLsbD 2 = true → u.hasBit .CPX_DBG_EN 3 = false)
        ∧ (∀ k, s.hasBit .CPX_DBG_EN k = false → u.hasBit .CPX_DBG_EN k = false)
        ∧ (∀ n, n < 8 → u.coreHalted n = (s.coreHalted n && u.invasive (s.coreInner n))))
    ∧ (∀ s a v, a ≠ .inner ∨ s.awake = false → ∃ u, exec (.lowerDebugEnable a v) s = .next (settled s u)
        ∧ u.get .CPX_DBG_EN = s.get .CPX_DBG_EN ∧ u.sent = .busError a :: s.sent)
    ∧ (∀ s (n : Fin 8), s.coreRuns n = true → s.invasive (s.coreInner n) = true →
      exec (.haltRequest n) s = .next (settled s (s.setBit .CPX_STATUS (8 + n))))
    ∧ (∀ s (n : Fin 8), s.coreRuns n = true → s.invasive (s.coreInner n) = false →
      exec (.haltRequest n) s = .next (settled s (s.setCore n { s.core n with haltPending := true })))
    ∧ (∀ s (n : Fin 8), s.coreRuns n = false → exec (.haltRequest n) s = .next (settled s s)))
  ∧ ((∀ s (sl : Fin 16) line (c : Fin 8) d, s.up = true → sliceOf line = sl.val → d = s.dirLine sl line.toNat →
      d.holder = none → d.reserved = none ∨ d.reserved = some c.val → ∃ u,
      exec (.ownershipRequest sl line (.request c)) s = .next (settled s u)
        ∧ exec (.ownershipRetry sl line c) s = .next (settled s u)
        ∧ u.sent = .directory sl line.toNat c true :: s.sent ∧ (u.dirLine sl line.toNat).holder = some (.owner c)
        ∧ (u.dirLine sl line.toNat).reserved = none ∧ u.copiesOf (line.toNat * 64) = [c.val]
        ∧ Tbl.get 0 u.cpx.pointers sl = (c.val + 1) % 8)
    ∧ (∀ s (sl : Fin 16) line (c : Fin 8) d h, s.up = true → sliceOf line = sl.val → d = s.dirLine sl line.toNat →
      d.holder = some h → h ≠ .owner c → d.reserved = none → ∃ u,
      exec (.ownershipRequest sl line (.request c)) s = .next (settled s u) ∧ exec (.ownershipRetry sl line c) s = .next (settled s u)
        ∧ (u.dirLine sl line.toNat).waiting = NSet.insert d.waiting c ∧ (u.dirLine sl line.toNat).holder = some h ∧ u.sent = s.sent)
    ∧ (∀ s (sl : Fin 16) line (c : Fin 8) d r, s.up = true → sliceOf line = sl.val → d = s.dirLine sl line.toNat →
      d.holder ≠ some (.owner c) → d.reserved = some r → r ≠ c.val → ∃ u,
      exec (.ownershipRequest sl line (.request c)) s = .next (settled s u) ∧ exec (.ownershipRetry sl line c) s = .next (settled s u)
        ∧ u.sent = .directory d.slice d.line c false :: s.sent ∧ u.cpx = s.cpx)
    ∧ (∀ s (sl : Fin 16) line (c : Fin 8) d h, s.up = true → sliceOf line = sl.val → d = s.dirLine sl line.toNat →
      d.holder = some h → h ≠ .owner c → d.reserved = some c.val → ∃ u,
      exec (.ownershipRequest sl line (.request c)) s = .next (settled s u) ∧ exec (.ownershipRetry sl line c) s = .next (settled s u)
        ∧ u.sent = .directory d.slice d.line c false :: s.sent ∧ (u.dirLine sl line.toNat).retried = true)
    ∧ (∀ s (sl : Fin 16) line d r, s.up = true → sliceOf line = sl.val → d = s.dirLine sl line.toNat → d.holder.isSome = true →
      d.reserved = some r → d.retried = true → ∃ u, exec (.ownershipRequest sl line .release) s = .next (settled s u)
        ∧ u.sent = .directory d.slice d.line r true :: s.sent ∧ u.copiesOf (d.line * 64) = [r])
    ∧ (∀ s (sl : Fin 16) line d r, s.up = true → sliceOf line = sl.val → d = s.dirLine sl line.toNat → d.holder.isSome = true →
      d.reserved = some r → d.retried = false → ∃ u, exec (.ownershipRequest sl line .release) s = .next (settled s u)
        ∧ (u.dirLine sl line.toNat).holder = none ∧ (u.dirLine sl line.toNat).reserved = some r ∧ u.sent = s.sent)
    ∧ (∀ s (sl : Fin 16) line d w l, s.up = true → sliceOf line = sl.val → d = s.dirLine sl line.toNat →
      d.holder.isSome = true → d.reserved = none → (s.fromPointer d.slice).filter d.waiting.contains = w :: l → ∃ u,
      exec (.ownershipRequest sl line .release) s = .next (settled s u)
        ∧ u.sent = (l.map (fun c => Emission.directory d.slice d.line c false)).reverse
            ++ .directory d.slice d.line w true :: s.sent
        ∧ (u.dirLine sl line.toNat).holder = some (.owner w) ∧ (u.dirLine sl line.toNat).reserved = l.head?
        ∧ (u.dirLine sl line.toNat).waiting = [])
    ∧ (∀ s (sl : Fin 16) line d, s.up = true → sliceOf line = sl.val → d = s.dirLine sl line.toNat →
      d.holder.isSome = true → d.reserved = none → (s.fromPointer d.slice).filter d.waiting.contains = [] → ∃ u,
      exec (.ownershipRequest sl line .release) s = .next (settled s u)
        ∧ (u.dirLine sl line.toNat).holder = none ∧ u.sent = s.sent)
    ∧ (∀ s (sl : Fin 16) line (c : Fin 8) d, s.up = true → sliceOf line = sl.val → d = s.dirLine sl line.toNat →
      d.holder = none → ∃ u, exec (.ownershipRequest sl line (.writeback c)) s = .next (settled s u)
        ∧ (u.dirLine sl line.toNat).holder = some (.writeback c) ∧ u.sent = s.sent
        ∧ u.copiesOf (d.line * 64) = NSet.erase (s.copiesOf (d.line * 64)) c)
    ∧ (∀ s (sl : Fin 16) line (c : Fin 8), s.up = true → sliceOf line = sl.val →
      (s.dirLine sl line.toNat).holder = some (.owner c) →
      exec (.ownershipRequest sl line (.request c)) s = .next (settled s s) ∧ exec (.ownershipRetry sl line c) s = .next (settled s s))
    ∧ (∀ s (sl : Fin 16) line (c : Fin 8), s.up = true → sliceOf line = sl.val → (s.dirLine sl line.toNat).holder.isSome = true →
      exec (.ownershipRequest sl line (.writeback c)) s = .next (settled s s))
    ∧ (∀ s (sl : Fin 16) line, s.up = true → sliceOf line = sl.val → (s.dirLine sl line.toNat).holder = none →
      exec (.ownershipRequest sl line .release) s = .next (settled s s))
    ∧ (∀ s (sl : Fin 16) line ev (c : Fin 8), s.up = false ∨ sliceOf line ≠ sl.val →
      exec (.ownershipRequest sl line ev) s = .next (settled s s) ∧ exec (.ownershipRetry sl line c) s = .next (settled s s)))
  ∧ ((∀ s lv addr (rs : List (Fin 8)) ext, s.up = true → secDed lv = true → ∃ u,
      exec (.cacheError lv false addr rs ext) s = .next (settledMem s (s.lineStores lv false addr.toNat) u)
        ∧ u.sent = (if ext then [Emission.response s.mem.nextId [] true] else [])
            ++ ((rs.filter (fun c => s.coreRuns c)).map (fun c => Emission.coreTrap c 19)).reverse ++ s.sent
        ∧ u.raised = s.raised ++ [8] ∧ u.copiesOf addr.toNat = [])
    ∧ (∀ (s : State) lv addr (w : Store), w ∈ s.lineStores lv false addr → w.1 = addr / 64 * 64 ∧ w.2.length = 64)
    ∧ (∀ s lv sg addr (rs : List (Fin 8)) ext, sg = true ∨ secDed lv = false ∨ s.up = false →
      exec (.cacheError lv sg addr rs ext) s = .next (settledMem s [] s)))

/-- VF_ENABLE, VIR_PORT_CFG, TRANSLATED_REQUEST (R284, R285): a port's offer is checked, stands while VF Enable is
clear and is locked while it is set; a port with no offer, and one that the recipe does not enable, offers nothing;
translated requests are unsupported.

CREATE (R26, R292): a create is refused with the code of its first failing condition and changes nothing else, or
makes an ACTIVE instance of the shape asked, whose aperture keeps the size that its port offers. -/
def Obligations.PortsAndCreation : Prop :=
  ((∀ s (p : Fin 4), s.up = true → s.fget F.VIR_PORT_CFG.total_vfs p ≠ 0 → p.val < s.recipe.hostPorts → ∃ u,
      exec (.vfEnable p true) s = .next (settled s u) ∧ u.flag F.VIR_PORT_CFG.locked p = true ∧ p.val ∈ u.vir.vfEnable
        ∧ u.portRange p = s.portRange p)
    ∧ (∀ s (p : Fin 4), s.up = false ∨ s.fget F.VIR_PORT_CFG.total_vfs p = 0 ∨ s.recipe.hostPorts ≤ p.val →
      exec (.vfEnable p true) s = .next (settled s s))
    ∧ (∀ s (p : Fin 4), s.up = true → ∃ u, exec (.vfEnable p false) s = .next (settled s u)
        ∧ u.flag F.VIR_PORT_CFG.locked p = false ∧ p.val ∉ u.vir.vfEnable)
    ∧ (∀ s (p : Fin 4), s.up = false → exec (.vfEnable p false) s = .next (settled s s))
    ∧ (∀ s (p : Fin 4) v, s.awake = true → s.vir.vfEnable.contains p.val = true →
      exec (.virPortCfg .manager p v) s = .next (settled s s))
    ∧ (∀ s (p : Fin 4) v, s.awake = true → s.vir.vfEnable.contains p.val = false →
      s.rangeOk p (F.VIR_PORT_CFG.first_instance.of v) (F.VIR_PORT_CFG.total_vfs.of v) = true →
      24 ≤ F.VIR_PORT_CFG.ap_log2.of v → F.VIR_PORT_CFG.ap_log2.of v ≤ 36 → ∃ u,
      exec (.virPortCfg .manager p v) s = .next (settled s u)
        ∧ u.portRange p = (F.VIR_PORT_CFG.first_instance.of v, F.VIR_PORT_CFG.total_vfs.of v)
        ∧ u.fget F.VIR_PORT_CFG.ap_log2 p = F.VIR_PORT_CFG.ap_log2.of v ∧ u.flag F.VIR_PORT_CFG.cfg_err p = false
        ∧ (∀ q, q ≠ p.val → u.portRange q = s.portRange q))
    ∧ (∀ s (p : Fin 4) v, s.awake = true → s.vir.vfEnable.contains p.val = false →
      s.rangeOk p (F.VIR_PORT_CFG.first_instance.of v) (F.VIR_PORT_CFG.total_vfs.of v) = false
        ∨ F.VIR_PORT_CFG.ap_log2.of v < 24 ∨ 36 < F.VIR_PORT_CFG.ap_log2.of v →
      exec (.virPortCfg .manager p v) s = .next (settled s (s.fset F.VIR_PORT_CFG.cfg_err 1 p)))
    ∧ (∀ s a (p : Fin 4) v, a ≠ .manager ∨ s.awake = false →
      exec (.virPortCfg a p v) s = .next (settled s (s.emit (.busError a))))
    ∧ (∀ s (p : Fin 4) b, s.up = true → p.val < s.recipe.hostPorts →
      exec (.translatedRequest p b) s = .next (settled s (s.emit (.unsupported p))))
    ∧ (∀ s (p : Fin 4) b, s.up = false ∨ s.recipe.hostPorts ≤ p.val →
      exec (.translatedRequest p b) s = .next (settled s s)))
  ∧ ((∀ s (i : Fin 64), s.awake = true → s.createError i s.askedShape = 0 → ∃ u p,
      exec (.create .manager i) s = .next (settled s u) ∧ s.portOf i = some p ∧ u.instState i = instActive
        ∧ u.shape i = some { s.askedShape with aperture := s.fget F.VIR_PORT_CFG.ap_log2 p }
        ∧ u.fget F.VIR_CREATE_STATUS.err = 0 ∧ u.fget F.INST_STATUS.number i = i.val
        ∧ u.fget F.VIR_INST_SAVE_SIZE.size i = saveSize s.askedShape ∧ u.raised = s.raised
        ∧ (∀ j, j ≠ i.val → u.instState j = s.instState j ∧ u.shape j = s.shape j))
    ∧ (∀ s (i : Fin 64), s.awake = true → s.createError i s.askedShape ≠ 0 → exec (.create .manager i) s =
      .next (settled s (((s.fset F.VIR_CREATE_CTRL.inst i).fset F.VIR_CREATE_STATUS.err
        (s.createError i s.askedShape)).raise 272)))
    ∧ (∀ (s : State) (i : Fin 64) h p, s.portOf i = some p → s.instState i = instNone →
      (s.createError i h = errArg ↔ s.shapeBad p h = true)
        ∧ (s.createError i h = errPool ↔ s.shapeBad p h = false ∧ s.poolShort h = true)
        ∧ (s.createError i h = errBusy ↔ s.shapeBad p h = false ∧ s.poolShort h = false ∧ s.shapeBusy h = true)
        ∧ (s.createError i h = errMem ↔ s.shapeBad p h = false ∧ s.poolShort h = false ∧ s.shapeBusy h = false
            ∧ s.shapeMemBad h = true))
    ∧ (∀ (s : State) (i : Fin 64) h, s.portOf i = none ∨ s.instState i ≠ instNone → s.createError i h = errState)
    ∧ (∀ s a (i : Fin 64), a ≠ .manager ∨ s.awake = false →
      exec (.create a i) s = .next (settled s (s.emit (.busError a)))))

/-- INSTANCE_FREEZE, INSTANCE_RESUME, SAVE, SAVE_DONE, RESTORE, RESTORE_DONE (R286, R298 to R300): each control acts
in the state the table allows and records ERR_VIR_STATE in any other; a save leaves through the host and a restore is
checked first. -/
def Obligations.FreezeSaveRestore : Prop :=
  (∀ s (i : Fin 64), s.awake = true → s.instState i = instActive → s.ctxsOf i = [] → s.instChans i = [] →
    (∀ c, c < 256 → s.dmaHolder c ≠ i.val) → ∃ u,
    exec (.instFreeze .manager i) s = .next (settledMem s [] u) ∧ u.instState i = instFrozen ∧ u.raised = s.raised ++ [266])
  ∧ (∀ s (i : Fin 64), s.awake = true → s.instState i = instActive → ∃ u,
    exec (.instFreeze .manager i) s = .next (settledMem s ((s.instErr i 0).freezeInst i).1 u)
      ∧ (u.instState i = instFreezing ∨ u.instState i = instFrozen ∧ 266 ∈ u.raised))
  ∧ (∀ s (i : Fin 64), s.awake = true → s.instState i = instFrozen → ∃ u,
    exec (.instResume .manager i) s = .next (settledMem s [] u) ∧ u.instState i = instActive)
  ∧ (∀ s (i : Fin 64) h, s.awake = true → s.instState i = instFrozen → s.shape i = some h →
    saveSize h ≤ s.fget F.VIR_INST_BUF_LEN.len i → ∃ u, exec (.save .manager i) s = .next (settledMem s [] u)
      ∧ u.instState i = instSaving ∧ (Tbl.get [] u.vir.container i).length = saveSize h)
  ∧ (∀ s (i : Fin 64) h, s.awake = true → s.instState i = instFrozen → s.shape i = some h →
    s.fget F.VIR_INST_BUF_LEN.len i < saveSize h → ∃ u, exec (.save .manager i) s = .next (settledMem s [] u)
      ∧ u.instState i = instFrozen ∧ u.fget F.VIR_INST_STATE.err i = errArg)
  ∧ (∀ s (i : Fin 64), s.awake = true → s.instState i = instSaving → ∃ u, exec (.saveDone i) s = .next (settled s u)
      ∧ u.instState i = instFrozen ∧ u.raised = s.raised ++ [267]
      ∧ u.sent = .hostWrite 0 ((s.get64 .VIR_INST_BUF_LO .VIR_INST_BUF_HI i).toNat / 64 * 64)
          (Tbl.get [] s.vir.container i) :: s.sent)
  ∧ (∀ s (i : Fin 64), s.awake = false ∨ s.instState i ≠ instSaving → exec (.saveDone i) s = .next (settled s s))
  ∧ (∀ s (i : Fin 64) b, s.awake = true → s.instState i = instActive → ∃ u,
    exec (.restore .manager i b) s = .next (settledMem s [] u)
      ∧ (s.restoreError i b = 0 → u.instState i = instRestoring ∧ Tbl.get [] u.vir.container i = b)
      ∧ (s.restoreError i b ≠ 0 → u.instState i = instActive ∧ u.fget F.VIR_INST_STATE.err i = s.restoreError i b
          ∧ u.raised = s.raised ++ [272] ∧ u.vir = s.vir))
  ∧ (∀ s (i : Fin 64), s.awake = true → s.instState i = instRestoring → ∃ u, exec (.restoreDone i) s = .next (settled s u)
      ∧ u.instState i = instFrozen ∧ 268 ∈ u.raised ∧ Tbl.get [] u.vir.container i = [])
  ∧ (∀ s (i : Fin 64), s.awake = false ∨ s.instState i ≠ instRestoring → exec (.restoreDone i) s = .next (settled s s))
  ∧ (∀ s (i : Fin 64) b, s.awake = true → s.instState i ≠ instActive →
    exec (.instFreeze .manager i) s = .next (settledMem s [] (s.instErr i errState))
      ∧ exec (.restore .manager i b) s = .next (settledMem s [] (s.instErr i errState)))
  ∧ (∀ s (i : Fin 64), s.awake = true → s.instState i ≠ instFrozen →
    exec (.instResume .manager i) s = .next (settledMem s [] (s.instErr i errState))
      ∧ exec (.save .manager i) s = .next (settledMem s [] (s.instErr i errState)))
  ∧ (∀ s a (i : Fin 64) b c, c ∈ [Instr.instFreeze a i, .instResume a i, .save a i, .restore a i b, .destroy a i] →
    a ≠ .manager ∨ s.awake = false → exec c s = .next (settledMem s [] (s.emit (.busError a))))

/-- DESTROY, DESTROY_DONE, FLR, FLR_DONE (R117, R286, R301 to R303): a reset stops everything of the instance at once
and completes when no context runs; a context that hangs wedges it; a destroy gives its resources back; a reset ends
a freeze, a save and a restore with ERR_VIR_ABORTED. -/
def Obligations.InstanceResets : Prop :=
  (∀ s (i : Fin 64), s.awake = true → s.instState i = instActive ∨ s.instState i = instFreezing ∨ s.instState i = instFrozen →
    ∃ u, exec (.destroy .manager i) s = .next (settledMem s [] u) ∧ u.instState i = instDestroying
      ∧ u.flag F.VIR_MB_STATUS.tx_busy i = false ∧ u.flag F.VIR_MB_STATUS.rx_valid i = false
      ∧ u.get .TT_ROOT_LO i = 0 ∧ (∀ t ∈ u.vir.tlb, t.owner ≠ i.val)
      ∧ ∀ n c, u.cueAt n = some c → c.entry.owner.toNat = i.val → c.voided = true)
  ∧ (∀ s (i : Fin 64), s.awake = true → s.instState i ≠ instActive → s.instState i ≠ instFreezing → s.instState i ≠ instFrozen →
    exec (.destroy .manager i) s = .next (settledMem s [] (s.instErr i errState)))
  ∧ (∀ s (i : Fin 64), s.up = true → 1 ≤ s.instState i → s.instState i ≤ 5 → ∃ u, exec (.flr i) s = .next (settled s u)
      ∧ u.instState i = instResetting ∧ u.flag F.VIR_MB_STATUS.tx_busy i = false ∧ u.get .TT_ROOT_LO i = 0
      ∧ (∀ t ∈ u.vir.tlb, t.owner ≠ i.val) ∧ i.val ∉ u.vir.msixOn
      ∧ (s.instState i = instFreezing ∨ s.instState i = instSaving ∨ s.instState i = instRestoring →
          u.fget F.VIR_INST_STATE.err i = errAborted)
      ∧ ∀ n c, u.cueAt n = some c → c.entry.owner.toNat = i.val → c.voided = true)
  ∧ (∀ s (i : Fin 64), s.up = false ∨ s.instState i = 0 ∨ 5 < s.instState i → exec (.flr i) s = .next (settled s s))
  ∧ (∀ s (i : Fin 64), s.instState i = instResetting → s.ctxsOf i = [] → (∀ c ∈ s.instChans i, s.chState c ≠ chPausing) → ∃ u,
    exec (.flrDone i) s = .next (settledMem s [] u) ∧ u.instState i = instActive ∧ u.raised = s.raised ++ [269])
  ∧ (∀ s (i : Fin 64), s.instState i = instResetting → s.ctxsGone i = true → ∃ u,
    exec (.flrDone i) s = .next (settledMem s (s.drainChans i).1 u) ∧ u.instState i = instActive ∧ 269 ∈ u.raised
      ∧ (s.ctxsOf i ≠ [] → u.flag F.VIR_INST_STATE.wedged i = true ∧ 270 ∈ u.raised))
  ∧ (∀ s (i : Fin 64), s.instState i ≠ instResetting ∨ s.ctxsGone i = false →
    exec (.flrDone i) s = .next (settledMem s [] s))
  ∧ (∀ s (i : Fin 64), s.instState i = instDestroying → s.ctxsGone i = true → ∃ u,
    exec (.destroyDone i) s = .next (settledMem s (s.drainChans i).1 u) ∧ u.instState i = instNone ∧ u.shape i = none
      ∧ u.fget F.VIR_INST_SAVE_SIZE.size i = 0 ∧ (∀ j, j ≠ i.val → u.shape j = s.shape j))
  ∧ (∀ s (i : Fin 64), s.instState i ≠ instDestroying ∨ s.ctxsGone i = false →
    exec (.destroyDone i) s = .next (settledMem s [] s))

/-- GUEST_MAILBOX_GO, GUEST_MAILBOX_POP, VIR_MB_TX_GO, VIR_MB_RX_POP (R287, R289, R304): a message reaches the other
side once, and its channel is free again when the message is taken.

INVALIDATION, INVALIDATION_DONE, TT_ROOT_WRITE (R293, R297): an invalidation that is not busy starts on the pages
named, completes once no engine holds a translation of them, and the write of a root starts one of everything. -/
def Obligations.InstanceMailAndTranslation : Prop :=
  ((∀ s (i : Fin 64), s.awake = true → s.pageTwoOpen i = true → s.flag F.INST_MB_TX_STATUS.tx_busy i = false → ∃ u,
      exec (.guestMailboxGo i) s = .next (settled s u) ∧ (∀ k, k < 512 → u.get .VIR_MB_RX i k = s.get .INST_MB_TX i k)
        ∧ u.flag F.INST_MB_TX_STATUS.tx_busy i = true ∧ u.flag F.VIR_MB_STATUS.rx_valid i = true
        ∧ u.hasBit .VIR_MB_PENDING (i.val % 32) 0 (i.val / 32) = true ∧ u.raised = s.raised ++ [264])
    ∧ (∀ s (i : Fin 64), s.awake = true → s.pageTwoOpen i = false ∨ s.flag F.INST_MB_TX_STATUS.tx_busy i = true →
      exec (.guestMailboxGo i) s = .next (settled s s))
    ∧ (∀ s (i : Fin 64), s.awake = true → s.flag F.VIR_MB_STATUS.rx_valid i = true → ∃ u,
      exec (.virMbRxPop .manager i) s = .next (settled s u) ∧ u.flag F.VIR_MB_STATUS.rx_valid i = false
        ∧ u.flag F.INST_MB_TX_STATUS.tx_busy i = false ∧ u.hasBit .VIR_MB_PENDING (i.val % 32) 0 (i.val / 32) = false)
    ∧ (∀ s (i : Fin 64), s.awake = true → s.flag F.VIR_MB_STATUS.rx_valid i = false →
      exec (.virMbRxPop .manager i) s = .next (settled s s))
    ∧ (∀ s (i : Fin 64), s.awake = true → s.flag F.VIR_MB_STATUS.tx_busy i = false → ∃ u,
      exec (.virMbTxGo .manager i) s = .next (settled s u) ∧ (∀ k, k < 512 → u.get .INST_MB_RX i k = s.get .VIR_MB_TX i k)
        ∧ u.flag F.VIR_MB_STATUS.tx_busy i = true ∧ u.flag F.INST_MB_RX_STATUS.rx_valid i = true)
    ∧ (∀ s (i : Fin 64), s.awake = true → s.flag F.VIR_MB_STATUS.tx_busy i = true →
      exec (.virMbTxGo .manager i) s = .next (settled s s))
    ∧ (∀ s (i : Fin 64), s.awake = true → s.pageOneOpen i = true → s.flag F.INST_MB_RX_STATUS.rx_valid i = true → ∃ u,
      exec (.guestMailboxPop i) s = .next (settled s u) ∧ u.flag F.INST_MB_RX_STATUS.rx_valid i = false
        ∧ u.flag F.VIR_MB_STATUS.tx_busy i = false ∧ u.raised = s.raised ++ [265])
    ∧ (∀ s (i : Fin 64), s.awake = true → s.pageOneOpen i = false ∨ s.flag F.INST_MB_RX_STATUS.rx_valid i = false →
      exec (.guestMailboxPop i) s = .next (settled s s))
    ∧ (∀ s a (i : Fin 64), a ≠ .manager ∨ s.awake = false → exec (.virMbTxGo a i) s = .next (settled s (s.emit (.busError a)))
        ∧ exec (.virMbRxPop a i) s = .next (settled s (s.emit (.busError a))))
    ∧ (∀ s (i : Fin 64), s.awake = false → exec (.guestMailboxGo i) s = .next (settled s (s.emit (.busError (.guest i))))
        ∧ exec (.guestMailboxPop i) s = .next (settled s (s.emit (.busError (.guest i))))))
  ∧ ((∀ s (i : Fin 72), s.awake = true → s.pagesOpen i = true → s.flag F.INV_STATUS.busy i = false → ∃ u,
      exec (.invalidation i) s = .next (settled s u) ∧ u.flag F.INV_STATUS.busy i = true
        ∧ Tbl.get none u.vir.inv i = some ((s.get64 .INV_ADDR_LO .INV_ADDR_HI i).toNat % 2 ^ 48 / 4096, s.fget F.INV_PAGES.pages i)
        ∧ u.vir.tlb = s.vir.tlb)
    ∧ (∀ s (i : Fin 72), s.awake = true → s.pagesOpen i = false ∨ s.flag F.INV_STATUS.busy i = true →
      exec (.invalidation i) s = .next (settled s s))
    ∧ (∀ s (i : Fin 72) r, s.up = true → Tbl.get none s.vir.inv i = some r → ∃ u, exec (.invalidationDone i) s =
      .next (settled s u) ∧ u.flag F.INV_STATUS.busy i = false ∧ Tbl.get none u.vir.inv i = none
        ∧ u.vir.tlb = s.vir.tlb.filter (fun t => !invMatches i r t))
    ∧ (∀ s (i : Fin 72), s.up = false ∨ Tbl.get none s.vir.inv i = none → exec (.invalidationDone i) s = .next (settled s s))
    ∧ (∀ s (i : Fin 72) high v, s.awake = true → s.pageOneOpen i = true → ∃ u,
      exec (.ttRootWrite i high v) s = .next (settled s u)
        ∧ u.get .TT_ROOT_LO i = (if high then s.get .TT_ROOT_LO i else v &&& 0xFFFFF001#32)
        ∧ u.get .TT_ROOT_HI i = (if high then v &&& 0xF#32 else s.get .TT_ROOT_HI i)
        ∧ Tbl.get none u.vir.inv i = some (0, 0) ∧ u.flag F.INV_STATUS.busy i = true)
    ∧ (∀ s (i : Fin 72) high v, s.awake = true → s.pageOneOpen i = false → exec (.ttRootWrite i high v) s = .next (settled s s))
    ∧ (∀ s (i : Fin 72) high v, s.awake = false →
      exec (.invalidation i) s = .next (settled s (s.emit (.busError (agentOf i))))
        ∧ exec (.ttRootWrite i high v) s = .next (settled s (s.emit (.busError (agentOf i))))))

/-- CH_START, DMA_TIMER, DMA_TRIG_PIN (R307 to R312): a trigger makes an idle channel READY, or run where its engine
is free: a run reads its first descriptor, and a ring entry that the engine does not own ends it; a channel that is
not idle, or not in Day, misses the trigger, counts it and raises EV_DMA_MISSED.

DMA_PAUSE, PAUSE_DRAINED, DMA_RESUME (R316): a running channel drains before it is PAUSED and the pause is reported;
a resumed one goes on where its run is not finished, at the byte where it stopped, else it is IDLE; only the manager
pauses.

CRC_DATA, CRC_DATA_B, CRC_INIT (R319, R320): bytes enter the register in order, four low byte first or one, or the
initial value enters it; a busy channel loses the write. -/
def Obligations.DmaTriggersAndPause : Prop :=
  ((∀ s a (c : Fin 256), ChannelReach s a c → s.day = true → s.chState c = chIdle →
      s.flag F.ENG_STATUS.busy (c.val / 16) = true ∨ s.flag F.PMU_STATE_STATUS.entering = true →
      exec (.chStart a c) s = .next (settled s ((s.fset F.CH_STATUS.state chReady c).setChan c ChanState.initial)))
    ∧ (∀ s a (c : Fin 256), ChannelReach s a c → s.day = false ∨ s.chState c ≠ chIdle → ∃ u,
      exec (.chStart a c) s = .next (settled s u) ∧ u.flag F.CH_STATUS.missed c = true ∧ 290 ∈ u.raised
        ∧ u.get .CH_MISSED_COUNT c = (s.bump F.CH_MISSED_COUNT.count c).get .CH_MISSED_COUNT c)
    ∧ (∀ s a (c : Fin 256) r, ChannelReach s a c → Startable s c → r = firstRead s c →
      s.chRing c = false ∨ r.fault.isSome = true ∨ r.failed = true ∨ descBit r.bytes 0 = true → ∃ u,
      exec (.chStart a c) s = .next (settled s u) ∧ u.chState c = chRunning ∧ u.flag F.ENG_STATUS.busy (c.val / 16) = true
        ∧ u.fget F.ENG_STATUS.channel (c.val / 16) = c.val % 16 ∧ u.chCur c = s.chStartAddr c % 2 ^ 48 ∧ (u.chan c).desc = r.bytes
        ∧ (u.chan c).readable = (r.fault.isNone && !r.failed) ∧ u.get .CH_DONE_BYTES c = 0)
    ∧ (∀ s a (c : Fin 256) r, ChannelReach s a c → Startable s c → r = firstRead s c → s.chRing c = true → r.fault = none →
      r.failed = false → descBit r.bytes 0 = false → ∃ u, exec (.chStart a c) s = .next (settled s u) ∧ u.chState c = chIdle
        ∧ u.flag F.ENG_STATUS.busy (c.val / 16) = false)
    ∧ (∀ s a (c : Fin 256), s.awake = false ∨ a = .island ∨ a = .inner ∨ a = .management →
      exec (.chStart a c) s = .next (settled s (s.emit (.busError a))))
    ∧ (∀ s a (c : Fin 256), s.awake = true → (∃ i, a = .guest i) ∨ (∃ p, a = .partition p) →
      ((s.heldChannels (ownerOf a)).take 32).contains c.val = false ∨ s.pageOneOpen (ownerOf a) = false →
      exec (.chStart a c) s = .next (settled s s))
    ∧ (∀ s (e : Fin 16) (t : Fin 4), s.day = true → s.timerDue e t = true → ∃ u, exec (.dmaTimer e t) s = .next (settled s u)
        ∧ (∀ c, c ∈ s.dmaListeners 1 t → c / 16 = e.val → s.chState c ≠ chIdle →
            u.flag F.CH_STATUS.missed c = true ∧ 290 ∈ u.raised)
        ∧ (s.flag F.ENG_STATUS.busy e = true → ∀ c, c ∈ s.dmaListeners 1 t → c / 16 = e.val → s.chState c = chIdle →
            u.chState c = chReady)
        ∧ (∀ c, c / 16 ≠ e.val → u.chState c = s.chState c) ∧ u.timerDue e t = false)
    ∧ (∀ s (e : Fin 16) (t : Fin 4), s.day = false ∨ s.timerDue e t = false → exec (.dmaTimer e t) s = .next (settled s s))
    ∧ (∀ s (p : Fin 8) f, s.up = true → s.admitted = true → s.recipe.periph (212 + p.val) = true → ∃ u,
      exec (.dmaTrigPin p f) s = .next (settled s u)
        ∧ (∀ c, c ∈ s.pinListeners p f → s.day = false ∨ s.chState c ≠ chIdle → u.flag F.CH_STATUS.missed c = true
            ∧ 290 ∈ u.raised)
        ∧ ((∀ c, c ∈ s.pinListeners p f → s.flag F.ENG_STATUS.busy (c / 16) = true) →
            (∀ c, c ∈ s.pinListeners p f → s.day = true → s.chState c = chIdle → u.chState c = chReady)
            ∧ (∀ c, c ∉ s.pinListeners p f → u.chState c = s.chState c)))
    ∧ (∀ s (p : Fin 8) f, s.up = false ∨ s.admitted = false ∨ s.recipe.periph (212 + p.val) = false →
      exec (.dmaTrigPin p f) s = .next (settled s s)))
  ∧ ((∀ s (c : Fin 256), s.awake = true → s.chState c = chRunning → ∃ u, exec (.dmaPause .manager c) s = .next (settled s u)
        ∧ u.chState c = chPausing ∧ u.dma = s.dma)
    ∧ (∀ s (c : Fin 256), s.awake = true → s.chState c = chReady ∨ s.chState c = chIdle → ∃ u,
      exec (.dmaPause .manager c) s = .next (settled s u) ∧ u.chState c = chPaused
        ∧ (u.chan c).unfinished = ((s.chan c).unfinished || s.chState c == chReady))
    ∧ (∀ s (c : Fin 256), s.awake = true → chPausing ≤ s.chState c → ∃ u, exec (.dmaPause .manager c) s = .next (settled s u)
        ∧ u.chState c = s.chState c ∧ u.dma = s.dma)
    ∧ (∀ s (c : Fin 256), s.day = true → s.chState c = chPausing → s.instState (s.dmaHolder c) ≠ 6 →
      s.instState (s.dmaHolder c) ≠ 7 → ∃ u, exec (.pauseDrained c) s = .next (settledMem s (s.dmaDrain c).1 u)
        ∧ u.chState c = chPaused ∧ 292 ∈ u.raised)
    ∧ (∀ s (c : Fin 256), s.day = false ∨ s.chState c ≠ chPausing ∨ s.instState (s.dmaHolder c) = 6
        ∨ s.instState (s.dmaHolder c) = 7 →
      exec (.pauseDrained c) s = .next (settledMem s [] s))
    ∧ (∀ s (c : Fin 256), s.awake = true → s.chState c = chPaused → (s.chan c).unfinished = false → ∃ u,
      exec (.dmaResume .manager c) s = .next (settled s u) ∧ u.chState c = chIdle)
    ∧ (∀ s (c : Fin 256), s.awake = true → s.chState c = chPaused → (s.chan c).unfinished = true →
      s.dmaHeld = true ∨ s.flag F.ENG_STATUS.busy (c.val / 16) = true →
      exec (.dmaResume .manager c) s = .next (settled s (s.fset F.CH_STATUS.state chReady c)))
    ∧ (∀ s (c : Fin 256), s.awake = true → s.chState c = chPaused → (s.chan c).unfinished = true → (s.chan c).desc ≠ [] →
      s.dmaHeld = false → s.flag F.ENG_STATUS.busy (c.val / 16) = false →
      (∀ d, d < 256 → d / 16 = c.val / 16 → s.chState d ≠ chReady) → ∃ u,
      exec (.dmaResume .manager c) s = .next (settled s u) ∧ u.chState c = chRunning
        ∧ u.flag F.ENG_STATUS.busy (c.val / 16) = true ∧ (u.chan c).desc = (s.chan c).desc
        ∧ u.get .CH_DONE_BYTES c = s.get .CH_DONE_BYTES c ∧ u.chCur c = s.chCur c)
    ∧ (∀ s (c : Fin 256), s.awake = true → s.chState c ≠ chPaused → exec (.dmaResume .manager c) s = .next (settled s s))
    ∧ (∀ s a (c : Fin 256), a ≠ .manager ∨ s.awake = false →
      exec (.dmaPause a c) s = .next (settled s (s.emit (.busError a)))
        ∧ exec (.dmaResume a c) s = .next (settled s (s.emit (.busError a)))))
  ∧ ((∀ s (n : Fin 8) (v : W32), s.awake = true → s.flag F.CRC_STATUS.busy n = false →
      exec (.crcData .manager n v) s = .next (settled s (s.crcFeed n [v.extractLsb' 0 8, v.extractLsb' 8 8, v.extractLsb' 16 8,
        v.extractLsb' 24 8]))
        ∧ exec (.crcDataB .manager n v) s = .next (settled s (s.crcFeed n [v.extractLsb' 0 8]))
        ∧ exec (.crcInit .manager n) s = .next (settled s (s.setCrcReg n (s.crcParam .CRC_INIT n))))
    ∧ (∀ s (n : Fin 8) (v : W32), s.awake = true → s.flag F.CRC_STATUS.busy n = true →
      exec (.crcData .manager n v) s = .next (settled s (s.fset F.CRC_STATUS.feed_lost 1 n))
        ∧ exec (.crcDataB .manager n v) s = .next (settled s (s.fset F.CRC_STATUS.feed_lost 1 n))
        ∧ exec (.crcInit .manager n) s = .next (settled s (s.fset F.CRC_STATUS.feed_lost 1 n)))
    ∧ (∀ s a (n : Fin 8) v, a ≠ .manager ∨ s.awake = false →
      exec (.crcData a n v) s = .next (settled s (s.emit (.busError a)))
        ∧ exec (.crcDataB a n v) s = .next (settled s (s.emit (.busError a)))
        ∧ exec (.crcInit a n) s = .next (settled s (s.emit (.busError a)))))

/-- DESCRIPTOR_COMPLETE (R312 to R315): the completion code is recorded and a COPY moves its bytes and no other; an
error ends the run and is signalled; a ring writes the descriptor back and steps its head, a list appends a record
where the descriptor asks for one or fails, and a full queue loses it; after the last descriptor the channel is IDLE,
else the next one is read. -/
def Obligations.DescriptorCompletes : Prop :=
  (∀ s (e : Fin 16) c w code v, InProgress s e c → w = s.dmaMove c (s.chan c).desc (s.dmaLeft c) →
    code = (if (s.chan c).readable = false ∨ descOk (s.chRing c) (s.chan c).desc = false then dmaDescErr
      else if w.code = 0 then dmaDone else w.code) → v = completedState w c code → ∃ u,
    exec (.descriptorComplete e) s =
        .next (settledMem s (workStores w ++ (v.dmaSignals c code (v.get .CH_DONE_BYTES c).toNat).1) u)
      ∧ u.fget F.CH_STATUS.last c = code
      ∧ (code ≠ dmaDone → u.chState c = chIdle ∧ (s.dmaHolder c = 0 ∨ 64 ≤ s.dmaHolder c → 289 ∈ u.raised))
      ∧ (code ≠ dmaDone ∨ s.dmaIrq c = true → (s.dmaHolder c = 0 → 288 ∈ u.raised)
          ∧ (64 ≤ s.dmaHolder c → 280 + (s.dmaHolder c - 64) ∈ u.raised))
      ∧ (s.chRing c = true → u.fget F.CH_STATUS.head c = (s.chHead c + 1) % 2 ^ s.chRingLog c % 4096)
      ∧ (s.chRing c = false → (code ≠ dmaDone ∨ s.dmaIrq c = true) →
          (v.fget F.CH_CQ_HEAD.tail c % 2 ^ v.cqLog c + 1) % 2 ^ v.cqLog c = v.fget F.CH_CQ_HEAD.head c % 2 ^ v.cqLog c →
          u.flag F.CH_STATUS.cq_overflow c = true ∧ 291 ∈ u.raised)
      ∧ (code = dmaDone → descBit (s.chan c).desc 9 = true → c ∉ s.dmaListeners 2 c → u.chState c = chIdle))
  ∧ (∀ s (e : Fin 16) c w, InProgress s e c → s.chRing c = false → (s.chan c).readable = true →
    descOk false (s.chan c).desc = true → descBit (s.chan c).desc 3 = false →
    w = s.dmaMove c (s.chan c).desc (s.dmaLeft c) → w.code = 0 → ∃ u,
    exec (.descriptorComplete e) s = .next (settledMem s (workStores w) u))
  ∧ (∀ s (e : Fin 16) c w, InProgress s e c → s.chRing c = false → (s.chan c).readable = true →
    descOk false (s.chan c).desc = true → descBit (s.chan c).desc 9 = false → s.flag F.PMU_STATE_STATUS.entering = false →
    w = s.dmaMove c (s.chan c).desc (s.dmaLeft c) → w.code = 0 → ∃ x u,
    exec (.descriptorComplete e) s = .next (settledMem s x u) ∧ u.chState c = chRunning
      ∧ u.chCur c = descNext (s.chan c).desc ∧ u.get .CH_DONE_BYTES c = 0)
  ∧ (∀ s (e : Fin 16) c d, InProgress s e c → s.chRing c = false → d = (s.chan c).desc → (s.chan c).readable = true →
    descOk false d = true → descMode d = 0 → descRows d = 1 → descBit d 9 = true → descBit d 3 = false →
    descBit d 4 = false → s.get .CH_DONE_BYTES c = 0 → Reaches s (.dma c) (s.dmaHolder c) (descSrc d) (descLength d) false →
    Reaches s (.dma c) (s.dmaHolder c) (descDst d) (descLength d) true →
    descSrc d + descLength d ≤ descDst d ∨ descDst d + descLength d ≤ descSrc d → ∃ t,
    exec (.descriptorComplete e) s = .next t
      ∧ (∀ k, k < descLength d → t.readByte (descDst d + k) = s.readByte (descSrc d + k))
      ∧ (∀ a, a < descDst d ∨ descDst d + descLength d ≤ a → t.readByte a = s.readByte a))
  ∧ (∀ s (e : Fin 16) c, c = 16 * e.val + s.fget F.ENG_STATUS.channel e → s.day = false ∨ s.flag F.ENG_STATUS.busy e = false
      ∨ s.chState c ≠ chRunning ∨ (s.chan c).crcWait = true →
    exec (.descriptorComplete e) s = .next (settledMem s [] s))

/-- CRC_CHECK (R321): a write of 1 to `check` compares the result with CRC_EXPECT: a match sets `match`, a mismatch
clears it and raises EV_CRC_MISMATCH of the channel (events 312 to 319). Another agent than the manager gets an error
response. -/
def Obligations.CrcCheckCompares : Prop :=
  (∀ s (n : Fin 8), s.awake = true →
    s.crcResult n = (s.get .CRC_EXPECT n 1).toNat * 2 ^ 32 + (s.get .CRC_EXPECT n 0).toNat →
    exec (.crcCheck .manager n) s = .next (settled s (s.fset F.CRC_STATUS.match_ 1 n)))
  ∧ (∀ s (n : Fin 8), s.awake = true →
    s.crcResult n ≠ (s.get .CRC_EXPECT n 1).toNat * 2 ^ 32 + (s.get .CRC_EXPECT n 0).toNat →
    exec (.crcCheck .manager n) s = .next (settled s ((s.fset F.CRC_STATUS.match_ 0 n).raise (312 + n.val))))
  ∧ (∀ s a (n : Fin 8), a ≠ .manager ∨ s.awake = false →
    exec (.crcCheck a n) s = .next (settled s (s.emit (.busError a))))

/-- REGISTER_WRITE of CH_BASE, CH_CQ and CH_CQ_HEAD (R318): a write to CH_BASE or CH_CQ of a channel that is not IDLE
has no effect; of an IDLE one it changes the fields for the owner and none for another agent; CH_CQ_HEAD takes effect
in every state. -/
def Obligations.ChannelBaseWrites : Prop :=
  (∀ s a sp addr v key via, addr % 4 = 0 → s.reaches a sp addr = .reg key via →
    key.reg ∈ [Reg.CH_BASE_LO, .CH_BASE_HI, .CH_CQ_LO, .CH_CQ_HI] → s.chState key.i ≠ chIdle →
    exec (.registerWrite a sp addr 4 v) s = .next (settledMem s [] s))
  ∧ (∀ s a sp addr v key via, addr % 4 = 0 → s.reaches a sp addr = .reg key via →
    key.reg ∈ [Reg.CH_BASE_LO, .CH_BASE_HI, .CH_CQ_LO, .CH_CQ_HI] → s.chState key.i = chIdle →
    exec (.registerWrite a sp addr 4 v) s = .next (settledMem s [] (s.put key.reg
      (nextWord key.reg (grant a key via) (s.get key.reg key.i key.k) (v.truncate 32)) key.i key.k)))
  ∧ (∀ s a sp addr v key via, addr % 4 = 0 → s.reaches a sp addr = .reg key via → key.reg = .CH_CQ_HEAD →
    exec (.registerWrite a sp addr 4 v) s = .next (settledMem s [] (s.put key.reg
      (nextWord key.reg (grant a key via) (s.get key.reg key.i key.k) (v.truncate 32)) key.i key.k)))
  ∧ (∀ a (key : RegKey) via (old v : W32), key.reg ∈ [Reg.CH_BASE_LO, .CH_BASE_HI, .CH_CQ_LO, .CH_CQ_HI, .CH_CQ_HEAD] →
    nextWord key.reg (grant a key via) old v =
      if ownsCopy a key via then (old &&& ~~~ key.reg.maskOf (fun f => f.access == .rw)) |||
        (v &&& key.reg.maskOf (fun f => f.access == .rw)) else old)

/-- TOUCH_FRAME, TOUCH_FRAME_RESULT (R323 to R332): a frame on the grid listens, scans at the quietest frequency and
runs discarded codes again; its result is reported with the frame's ST and counted; a region is pressed by a clean
contact inside it and released when none is left; the eighth frame after an enable sets the baselines.

REBASELINE, CONTROLLER_ENABLE, TCH_REPORT_HDR_READ, WAKE_GESTURE_SCAN (R329, R330, R332, R333): a controller starts
its baseline anew; one that the recipe leaves out cannot be enabled; a read of the header latches the report for its
agent; in Night a double tap or a swipe in the wake region wakes the device. -/
def Obligations.TouchControllers : Prop :=
  ((∀ s (c : Fin 4) noise codes rows cols, s.frameDue c = true → ∃ u,
      exec (.touchFrame c noise codes rows cols) s = .next (settled s u)
        ∧ (∃ fr r, (u.tc c).scans.getLast? = some fr ∧ fr.fs = s.gridTime ∧ fr.hop = (quietest noise []).getD 0
            ∧ fr.thresh = s.get .TCH_THRESH c ∧ r = s.frameCodes c fr.hop noise codes
            ∧ fr.stale = staleOf (u8 (s.recipe.tch c) 0) r.codes ∧ fr.nodes = r.codes.flatMap (·.nodes)
            ∧ fr.rows = rows ∧ fr.cols = cols)
        ∧ (∀ k, k < 8 → u.get .TCH_NOISE c k = BitVec.ofNat 32 (min (noise.getD k 0) 65535))
        ∧ (∀ r i k, r ≠ .TCH_NOISE → r ≠ .TCH_RERUN_COUNT → u.get r i k = s.get r i k)
        ∧ (∀ d, d ≠ c.val → u.tc d = s.tc d) ∧ u.raised = s.raised)
    ∧ (∀ s (c : Fin 4) noise codes rows cols, s.frameDue c = false →
      exec (.touchFrame c noise codes rows cols) s = .next (settled s s))
    ∧ (∀ s (c : Fin 4) fr, ResultDue s c fr → ∃ u, exec (.touchFrameResult c) s = .next (settled s u)
        ∧ 320 + c.val ∈ u.raised ∧ u.get64 .TCH_FRAME_ST_LO .TCH_FRAME_ST_HI c = fr.fs
        ∧ u.fget F.TCH_CSTATUS.stale_rows c = fr.stale.length % 2 ^ F.TCH_CSTATUS.stale_rows.width
        ∧ u.fget F.TCH_REPORT_HDR.frames c = (s.fget F.TCH_REPORT_HDR.frames c + 1) % 2 ^ F.TCH_REPORT_HDR.frames.width
        ∧ fr ∉ (u.tc c).scans)
    ∧ (∀ s (c : Fin 4) fr, ResultDue s c fr → (s.tc c).frames < 8 → (s.tc c).skip = 0 → ∃ u,
      exec (.touchFrameResult c) s = .next (settled s u) ∧ (u.tc c).frames = (s.tc c).frames + 1
        ∧ ((s.tc c).frames = 7 → u.flag F.TCH_CSTATUS.base_fault c = !(u.tc c).dead.isEmpty
            ∧ ((u.tc c).dead ≠ [] → 335 ∈ u.raised)))
    ∧ (∀ s (c : Fin 4) fr g, ResultDue s c fr → 8 ≤ (s.tc c).frames → fr.stale = [] → s.recipe.regionsOf c = [g] →
      s.regionBit .TCH_DEGRADED c (u8 g 1) = false → s.regionBit .TCH_REGION c (u8 g 1) = false →
      (∃ k ∈ s.contactsNow c fr, k.lifted = false ∧ k.stale = false ∧ inRegion g k = true) → ∃ u,
      exec (.touchFrameResult c) s = .next (settled s u) ∧ u.regionBit .TCH_REGION c (u8 g 1) = true ∧ 324 + c.val ∈ u.raised)
    ∧ (∀ s (c : Fin 4) fr g, ResultDue s c fr → 8 ≤ (s.tc c).frames → fr.stale = [] → s.recipe.regionsOf c = [g] →
      s.regionBit .TCH_DEGRADED c (u8 g 1) = false → s.regionBit .TCH_REGION c (u8 g 1) = true →
      (∀ k ∈ s.contactsNow c fr, k.lifted = false → inRegion g k = false) → ∃ u,
      exec (.touchFrameResult c) s = .next (settled s u) ∧ u.regionBit .TCH_REGION c (u8 g 1) = false
        ∧ 324 + c.val ∈ u.raised)
    ∧ (∀ s (c : Fin 4), s.up = false ∨ s.flag F.TCH_CTRL.enable c = false ∨ 2 < s.pwr.state
        ∨ (s.tc c).scans.find? (fun f => resultTime f.fs == s.gridTime.toNat) = none →
      exec (.touchFrameResult c) s = .next (settled s s)))
  ∧ ((∀ s (c : Fin 4), s.clocked .TCH = true → ∃ u, exec (.rebaseline .manager c) s = .next (settled s u) ∧ (u.tc c).frames = 0
        ∧ (u.tc c).baseM = [] ∧ (u.tc c).dead = [] ∧ (u.tc c).suspect = [] ∧ (u.tc c).scans = (s.tc c).scans
        ∧ u.flag F.TCH_CSTATUS.base_fault c = false ∧ u.hasBit .TCH_STATUS (8 + c.val) = false
        ∧ (∀ d, d ≠ c.val → u.tc d = s.tc d))
    ∧ (∀ s (c : Fin 4) en, s.clocked .TCH = true → bit s.recipe.tchMask c = 1 → ∃ u,
      exec (.controllerEnable .manager c en) s = .next (settled s u) ∧ u.flag F.TCH_CTRL.enable c = en ∧ u.hasBit .TCH_STATUS c = en
        ∧ u.tc c = (if en = true ∧ s.flag F.TCH_CTRL.enable c = false then TouchCtrl.initial else s.tc c))
    ∧ (∀ s (c : Fin 4) en, s.clocked .TCH = true → bit s.recipe.tchMask c = 0 →
      exec (.controllerEnable .manager c en) s = .next (settled s s))
    ∧ (∀ s (c : Fin 4), s.clocked .TCH = true → ∃ u, exec (.tchReportHdrRead .manager c) s = .next (settled s u)
        ∧ u.sent = .readValue .manager (s.get .TCH_REPORT_HDR c) :: s.sent ∧ u.regs = s.regs
        ∧ u.reportWord .manager .TCH_FRAME_ST_LO c 0 = some (s.get .TCH_FRAME_ST_LO c)
        ∧ ∀ k, k < 16 → u.reportWord .manager .TCH_CONTACT_A c k = some (s.get .TCH_CONTACT_A c k)
            ∧ u.reportWord .manager .TCH_CONTACT_B c k = some (s.get .TCH_CONTACT_B c k))
    ∧ (∀ s a (c : Fin 4) en, a ≠ .manager ∨ s.clocked .TCH = false →
      exec (.rebaseline a c) s = .next (settled s (s.emit (.busError a)))
        ∧ exec (.controllerEnable a c en) s = .next (settled s (s.emit (.busError a)))
        ∧ exec (.tchReportHdrRead a c) s = .next (settled s (s.emit (.busError a))))
    ∧ (∀ s rows cols p c x, s.wakeScanDue = true → s.wakeContact rows cols = some p → c = s.recipe.wakeCtrl → x = s.tc c →
      s.recipe.wakeGesture = 2 → (∃ e ∈ x.trail, (s.gridTime - e.1).toNat ≤ 500000000 ∧
        swiped s.recipe.swipeDir s.recipe.swipeLen e.2 p = true) →
      exec (.wakeGestureScan rows cols) s = .next (settled s ((s.setTc c { x with trail := (s.gridTime, p) :: x.trail }).wake 7)))
    ∧ (∀ s rows cols p c x, s.wakeScanDue = true → s.wakeContact rows cols = some p → c = s.recipe.wakeCtrl → x = s.tc c →
      (s.recipe.wakeGesture ≠ 2 ∨ ∀ e ∈ x.trail, 500000000 < (s.gridTime - e.1).toNat ∨
        swiped s.recipe.swipeDir s.recipe.swipeLen e.2 p = false) →
      exec (.wakeGestureScan rows cols) s = .next (settled s (s.setTc c { x with trail := (s.gridTime, p) :: x.trail })))
    ∧ (∀ s rows cols c x h f a b, s.wakeScanDue = true → s.wakeContact rows cols = none → c = s.recipe.wakeCtrl → x = s.tc c →
      x.trail.head? = some h → x.trail.getLast? = some f → x.tap = some a → b = (f.1, h.1, h.2) →
      s.recipe.wakeGesture = 1 → doubleTap a b = true →
      exec (.wakeGestureScan rows cols) s = .next (settled s ((s.setTc c { x with trail := [], tap := some b }).wake 7)))
    ∧ (∀ s rows cols c x h f b, s.wakeScanDue = true → s.wakeContact rows cols = none → c = s.recipe.wakeCtrl → x = s.tc c →
      x.trail.head? = some h → x.trail.getLast? = some f → b = (f.1, h.1, h.2) →
      (s.recipe.wakeGesture ≠ 1 ∨ x.tap = none ∨ ∃ a, x.tap = some a ∧ doubleTap a b = false) →
      exec (.wakeGestureScan rows cols) s = .next (settled s (s.setTc c { x with trail := [], tap := some b })))
    ∧ (∀ s rows cols, s.wakeScanDue = true → s.wakeContact rows cols = none → (s.tc s.recipe.wakeCtrl).trail = [] →
      exec (.wakeGestureScan rows cols) s = .next (settled s s))
    ∧ (∀ s rows cols, s.wakeScanDue = false → exec (.wakeGestureScan rows cols) s = .next (settled s s))
    ∧ (∀ s : State, s.up = true → s.pwr.state = 3 → s.hasBit .PMU_WAKE_EN 7 = true → (s.wake 7).pwr.exiting = true))

/-- HAP_CH_FIRE, HAP_STOP, CLEAR_FAULT, DRIVE_SAMPLE (R334 to R337): an accepted fire begins with its overdrive, the
second of a sample is dropped, a refused one only reports; a stop brakes; each sample advances the sine and its end
of cycle the phases of the waveform; a sample at the limit raises the overcurrent, and a third cycle at the limit
ends in FAULT until it is cleared; a first cycle below the least current is an open load. -/
def Obligations.HapticChannels : Prop :=
  (∀ s (ch : Fin 16) w amp, s.hapAccepts ch w.toNat = true → s.hapRival ch = none → ∃ u,
    exec (.hapChFire .manager ch w amp) s = .next (settled s u)
      ∧ u.hapState ch = (if 0 < waveOd (s.recipe.wave w.toNat) then hapOverdrive else hapDrive)
      ∧ u.fget F.HAP_CH_STATUS.waveform ch = w.toNat % 2 ^ F.HAP_CH_STATUS.waveform.width ∧ (u.hapCh ch).amplitude = amp.toNat
      ∧ u.hasBit .HAP_STATUS ch = true
      ∧ u.fget F.HAP_CH_FIRE_COUNT.count ch = (s.fget F.HAP_CH_FIRE_COUNT.count ch + 1) % 2 ^ F.HAP_CH_FIRE_COUNT.count.width
      ∧ (∀ n, n ≠ ch.val → u.hapState n = s.hapState n ∧ u.hapCh n = s.hapCh n) ∧ u.raised = s.raised)
  ∧ (∀ s (ch : Fin 16) w amp old, s.hapAccepts ch w.toNat = true → s.hapRival ch = some old → old.rank ≤ 3000 →
    exec (.hapChFire .manager ch w amp) s = .next (settled s ((s.bump F.HAP_CH_DROP_COUNT.count ch).raise 339)))
  ∧ (∀ s (ch : Fin 16) w amp, s.awake = true → s.hapAccepts ch w.toNat = false →
    exec (.hapChFire .manager ch w amp) s = .next (settled s (s.fset F.HAP_CH_STATUS.refused 1 ch)))
  ∧ (∀ s (ch : Fin 16), s.awake = true → s.hapState ch = hapOverdrive ∨ s.hapState ch = hapDrive → ∃ u,
    exec (.hapStop .manager ch) s = .next (settled s u)
      ∧ u.hapState ch = (if 0 < waveBrake (s.hapWave ch) then hapBrake else hapIdle)
      ∧ (waveBrake (s.hapWave ch) = 0 → u.raised = s.raised ++ [336])
      ∧ (0 < waveBrake (s.hapWave ch) → u.raised = s.raised))
  ∧ (∀ s (ch : Fin 16), s.awake = true → s.hapState ch ≠ hapOverdrive → s.hapState ch ≠ hapDrive →
    exec (.hapStop .manager ch) s = .next (settled s s))
  ∧ (∀ s (ch : Fin 16), s.awake = true → s.hapState ch = hapFault → ∃ u, exec (.clearFault .manager ch) s =
    .next (settled s u) ∧ u.hapState ch = hapIdle ∧ u.hasBit .HAP_STATUS (16 + ch.val) = false)
  ∧ (∀ s (ch : Fin 16), s.awake = true → s.hapState ch ≠ hapFault → exec (.clearFault .manager ch) s = .next (settled s s))
  ∧ (∀ s a (ch : Fin 16) w amp c, c ∈ [Instr.hapChFire a ch w amp, .hapStop a ch, .clearFault a ch] →
    a ≠ .manager ∨ s.awake = false → exec c s = .next (settled s (s.emit (.busError a))))
  ∧ (∀ s (ch : Fin 16) mA, s.awake = false ∨ s.hapPlaying ch = false → exec (.driveSample ch mA) s = .next (settled s s))
  ∧ (∀ s (ch : Fin 16) mA x f, s.awake = true → s.hapPlaying ch = true → mA < hapImax (s.recipe.hapCh ch) → x = s.hapCh ch →
    f = waveFreq (s.hapWave ch) → x.prog + f < 200000 → exec (.driveSample ch mA) s = .next (settled s ((s.setHap ch
      { x with peak := max x.peak mA, phase := (x.phase + f) % 200000, prog := x.prog + f }).hapPins ch (s.hapState ch))))
  ∧ (∀ s (ch : Fin 16) mA x w n, s.awake = true → s.hapPlaying ch = true → mA < hapImax (s.recipe.hapCh ch) →
    x = s.hapCh ch → x.limited = false → w = s.hapWave ch → 200000 ≤ x.prog + waveFreq w → n = x.cycles + 1 → ∃ u,
    exec (.driveSample ch mA) s = .next (settled s u)
      ∧ u.fget F.HAP_CH_PEAK_I.ma ch = min (max x.peak mA) 65535
      ∧ u.hapState ch = phaseAfter w n (s.hapState ch)
      ∧ (u.hapCh ch).limitRun = 0
      ∧ (x.firstDone = false → max x.peak mA < hapImin (s.recipe.hapCh ch) → u.flag F.HAP_CH_STATUS.open_ ch = true ∧ 340 ∈ u.raised)
      ∧ (phaseAfter w n (s.hapState ch) = hapIdle → 336 ∈ u.raised))
  ∧ (∀ s (ch : Fin 16) mA, s.awake = true → s.hapPlaying ch = true → hapImax (s.recipe.hapCh ch) ≤ mA → ∃ u,
    exec (.driveSample ch mA) s = .next (settled s u) ∧ u.flag F.HAP_CH_STATUS.overcurrent ch = true
      ∧ ((s.hapCh ch).ocRaised = false → 337 ∈ u.raised)
      ∧ ((s.hapCh ch).limitRun = 2 → 200000 ≤ (s.hapCh ch).prog + waveFreq (s.hapWave ch) →
          u.hapState ch = hapFault ∧ 338 ∈ u.raised))

/-- DMX_COMMIT_REGISTER, DMX_FETCH_DONE, DMX_FRAME_END, DMX_REFRESH (R343 to R345): an accepted commit starts a frame
from the registers as they stand, its bytes are the start code and the slots in memory, and a port that is not ready
refuses and counts.

DMX_RX_SLOT, DMX_RX_FRAME_END, DMX_RX_INFO_READ (R346): a break of 88 µs with a mark of 8 µs starts a frame; its
bytes are stored one behind the other in the half in use and nothing else is stored, a low stop bit discards the
frame, and a whole frame is recorded with the ST of its break and raises EV_SIO_DMX_RX. -/
def Obligations.DmxPorts : Prop :=
  ((∀ s (p : Fin 16), s.dmxAccepts p = true → ∃ u, exec (.dmxCommitRegister .manager p) s = .next (settled s u)
        ∧ u.dmxState p = dmxFrame ∧ (u.dmxPort p).fetched = false ∧ (u.dmxPort p).startTick = s.tim.ticks
        ∧ (u.dmxPort p).liveCfg = s.get .DMX_CFG p ∧ (u.dmxPort p).liveTiming = s.get .DMX_TIMING p
        ∧ (u.dmxPort p).liveTiming2 = s.get .DMX_TIMING2 p ∧ (u.dmxPort p).last = (s.dmxPort p).last
        ∧ u.sent = .dmxBreak p (s.fget F.DMX_TIMING.break_us p) (s.fget F.DMX_TIMING.mab_us p) :: s.sent
        ∧ (∀ q, q ≠ p.val → u.dmxPort q = s.dmxPort q ∧ u.dmxState q = s.dmxState q))
    ∧ (∀ s (p : Fin 16), s.awake = true → s.dmxAccepts p = false → exec (.dmxCommitRegister .manager p) s =
      .next (settled s ((s.bump F.DMX_REFUSED_COUNT.count p).fset F.DMX_STATUS.refused 1 p)))
    ∧ (∀ s (p : Fin 16) x b, s.up = true → s.dmxState p = dmxFrame → x = s.dmxPort p → x.fetched = false →
      b = BitVec.ofNat 8 (F.DMX_CFG.start_code.of x.liveCfg) :: (s.dmxSlots p).1 → ∃ u,
      exec (.dmxFetchDone p) s = .next (settled s u) ∧ (u.dmxPort p).last = some b ∧ (u.dmxPort p).fetched = true
        ∧ (u.dmxPort p).endTick = max s.tim.ticks x.markEnd + slotsNs (b.length - 1) (F.DMX_TIMING2.interslot_us.of x.liveTiming2)
        ∧ u.sent.head? = some (.dmxSlots p (F.DMX_TIMING2.interslot_us.of x.liveTiming2) b)
        ∧ (x.markEnd < s.tim.ticks → 344 ∈ u.raised
            ∧ u.get .DMX_LATE_FETCH_COUNT p = (s.bump F.DMX_LATE_FETCH_COUNT.count p).get .DMX_LATE_FETCH_COUNT p)
        ∧ (s.tim.ticks ≤ x.markEnd → u.get .DMX_LATE_FETCH_COUNT p = s.get .DMX_LATE_FETCH_COUNT p))
    ∧ (∀ s (p : Fin 16), s.up = false ∨ s.dmxState p ≠ dmxFrame ∨ (s.dmxPort p).fetched = true →
      exec (.dmxFetchDone p) s = .next (settled s s))
    ∧ (∀ s (p : Fin 16), s.up = true → s.dmxState p = dmxFrame → (s.dmxPort p).fetched = true →
      (s.dmxPort p).endTick ≤ s.tim.ticks →
      exec (.dmxFrameEnd p) s = .next (settled s (s.fset F.DMX_STATUS.state dmxIdle p)))
    ∧ (∀ s (p : Fin 16), s.up = false ∨ s.dmxState p ≠ dmxFrame ∨ (s.dmxPort p).fetched = false
        ∨ s.tim.ticks < (s.dmxPort p).endTick → exec (.dmxFrameEnd p) s = .next (settled s s))
    ∧ (∀ s (p : Fin 16) b, s.dmxStale p = true → b = (s.dmxPort p).last.getD [] → ∃ u,
      exec (.dmxRefresh p) s = .next (settled s u) ∧ u.dmxState p = dmxFrame ∧ (u.dmxPort p).fetched = true
        ∧ (u.dmxPort p).last = (s.dmxPort p).last
        ∧ u.sent = .dmxSlots p (s.fget F.DMX_TIMING2.interslot_us p) b
            :: .dmxBreak p (s.fget F.DMX_TIMING.break_us p) (s.fget F.DMX_TIMING.mab_us p) :: s.sent)
    ∧ (∀ s (p : Fin 16), s.dmxStale p = false → exec (.dmxRefresh p) s = .next (settled s s)))
  ∧ ((∀ s (p : Fin 16) v x a, s.dmxReceives p = true → x = s.dmxPort p → x.rxBreak.isSome = true → x.rxBad = false →
      x.rxBytes.length < 513 → a = s.dmxBuf p + 1024 * x.rxHalf + x.rxBytes.length →
      Reaches s .io (s.dmxHolder p) a 1 true → ∃ t, exec (.dmxRxSlot p v true none) s = .next t ∧ t.readByte a = v
        ∧ (∀ b, b ≠ a → t.readByte b = s.readByte b) ∧ (t.dmxPort p).rxBytes = x.rxBytes ++ [v])
    ∧ (∀ s (p : Fin 16) v x, s.dmxReceives p = true → x = s.dmxPort p → x.rxBreak.isSome = true → x.rxBad = false →
      x.rxBytes.length < 513 → ∃ u, exec (.dmxRxSlot p v true none) s = .next (settledMem s
        (s.engineWrite .io (s.dmxHolder p) (s.dmxBuf p + 1024 * x.rxHalf + x.rxBytes.length) [v]).stores u)
        ∧ (u.dmxPort p).rxBytes = x.rxBytes ++ [v] ∧ (u.dmxPort p).rxBad = false)
    ∧ (∀ s (p : Fin 16) v, s.dmxReceives p = true → (s.dmxPort p).rxBreak.isSome = true → (s.dmxPort p).rxBad = false →
      (s.dmxPort p).rxBytes.length < 513 → exec (.dmxRxSlot p v false none) s = .next (settledMem s []
        (((s.setDmx p { s.dmxPort p with rxBad := true }).bump F.DMX_RX_ERR_COUNT.count p).raise 346)))
    ∧ (∀ s (p : Fin 16) v ok, s.dmxReceives p = true → (s.dmxPort p).rxBreak = none ∨ (s.dmxPort p).rxBad = true
        ∨ 513 ≤ (s.dmxPort p).rxBytes.length → exec (.dmxRxSlot p v ok none) s = .next (settledMem s [] s))
    ∧ (∀ s (p : Fin 16) v ok b, s.dmxReceives p = false → exec (.dmxRxSlot p v ok b) s = .next (settledMem s [] s))
    ∧ (∀ s (p : Fin 16) v b, s.dmxReceives p = true → 88000 ≤ b.lowNs → 8000 ≤ b.markNs → ∃ w u,
      exec (.dmxRxSlot p v true (some b)) s = .next (settledMem s w u) ∧ (u.dmxPort p).rxBreak = some b.st
        ∧ (u.dmxPort p).rxBytes = [v] ∧ (u.dmxPort p).rxBad = false
        ∧ ((s.dmxPort p).rxBreak.isSome = true → (s.dmxPort p).rxBad = false → (s.dmxPort p).rxBytes ≠ [] → 345 ∈ u.raised))
    ∧ (∀ s (p : Fin 16) v ok b, s.dmxReceives p = true → 88000 ≤ b.lowNs → b.markNs < 8000 → ∃ u,
      exec (.dmxRxSlot p v ok (some b)) s = .next (settledMem s [] u) ∧ (u.dmxPort p).rxBreak = none)
    ∧ (∀ s (p : Fin 16) v ok b, s.dmxReceives p = true → b.lowNs < 88000 → (s.dmxPort p).rxBreak.isSome = true →
      (s.dmxPort p).rxBad = false → exec (.dmxRxSlot p v ok (some b)) s = .next (settledMem s []
        (((s.setDmx p { s.dmxPort p with rxBad := true }).bump F.DMX_RX_ERR_COUNT.count p).raise 346)))
    ∧ (∀ s (p : Fin 16) st x, s.dmxReceives p = true → x = s.dmxPort p → x.rxBreak = some st → x.rxBad = false → x.rxBytes ≠ [] →
      x.rxHalf < 2 → x.rxBytes.length ≤ 513 → ∃ u, exec (.dmxRxFrameEnd p) s = .next (settled s u)
        ∧ u.flag F.DMX_RX_INFO.valid p = true ∧ u.fget F.DMX_RX_INFO.slots p = x.rxBytes.length - 1
        ∧ u.fget F.DMX_RX_INFO.half p = x.rxHalf ∧ u.fget F.DMX_RX_INFO.start_code p = (x.rxBytes.getD 0 0).toNat
        ∧ u.get64 .DMX_RX_ST_LO .DMX_RX_ST_HI p = st ∧ (u.dmxPort p).rxBytes = [] ∧ (u.dmxPort p).rxHalf = 1 - x.rxHalf
        ∧ u.raised = s.raised ++ [345])
    ∧ (∀ s (p : Fin 16), s.dmxReceives p = true → (s.dmxPort p).rxBreak.isSome = true →
      (s.dmxPort p).rxBad = true ∨ (s.dmxPort p).rxBytes = [] → exec (.dmxRxFrameEnd p) s =
        .next (settled s (s.setDmx p { s.dmxPort p with rxBytes := [], rxBad := false, rxBreak := none })))
    ∧ (∀ s (p : Fin 16), s.dmxReceives p = false ∨ (s.dmxPort p).rxBreak = none →
      exec (.dmxRxFrameEnd p) s = .next (settled s s))
    ∧ (∀ s (p : Fin 16), s.awake = true → ∃ u, exec (.dmxRxInfoRead .manager p) s = .next (settled s u) ∧ u.regs = s.regs
        ∧ u.sent = .readValue .manager (s.get .DMX_RX_INFO p) :: s.sent
        ∧ u.latched .manager .DMX_RX_ST_LO p = some (s.get .DMX_RX_ST_LO p)
        ∧ u.latched .manager .DMX_RX_ST_HI p = some (s.get .DMX_RX_ST_HI p)))

/-- RDM_TRANSACTION, RDM_DISCOVERY, RDM_START, RDM_RESPONSE, RDM_TIMEOUT (R347 to R349): a transaction is queued and
held while it does not fit before the grid point, is sent with its checksum, and ends with one of the results and
EV_SIO_RDM_DONE. -/
def Obligations.RdmTransactions : Prop :=
  (∀ s (p : Fin 16) d c, s.awake = true → s.dmxMode p = modeRdm → (s.dmxPort p).rdmQueued = none →
    (s.dmxPort p).rdmRunning = none → 24 ≤ s.fget F.DMX_RDM_LEN.msg_len p →
    c = (if d then Instr.rdmDiscovery .manager p else Instr.rdmTransaction .manager p) → ∃ u, exec c s = .next (settled s u)
      ∧ (u.dmxPort p).rdmQueued = some d ∧ u.flag F.DMX_STATUS.rdm_held p = !s.rdmFits p d)
  ∧ (∀ s (p : Fin 16), s.awake = true → s.dmxMode p ≠ modeRdm ∨ (s.dmxPort p).rdmQueued.isSome = true
      ∨ (s.dmxPort p).rdmRunning.isSome = true ∨ s.fget F.DMX_RDM_LEN.msg_len p < 24 →
    exec (.rdmTransaction .manager p) s = .next (settled s s) ∧ exec (.rdmDiscovery .manager p) s = .next (settled s s))
  ∧ (∀ s (p : Fin 16) d b, s.awake = true → (s.dmxPort p).rdmQueued = some d → s.rdmFits p d = true →
    b = (s.engineRead .io (s.dmxHolder p) (s.rdmAddr p) (s.fget F.DMX_RDM_LEN.msg_len p)).bytes → ∃ u,
    exec (.rdmStart p) s = .next (settled s u) ∧ u.dmxState p = dmxRdm ∧ (u.dmxPort p).rdmQueued = none
      ∧ (u.dmxPort p).rdmRunning = some d ∧ u.flag F.DMX_STATUS.rdm_held p = false
      ∧ (u.dmxPort p).endTick = s.tim.ticks + 188000 + slotsNs (b.length + 1) 0
      ∧ u.sent.head? = some (.dmxSlots p 0 (b ++ [BitVec.ofNat 8 (rdmSum b / 256), BitVec.ofNat 8 (rdmSum b)]))
      ∧ u.sent.getD 1 (.busError .manager) = .dmxBreak p 176 12)
  ∧ (∀ s (p : Fin 16) d, s.awake = true → (s.dmxPort p).rdmQueued = some d → s.rdmFits p d = false →
    exec (.rdmStart p) s = .next (settled s (s.fset F.DMX_STATUS.rdm_held 1 p)))
  ∧ (∀ s (p : Fin 16), s.awake = false ∨ (s.dmxPort p).rdmQueued = none → exec (.rdmStart p) s = .next (settled s s))
  ∧ (∀ s (p : Fin 16) b ok, s.awake = true → (s.dmxPort p).rdmRunning = some false → ∃ u,
    exec (.rdmResponse p b ok) s = .next (settledMem s (s.engineWrite .io (s.dmxHolder p) (s.rdmAddr p + 512) b).stores u)
      ∧ u.fget F.DMX_STATUS.rdm_result p = (if ok = false then 4 else if rdmResult b true = 1 then 1 else 3)
      ∧ u.dmxState p = dmxIdle ∧ (u.dmxPort p).rdmRunning = none ∧ 347 ∈ u.raised)
  ∧ (∀ s (p : Fin 16) b uid, s.awake = true → (s.dmxPort p).rdmRunning = some true → discUid b = some uid → ∃ u,
    exec (.rdmResponse p b true) s = .next (settledMem s (s.engineWrite .io (s.dmxHolder p) (s.rdmAddr p + 512) b).stores u)
      ∧ u.fget F.DMX_STATUS.rdm_result p = 6
      ∧ u.get64 .DMX_RDM_UID_LO .DMX_RDM_UID_HI p = BitVec.ofNat 64 uid ∧ u.dmxState p = dmxIdle ∧ 347 ∈ u.raised)
  ∧ (∀ s (p : Fin 16) b ok, s.awake = true → (s.dmxPort p).rdmRunning = some true → discUid b = none ∨ ok = false → ∃ u,
    exec (.rdmResponse p b ok) s = .next (settledMem s (s.engineWrite .io (s.dmxHolder p) (s.rdmAddr p + 512) b).stores u)
      ∧ u.fget F.DMX_STATUS.rdm_result p = 7 ∧ u.dmxState p = dmxIdle ∧ 347 ∈ u.raised)
  ∧ (∀ s (p : Fin 16) b ok, s.awake = false ∨ (s.dmxPort p).rdmRunning = none →
    exec (.rdmResponse p b ok) s = .next (settledMem s [] s))
  ∧ (∀ s (p : Fin 16) d, s.awake = true → (s.dmxPort p).rdmRunning = some d → (s.dmxPort p).endTick + 2800000 ≤ s.tim.ticks →
    ∃ u, exec (.rdmTimeout p) s = .next (settled s u) ∧ u.fget F.DMX_STATUS.rdm_result p = (if d then 5 else 2)
      ∧ u.dmxState p = dmxIdle ∧ (u.dmxPort p).rdmRunning = none ∧ u.raised = s.raised ++ [347])
  ∧ (∀ s (p : Fin 16), s.awake = false ∨ (s.dmxPort p).rdmRunning = none ∨ s.tim.ticks < (s.dmxPort p).endTick + 2800000 →
    exec (.rdmTimeout p) s = .next (settled s s))

/-- MIDI_TX, MIDI_RX_BYTE, MIDI_RX_READ (R350): bytes leave and arrive in order through two FIFOs of 256, each
received byte with the ST of its start bit; a full FIFO drops the byte and says so.

LTC_LOSS, LTC_IN_TC_READ, LTC_OUT_FRAME (R77, R351, R352): three periods without a frame end the lock, a timecode
read latches stamp and user bits, and an output sends frame k of its grid at its ST with the timecode start + k, and
takes up what was written at a frame boundary at least 1 ms later. -/
def Obligations.MidiAndTimecode : Prop :=
  ((∀ s (m : Fin 4) b, s.awake = true → s.recipe.midiEnabled m = true → (s.midiPort m).tx.length < 256 → ∃ u,
      exec (.midiTx .manager m b) s = .next (settled s u) ∧ (u.midiPort m).tx = (s.midiPort m).tx ++ [b]
        ∧ (u.midiPort m).rx = (s.midiPort m).rx ∧ u.fget F.MIDI_STATUS.tx_level m = (s.midiPort m).tx.length + 1)
    ∧ (∀ s (m : Fin 4) b, s.awake = true → s.recipe.midiEnabled m = true → 256 ≤ (s.midiPort m).tx.length →
      exec (.midiTx .manager m b) s = .next (settled s (s.fset F.MIDI_STATUS.tx_overflow 1 m)))
    ∧ (∀ s (m : Fin 4) b, s.awake = true → s.recipe.midiEnabled m = false → exec (.midiTx .manager m b) s = .next (settled s s))
    ∧ (∀ s (m : Fin 4) b ferr st, s.awake = true → s.recipe.midiEnabled m = true → (s.midiPort m).rx.length < 256 → ∃ u,
      exec (.midiRxByte m b ferr st) s = .next (settled s u) ∧ (u.midiPort m).rx = (s.midiPort m).rx ++ [⟨b, ferr, st⟩]
        ∧ u.fget F.MIDI_STATUS.rx_level m = (s.midiPort m).rx.length + 1
        ∧ u.raised = s.raised ++ (if (s.midiPort m).rx = [] then [348] else []) ++ (if ferr then [349] else []))
    ∧ (∀ s (m : Fin 4) b ferr st, s.awake = true → s.recipe.midiEnabled m = true → 256 ≤ (s.midiPort m).rx.length → ∃ u,
      exec (.midiRxByte m b ferr st) s = .next (settled s u) ∧ u.flag F.MIDI_STATUS.rx_overflow m = true
        ∧ (u.midiPort m).rx = (s.midiPort m).rx ∧ u.raised = s.raised ++ (if ferr then [349] else []))
    ∧ (∀ s (m : Fin 4) b ferr st, s.awake = false ∨ s.recipe.midiEnabled m = false →
      exec (.midiRxByte m b ferr st) s = .next (settled s s))
    ∧ (∀ s (m : Fin 4) e t, s.awake = true → (s.midiPort m).rx = e :: t → ∃ u, exec (.midiRxRead .manager m) s =
      .next (settled s u) ∧ (u.midiPort m).rx = t ∧ u.get64 .MIDI_RX_ST_LO .MIDI_RX_ST_HI m = e.st
        ∧ ∃ w, u.sent = .readValue .manager w :: s.sent ∧ F.MIDI_RX.byte.of w = e.byte.toNat ∧ F.MIDI_RX.valid.of w = 1
          ∧ F.MIDI_RX.ferr.of w = e.ferr.toNat ∧ (F.MIDI_RX.rt.of w = 1 ↔ 0xF8 ≤ e.byte.toNat))
    ∧ (∀ s (m : Fin 4), s.awake = true → (s.midiPort m).rx = [] →
      exec (.midiRxRead .manager m) s = .next (settled s (s.answer .manager 0))))
  ∧ ((∀ s (i : Fin 2) edges, s.awake = true → s.recipe.ltcEnabled i = true → s.ltcOverdue i = true → ∃ u,
      exec (.ltcLoss i edges) s = .next (settled s u) ∧ u.flag F.LTC_IN_STATUS.locked i = false
        ∧ u.flag F.LTC_IN_STATUS.clk_present i = edges
        ∧ u.raised = s.raised ++ (if s.flag F.LTC_IN_STATUS.locked i then [352] else []))
    ∧ (∀ s (i : Fin 2) edges, s.awake = false ∨ s.recipe.ltcEnabled i = false ∨ s.ltcOverdue i = false →
      exec (.ltcLoss i edges) s = .next (settled s s))
    ∧ (∀ s (i : Fin 2), s.awake = true → ∃ u, exec (.ltcInTcRead .manager i) s = .next (settled s u) ∧ u.regs = s.regs
        ∧ u.sent = .readValue .manager (s.get .LTC_IN_TC i) :: s.sent
        ∧ u.latched .manager .LTC_IN_USER i = some (s.get .LTC_IN_USER i)
        ∧ u.latched .manager .LTC_IN_ST_LO i = some (s.get .LTC_IN_ST_LO i)
        ∧ u.latched .manager .LTC_IN_ST_HI i = some (s.get .LTC_IN_ST_HI i))
    ∧ (∀ s (o : Fin 2) k w x, s.ltcSends o = true → x = s.ltcOutOf o → (∀ e ∈ x.waiting, notLater e.1 s.tim.st = false) →
      (s.ltcOutGrid o x.plan.anchor).frameAt s.tim.st = some k →
      w = ltcWordOf (s.ltcOutRate o) ((((ltcWordNumber (s.ltcOutRate o) x.plan.start : Nat) : Int) + k) %
        (ltcDayFrames (s.ltcOutRate o) : Nat)).toNat → ∃ u, exec (.ltcOutFrame o) s = .next (settled s u)
        ∧ u.sent = .ltc o w x.plan.user :: s.sent ∧ u.get .LTC_OUT_TC o = w ∧ u.sio = s.sio)
    ∧ (∀ s (o : Fin 2) x, s.ltcSends o = true → x = s.ltcOutOf o → (∀ e ∈ x.waiting, notLater e.1 s.tim.st = false) →
      (s.ltcOutGrid o x.plan.anchor).frameAt s.tim.st = none → exec (.ltcOutFrame o) s = .next (settled s s))
    ∧ (∀ s (o : Fin 2) x w, s.ltcSends o = true → x = s.ltcOutOf o → (x.due s.tim.st).getLast? = some w →
      ((s.ltcOutGrid o x.plan.anchor).frameAt s.tim.st).isSome = true ∨
        ((s.ltcOutGrid o w.2.anchor).frameAt s.tim.st).isSome = true → ∃ u,
      exec (.ltcOutFrame o) s = .next (settled s u) ∧ u.ltcOutOf o = ⟨w.2, x.later s.tim.st⟩)
    ∧ (∀ s (o : Fin 2) x w, s.ltcSends o = true → x = s.ltcOutOf o → (x.due s.tim.st).getLast? = some w →
      (s.ltcOutGrid o x.plan.anchor).frameAt s.tim.st = none → (s.ltcOutGrid o w.2.anchor).frameAt s.tim.st = none →
      exec (.ltcOutFrame o) s = .next (settled s s))
    ∧ (∀ s (o : Fin 2), s.ltcSends o = false → exec (.ltcOutFrame o) s = .next (settled s s)))

/-- FADER_CONVERSION, ENCODER_TRANSITION, ENC_COUNT_READ (R353 to R355, R361): a passing test publishes the
conversion before it, a failed one makes the fader invalid, and a quadrature step that outlasts the filter counts one
up or down, a step of both lines none.

I2C_TRANSFER, SPI_TRANSFER, BUS_TRANSFER_DONE (R358): a transfer starts on a free port of its kind with the bytes of
BUS_DATA, and its end places the bytes read from byte 0, records the result and raises EV_SIO_BUS_DONE.

GPIO_SET, GPIO_CLR, GPIO_EDGE, USB_OVERCURRENT (R359, R360): set and clear change only output lines of the mask, an
enabled edge that outlasts the glitch filter is recorded with its ST to 20 ns, and an overcurrent turns the port's
power off.

R20, R361: a command that is an access to a SIO register, from an agent that does not reach the block or while it is
gated, gets an error response and has no other effect. -/
def Obligations.ConsoleInputsAndBuses : Prop :=
  ((∀ s (n : Fin 48) (v : BitVec 12), s.awake = true → bit s.recipe.faderMask n = 1 →
      exec (.faderConversion n false v) s = .next (settled s (s.setFader n { s.fader n with normal := some v.toNat })))
    ∧ (∀ s (n : Fin 48) (v : BitVec 12) m, s.awake = true → bit s.recipe.faderMask n = 1 → (s.fader n).normal = some m →
      s.faderFails m v.toNat = false → m < 4096 → ∃ u, exec (.faderConversion n true v) s = .next (settled s u)
        ∧ u.fget F.FADER_VAL.value n = m ∧ (u.fader n).passes = (s.fader n).passes + 1 ∧ (u.fader n).normal = none
        ∧ (s.flag F.FADER_VAL.valid n = false → s.recipe.faderRecover ≤ (s.fader n).passes + 1 →
            u.flag F.FADER_VAL.valid n = true ∧ 354 ∈ u.raised ∧ u.hasBit .FADER_INVALID (n.val % 32) 0 (n.val / 32) = false)
        ∧ (s.flag F.FADER_VAL.valid n = true → u.flag F.FADER_VAL.valid n = true))
    ∧ (∀ s (n : Fin 48) (v : BitVec 12) m, s.awake = true → bit s.recipe.faderMask n = 1 → (s.fader n).normal = some m →
      s.faderFails m v.toNat = true → ∃ u, exec (.faderConversion n true v) s = .next (settled s u)
        ∧ u.flag F.FADER_VAL.valid n = false ∧ u.fget F.FADER_VAL.value n = s.fget F.FADER_VAL.value n
        ∧ u.hasBit .FADER_INVALID (n.val % 32) 0 (n.val / 32) = true ∧ (u.fader n).passes = 0 ∧ u.raised = s.raised ++ [353])
    ∧ (∀ s (n : Fin 48) (v : BitVec 12), s.awake = true → bit s.recipe.faderMask n = 1 → (s.fader n).normal = none →
      exec (.faderConversion n true v) s = .next (settled s s))
    ∧ (∀ s (n : Fin 48) test v, s.awake = false ∨ bit s.recipe.faderMask n = 0 →
      exec (.faderConversion n test v) s = .next (settled s s))
    ∧ (∀ s (n : Fin 16) a b ns, Filtered s n ns → s.awake = true → (s.encoder n).a ≠ a → (s.encoder n).b ≠ b → ∃ u,
      exec (.encoderTransition n a b ns) s = .next (settled s u) ∧ u.get .ENC_COUNT n = s.get .ENC_COUNT n
        ∧ u.get .ENC_ERR_COUNT n = (s.bump F.ENC_ERR_COUNT.count n).get .ENC_ERR_COUNT n ∧ (u.encoder n).a = a
        ∧ (u.encoder n).b = b ∧ u.raised = s.raised ++ [357])
    ∧ (∀ s (n : Fin 16) a b ns, Filtered s n ns → s.awake = true → ((s.encoder n).a ≠ a ↔ (s.encoder n).b = b) → ∃ u,
      exec (.encoderTransition n a b ns) s = .next (settled s u)
        ∧ u.get .ENC_COUNT n = s.get .ENC_COUNT n + BitVec.ofInt 32 (encStep (s.encoder n).a a b)
        ∧ u.encoder n = ⟨a, b, s.gridTime⟩ ∧ (s.sio.encMoveAt = none → 356 ∈ u.raised))
    ∧ (∀ s (n : Fin 16) a b ns, Filtered s n ns → s.awake = true → (s.encoder n).a = a → (s.encoder n).b = b →
      exec (.encoderTransition n a b ns) s = .next (settled s s))
    ∧ (∀ s (n : Fin 16) a b ns, Filtered s n ns → s.awake = false →
      exec (.encoderTransition n a b ns) s = .next (settled s (s.setEncoder n { s.encoder n with a := a, b := b })))
    ∧ (∀ s (n : Fin 16) a b ns, ¬Filtered s n ns → exec (.encoderTransition n a b ns) s = .next (settled s s))
    ∧ (∀ a b, (encStep a (!a) b = 1 ∨ encStep a (!a) b = -1) ∧ encStep a (!a) b + encStep (!a) a b = 0
        ∧ encStep a (!a) b = encStep (!a) (!a) (!b) ∧ encStep a a (!b) + encStep a a b = 0)
    ∧ (∀ s (n : Fin 16), s.awake = true → ∃ u, exec (.encCountRead .manager n) s = .next (settled s u)
        ∧ u.sent = .readValue .manager (s.get .ENC_COUNT n) :: s.sent
        ∧ u.get64 .ENC_ST_LO .ENC_ST_HI n = (s.encoder n).changed ∧ u.get .ENC_COUNT n = s.get .ENC_COUNT n))
  ∧ ((∀ s (n : Fin 8), s.awake = true → s.busKind n = 1 → s.fget F.BUS_CFG.wlen n ≤ 64 → s.fget F.BUS_CFG.rlen n ≤ 64 →
      s.flag F.BUS_STATUS.busy n = false → ∃ u, exec (.i2cTransfer .manager n) s = .next (settled s u)
        ∧ u.flag F.BUS_STATUS.busy n = true ∧ Tbl.get 0 u.sio.busReads n = s.fget F.BUS_CFG.rlen n
        ∧ u.sent = .bus n (s.fget F.BUS_CFG.addr n) (s.busBytes n (s.fget F.BUS_CFG.wlen n)) (s.fget F.BUS_CFG.rlen n) :: s.sent)
    ∧ (∀ s (n : Fin 8), s.awake = true → s.busKind n = 2 → s.fget F.BUS_CFG.addr n % 4 < u8 (s.recipe.bus n) 3 →
      1 ≤ s.fget F.BUS_CFG.wlen n → s.fget F.BUS_CFG.wlen n ≤ 64 → s.flag F.BUS_STATUS.busy n = false → ∃ u,
      exec (.spiTransfer .manager n) s = .next (settled s u)
        ∧ u.flag F.BUS_STATUS.busy n = true ∧ Tbl.get 0 u.sio.busReads n = s.fget F.BUS_CFG.wlen n
        ∧ u.sent = .bus n (s.fget F.BUS_CFG.addr n % 4) (s.busBytes n (s.fget F.BUS_CFG.wlen n)) (s.fget F.BUS_CFG.wlen n) :: s.sent)
    ∧ (∀ s (n : Fin 8), s.awake = true → s.flag F.BUS_STATUS.busy n = true →
      exec (.i2cTransfer .manager n) s = .next (settled s s) ∧ exec (.spiTransfer .manager n) s = .next (settled s s))
    ∧ (∀ s (n : Fin 8), s.awake = true → s.busKind n ≠ 1 ∨ 64 < s.fget F.BUS_CFG.wlen n ∨ 64 < s.fget F.BUS_CFG.rlen n →
      exec (.i2cTransfer .manager n) s = .next (settled s s))
    ∧ (∀ s (n : Fin 8), s.awake = true → s.busKind n ≠ 2 ∨ u8 (s.recipe.bus n) 3 ≤ s.fget F.BUS_CFG.addr n % 4
        ∨ s.fget F.BUS_CFG.wlen n = 0 ∨ 64 < s.fget F.BUS_CFG.wlen n →
      exec (.spiTransfer .manager n) s = .next (settled s s))
    ∧ (∀ s (n : Fin 8) how b r, s.awake = true → s.flag F.BUS_STATUS.busy n = true → s.busResult n how = some r → ∃ u,
      exec (.busTransferDone n how b) s = .next (settled s u) ∧ u.flag F.BUS_STATUS.busy n = false
        ∧ u.fget F.BUS_STATUS.result n = r ∧ u.raised = s.raised ++ [359]
        ∧ (∀ k, k < b.length → k < 64 → k < Tbl.get 0 s.sio.busReads n → (u.busBytes n 64).getD k 0 = b.getD k 0)
        ∧ (∀ k, k < 64 → min b.length (Tbl.get 0 s.sio.busReads n) ≤ k →
            (u.busBytes n 64).getD k 0 = (s.busBytes n 64).getD k 0))
    ∧ (∀ s (n : Fin 8) how b, s.awake = false ∨ s.flag F.BUS_STATUS.busy n = false ∨ s.busResult n how = none →
      exec (.busTransferDone n how b) s = .next (settled s s))
    ∧ (∀ (s : State) (n : Fin 8), s.busResult n .complete = some 1
        ∧ (s.busKind n = 1 → s.busResult n .addrNak = some 2 ∧ s.busResult n .dataNak = some 3 ∧ s.busResult n .dataLow = some 5
            ∧ ∀ ns, s.busResult n (.clockLow ns) = if u8 (s.recipe.bus n) 4 * 1000000 < ns then some 4 else none)))
  ∧ ((∀ s (b : Fin 8) (v : W32), s.awake = true → ∃ u, exec (.gpioSetRegister .manager b v) s = .next (settled s u)
        ∧ u.get .GPIO_OUT b = s.get .GPIO_OUT b ||| (v &&& s.gpioOutputs b)
        ∧ (∀ c, c ≠ b.val → u.get .GPIO_OUT c = s.get .GPIO_OUT c ∧ u.get .GPIO_EDGE c = s.get .GPIO_EDGE c))
    ∧ (∀ s (b : Fin 8) (v : W32), s.awake = true → ∃ u, exec (.gpioClr .manager b v) s = .next (settled s u)
        ∧ u.get .GPIO_OUT b = s.get .GPIO_OUT b &&& ~~~(v &&& s.gpioOutputs b)
        ∧ (∀ c, c ≠ b.val → u.get .GPIO_OUT c = s.get .GPIO_OUT c ∧ u.get .GPIO_EDGE c = s.get .GPIO_EDGE c))
    ∧ (∀ s (b : Fin 8) (l : Fin 32) rising ns, s.awake = true → s.edgeSeen b l rising ns = true →
      s.hasBit (if rising then .GPIO_EDGE_RISE else .GPIO_EDGE_FALL) l b = true → ∃ u,
      exec (.gpioEdge b l rising ns) s = .next (settled s u) ∧ u.hasBit .GPIO_EDGE l b = true ∧ u.raised = s.raised ++ [360]
        ∧ u.get .GPIO_OUT b = s.get .GPIO_OUT b ∧ u.sio = (s.driveLine b l rising).sio
        ∧ ∃ d : Int, -20 ≤ d ∧ d ≤ 20 ∧ u.get64 .GPIO_EDGE_ST_LO .GPIO_EDGE_ST_HI b = stAdd s.gridTime d)
    ∧ (∀ s (b : Fin 8) (l : Fin 32) rising ns, s.awake = false ∨ s.edgeSeen b l rising ns = false
        ∨ s.hasBit (if rising then .GPIO_EDGE_RISE else .GPIO_EDGE_FALL) l b = false →
      exec (.gpioEdge b l rising ns) s = .next (settled s (s.driveLine b l rising)))
    ∧ (∀ (s : State) (b : Fin 8) (l : Fin 32) rising ns, s.recipe.gpioPad b l = none → s.edgeSeen b l rising ns = false)
    ∧ (∀ (s : State) (b : Fin 8) (l : Fin 32) rising ns pad, s.recipe.gpioPad b l = some pad → bit pad 6 = 0 →
      s.edgeSeen b l rising ns = (bit pad 4 == 0 || decide (1000 ≤ ns)))
    ∧ (∀ s (n : Fin 4), s.awake = true → bit s.recipe.usbMask n = 1 → ∃ u, exec (.usbOvercurrent n) s = .next (settled s u)
        ∧ n.val ∈ u.sio.usbOff ∧ u.sent = .vbus n false :: s.sent ∧ u.raised = s.raised ++ [362] ∧ u.regs = s.regs)
    ∧ (∀ s (n : Fin 4), s.awake = false ∨ bit s.recipe.usbMask n = 0 → exec (.usbOvercurrent n) s = .next (settled s s)))
  ∧ (∀ s a (p : Fin 16) (m : Fin 4) (i : Fin 2) (n b : Fin 8) v v8 c,
      c ∈ [Instr.dmxCommitRegister a p, .dmxRxInfoRead a p, .rdmTransaction a p, .rdmDiscovery a p, .midiTx a m v8, .midiRxRead a m,
        .ltcInTcRead a i, .encCountRead a p, .i2cTransfer a n, .spiTransfer a n, .gpioSetRegister a b v, .gpioClr a b v] →
      a ≠ .manager ∨ s.awake = false → exec c s = .next (settled s (s.emit (.busError a))))

/-- SAMPLE_INSTANT (R363 to R371): at an instant of the grid every clocked port sends the words of the samples
computed two instants before, gains whose 20 ms have passed step, a sample of a stream that no packet holds is
counted, a started clip plays from its first sample, and what is switched off is silent.

AES67_PACKET, SILENCE_BLOCK, TDM_BIT_CLOCK_STOP, TDM_BIT_CLOCK_RUNS (R77, R366, R367, R372): a packet in time is held
by the streams that its destination names; a port is silent after its hold of quiet blocks and active at the first
loud one, and its amplifier pin follows; a stopped bit clock shows in the port's status. -/
def Obligations.SampleInstants : Prop :=
  ((∀ s obs n, s.awake = true → s.aud.running = true → instantAt s.recipe.audFs s.gridTime.toNat = some n → ∃ u,
      exec (.sampleInstant obs) s = .next (settled s u) ∧ u.aud.instant = n
        ∧ u.aud.pipe = ((s.graphInstant s.recipe.audFs n s.gridTime obs).outsInstant s.gridTime :: s.aud.pipe).take 2
        ∧ (∀ p, p < 8 → s.portClocked p = true → (∀ d ∈ obs.drifted, d.1.val ≠ p) →
            .audioFrame p n ((s.frameSamples p).map (fun x => audioWord (s.portWord p) x.value)) ∈ u.sent)
        ∧ (∀ pt x, s.gainWaiting pt = some x → notLater x.deadline s.gridTime = true → s.gainHeld s.gridTime pt = false →
            u.gainInForce pt = x.gain ∧ u.gainWaiting pt = none)
        ∧ (∀ pt, s.gainWaiting pt = none ∨ s.gainHeld s.gridTime pt = true →
            u.gainInForce pt = s.gainInForce pt ∧ u.gainWaiting pt = s.gainWaiting pt)
        ∧ (∀ k m, k < 4 → s.rxOn k = true → s.dueSample s.recipe.audFs k n = some m → u.get .LOSS_COUNT k =
            (if (s.held k).any (fun p => p.has m) then s.get .LOSS_COUNT k else (s.bump F.LOSS_COUNT.count k).get .LOSS_COUNT k))
        ∧ (∀ p r, p < 16 → (s.player p).acts = [.start r] → r.pos = 0 → 1 < clipLength r.entry → u.playState p = playPlaying
            ∧ (u.player p).run.entry = r.entry ∧ (u.player p).run.pos = 1 ∧ (u.player p).acts = [])
        ∧ (∀ p, p < 16 → (s.player p).acts = [] → s.playing p = false → u.sourceSample (160 + p) = 0)
        ∧ (∀ k, k < 8 → s.fget F.TONE_CFG.kind k = 0 → u.sourceSample (176 + k) = 0))
    ∧ (∀ s obs, s.awake = false ∨ s.aud.running = false ∨ instantAt s.recipe.audFs s.gridTime.toNat = none →
      exec (.sampleInstant obs) s = .next (settled s s)))
  ∧ ((∀ s (eth : Fin 2) addr (udp : BitVec 16) stamp b, s.awake = true → s.aud.running = true → ∃ u,
      exec (.aes67Packet eth addr udp stamp b) s = .next (settled s u) ∧ u.regs = s.regs ∧ u.raised = s.raised
        ∧ ∀ k m, k < 4 → m = sampleOf (instantIndex s.recipe.audFs s.gridTime.toNat) stamp (s.get .AES_TS_OFFSET k) →
          u.held k = (if s.rxTakes k eth addr udp.toNat b = true ∧
              s.gridTime.toNat ≤ instantNs s.recipe.audFs m + (s.get .AES_LINK_OFFSET k).toNat then
            s.held k ++ [⟨m, b⟩] else s.held k))
    ∧ (∀ s (eth : Fin 2) addr udp stamp b, s.awake = false ∨ s.aud.running = false →
      exec (.aes67Packet eth addr udp stamp b) s = .next (settled s s))
    ∧ (∀ s (p : Fin 8), BlockEnds s p → s.quietBlock p = true → 10 * s.fget F.SIL_CFG.hold p ≤ Tbl.get 0 s.aud.quiet p + 1 →
      s.flag F.SIL_STATUS.silent p = false → ∃ u, exec (.silenceBlock p) s = .next (settled s u)
        ∧ u.flag F.SIL_STATUS.silent p = true ∧ u.flag F.SIL_STATUS.amp_en p = false ∧ u.hasBit .AUD_STATUS (8 + p.val) = false
        ∧ u.sent = .ampEn p false :: s.sent ∧ u.raised = s.raised ++ [368] ∧ Tbl.get 0 u.aud.judged p = s.blockNow)
    ∧ (∀ s (p : Fin 8), BlockEnds s p → s.quietBlock p = true → Tbl.get 0 s.aud.quiet p + 1 < 10 * s.fget F.SIL_CFG.hold p
        ∨ s.flag F.SIL_STATUS.silent p = true → ∃ u, exec (.silenceBlock p) s = .next (settled s u)
        ∧ Tbl.get 0 u.aud.quiet p = Tbl.get 0 s.aud.quiet p + 1 ∧ u.sent = s.sent ∧ u.regs = s.regs)
    ∧ (∀ s (p : Fin 8), BlockEnds s p → s.quietBlock p = false → s.loudBlock p = true →
      s.flag F.SIL_STATUS.amp_en p = false → ∃ u, exec (.silenceBlock p) s = .next (settled s u)
        ∧ u.flag F.SIL_STATUS.silent p = false ∧ u.flag F.SIL_STATUS.amp_en p = true ∧ Tbl.get 0 u.aud.quiet p = 0
        ∧ u.sent = .ampEn p true :: s.sent ∧ u.raised = s.raised ++ [369])
    ∧ (∀ s (p : Fin 8), BlockEnds s p → s.quietBlock p = false → s.loudBlock p = false ∨ s.flag F.SIL_STATUS.amp_en p = true → ∃ u,
      exec (.silenceBlock p) s = .next (settled s u) ∧ Tbl.get 0 u.aud.quiet p = 0 ∧ u.sent = s.sent ∧ u.regs = s.regs)
    ∧ (∀ s (p : Fin 8), s.awake = false ∨ s.portClocked p = false ∨ s.blockNow = Tbl.get 0 s.aud.judged p →
      exec (.silenceBlock p) s = .next (settled s s))
    ∧ (∀ s (p : Fin 8), ∃ u, exec (.tdmBitClockStop p) s = .next (settled s u) ∧ p.val ∈ u.aud.stopped
        ∧ (s.awake = true → ∀ q, q < 8 → u.hasBit .AUD_STATUS q = u.portClocked q)
        ∧ (s.awake = false → u.regs = s.regs) ∧ (s.slavePort p = true → u.portClocked p = false))
    ∧ (∀ s (p : Fin 8), ∃ u, exec (.tdmBitClockRuns p) s = .next (settled s u) ∧ p.val ∉ u.aud.stopped
        ∧ (s.awake = true → ∀ q, q < 8 → u.hasBit .AUD_STATUS q = u.portClocked q)
        ∧ (s.awake = false → u.regs = s.regs) ∧ u.portClocked p = s.audPort p))

/-- GAIN_WRITE, GAIN_STEP_DEADLINE, SELECTION_WRITE, EQ_COMMIT (R368, R369): a written gain waits at most 20 ms from
the first write while the old one stays in force, an allowed selection crossfades over 5 ms, and one the recipe
forbids is refused.

PLAYER_START, PLAYER_STOP, PLAYER_PRIME (R370): a start waits for the next instant with the clip as fetched, a stop
fades over PLAYER_FADE, a primed player holds its clip, and a clip the table lacks does nothing. -/
def Obligations.GainsAndPlayers : Prop :=
  ((∀ s pt g, s.awake = true → ∃ u, exec (.gainWrite .manager pt g) s = .next (settled s u)
        ∧ u.gainWaiting pt = some ⟨pt, g, ((s.gainWaiting pt).map (·.deadline)).getD (s.gridTime + 20000000)⟩
        ∧ (∀ q, u.gainInForce q = s.gainInForce q) ∧ (∀ q, q ≠ pt → u.gainWaiting q = s.gainWaiting q))
    ∧ (∀ s pt x, s.awake = true → s.gainWaiting pt = some x → notLater x.deadline s.gridTime = true →
      s.gainHeld s.gridTime pt = false → ∃ u, exec (.gainStepDeadline pt) s = .next (settled s u) ∧ u.gainInForce pt = x.gain
        ∧ u.gainWaiting pt = none ∧ (∀ q, q ≠ pt → u.gainInForce q = s.gainInForce q ∧ u.gainWaiting q = s.gainWaiting q))
    ∧ (∀ s pt, s.awake = false ∨ s.gainHeld s.gridTime pt = true ∨
        (∀ x, s.gainWaiting pt = some x → notLater x.deadline s.gridTime = false) →
      exec (.gainStepDeadline pt) s = .next (settled s s))
    ∧ (∀ s m (sel : Byte), s.awake = true → s.muxAllows m sel.toNat = true → s.muxSel m ≠ sel.toNat → ∃ u,
      exec (.selectionWrite .manager m sel) s = .next (settled s u) ∧ u.muxSel m = sel.toNat
        ∧ Fade.mk (.mux m) (s.muxSel m) sel.toNat (s.gridTime + 5000000) ∈ u.aud.fades
        ∧ (∀ q, q ≠ m → u.muxSel q = s.muxSel q))
    ∧ (∀ s m (sel : Byte), s.awake = true → s.muxAllows m sel.toNat = true → s.muxSel m = sel.toNat →
      exec (.selectionWrite .manager m sel) s = .next (settled s s))
    ∧ (∀ s m (sel : Byte), s.awake = true → s.muxAllows m sel.toNat = false → ∃ u,
      exec (.selectionWrite .manager m sel) s = .next (settled s u) ∧ u.muxSel m = s.muxSel m ∧ u.raised = s.raised ++ [375]
        ∧ u.aud = s.aud)
    ∧ (∀ s (b : Fin 32), s.awake = true → exec (.eqCommit .manager b) s = .next (settled s { s with
        aud := { s.aud with eqDue := s.aud.eqDue ++ [(b.val, s.gridTime)] } }))
    ∧ (∀ s a pt g m sel b n clip c, c ∈ [Instr.gainWrite a pt g, .selectionWrite a m sel, .eqCommit a b, .playerStart a n clip,
        .playerStop a n, .playerPrime a n clip] → a ≠ .manager ∨ s.awake = false →
      exec c s = .next (settled s (s.emit (.busError a)))))
  ∧ ((∀ s (n : Fin 16) (clip : BitVec 16) r, s.awake = true → s.aud.running = true → s.clipExists clip.toNat = true →
      (s.player n).primed = some (clip.toNat, r) → ∃ u, exec (.playerStart .manager n clip) s = .next (settled s u)
        ∧ (u.player n).acts = (s.player n).acts ++ [.start r] ∧ (u.player n).primed = none
        ∧ u.fget F.PLAYER_CTRL.clip n = clip.toNat ∧ (∀ m, m ≠ n.val → u.player m = s.player m))
    ∧ (∀ s (n : Fin 16) (clip : BitVec 16), s.awake = true → s.aud.running = true → s.clipExists clip.toNat = true →
      (∀ r, (s.player n).primed ≠ some (clip.toNat, r)) → ∃ u, exec (.playerStart .manager n clip) s = .next (settled s u)
        ∧ (u.player n).acts = (s.player n).acts ++
            [.start ((s.fset F.PLAYER_CTRL.clip clip.toNat n).clipOpen clip.toNat false).1]
        ∧ (u.player n).primed = (s.player n).primed)
    ∧ (∀ s (n : Fin 16) (clip : BitVec 16), s.awake = true → s.aud.running = false ∨ s.clipExists clip.toNat = false →
      exec (.playerStart .manager n clip) s = .next (settled s (s.fset F.PLAYER_CTRL.clip clip.toNat n))
        ∧ exec (.playerPrime .manager n clip) s = .next (settled s (s.fset F.PLAYER_CTRL.clip clip.toNat n)))
    ∧ (∀ s (n : Fin 16), s.awake = true → s.aud.running = true → ∃ u, exec (.playerStop .manager n) s = .next (settled s u)
        ∧ (u.player n).acts = (s.player n).acts ++
            [.stop s.gridTime (s.gridTime + BitVec.ofNat 64 (s.fget F.PLAYER_FADE.ms n * 1000000))]
        ∧ (∀ m, m ≠ n.val → u.player m = s.player m))
    ∧ (∀ s (n : Fin 16), s.awake = true → s.aud.running = false → exec (.playerStop .manager n) s = .next (settled s s))
    ∧ (∀ s (n : Fin 16) (clip : BitVec 16), s.awake = true → s.aud.running = true → s.clipExists clip.toNat = true → ∃ u r,
      exec (.playerPrime .manager n clip) s = .next (settled s u) ∧ (u.player n).primed = some (clip.toNat, r) ∧ r.pos = 0
        ∧ r.fromPrime = true ∧ u.playState n = (if s.playing n then s.playState n else playPrimed)
        ∧ (∀ a, a = (s.get64 .CLIP_TABLE_LO .CLIP_TABLE_HI).toNat % 2 ^ 48 + 16 * clip.toNat → Reaches s .io 0 a 16 false →
            r.entry = s.readBytes a 16)))

/-- COUNTER_WRAP, PMC_RESET_ALL, PRECISE_SAMPLE, BW_WINDOW_CLOSE (R382, R384, R385): a counter at its last value
passes to 0 and says so, `reset_all` clears every count, a sample record is stored at its place or lost in a full
ring, and a window shows the bytes moved and starts anew. -/
def Obligations.CountersAndSampling : Prop :=
  (∀ s (n : Fin 32), s.awake = true → s.pmcOn n = true → s.pmcValue n = 2 ^ 48 - 1 ∨ s.pmcOpen (s.get .PMC_SEL n) = true → ∃ u,
    exec (.counterWrap n) s = .next (settled s u) ∧ u.pmcValue n = 0 ∧ u.flag F.PMC_VAL_HI.ovf n = true
      ∧ u.hasBit .PMC_MIRROR_OVF n = true ∧ (∀ m, m ≠ n.val → u.pmcValue m = s.pmcValue m) ∧ u.raised = s.raised ++ [2])
  ∧ (∀ s (n : Fin 32), s.awake = false ∨ s.pmcOn n = false
      ∨ (s.pmcValue n ≠ 2 ^ 48 - 1 ∧ s.pmcOpen (s.get .PMC_SEL n) = false) →
    exec (.counterWrap n) s = .next (settled s s))
  ∧ (∀ s a, s.awake = true → a = .manager ∨ a = .inner → ∃ u, exec (.pmcResetAll a) s = .next (settled s u)
      ∧ (∀ n, u.pmcValue n = 0 ∧ u.flag F.PMC_VAL_HI.ovf n = false) ∧ u.raised = s.raised
      ∧ (∀ r i k, r ≠ .PMC_VAL_LO → r ≠ .PMC_VAL_HI → u.get r i k = s.get r i k))
  ∧ (∀ s a, s.awake = false ∨ (a ≠ .manager ∧ a ≠ .inner) →
    exec (.pmcResetAll a) s = .next (settled s (s.emit (.busError a))))
  ∧ (∀ s (core : Fin 8) rec w, Sampled s core → w = s.fget F.PSAMP_WR.wr % s.sampSize →
    s.sampAhead ((w + 1) % s.sampSize) ≠ 0 → ∃ x u, exec (.preciseSample core rec) s = .next (settledMem s x u)
      ∧ u.fget F.PSAMP_WR.wr = (w + 1) % s.sampSize % 2 ^ F.PSAMP_WR.wr.width ∧ u.get .PSAMP_LOST = s.get .PSAMP_LOST
      ∧ (∀ e ∈ x, e.2 = sampRecord core (s.core core).mode (s.coreInner core) s.tim.st rec))
  ∧ (∀ s (core : Fin 8) rec w b, Sampled s core → w = s.fget F.PSAMP_WR.wr % s.sampSize →
    s.sampAhead ((w + 1) % s.sampSize) ≠ 0 → b = sampRecord core (s.core core).mode (s.coreInner core) s.tim.st rec →
    s.landAs s.evt.sampInner .io 0 (s.sampAddr w) true = (.ram (s.sampAddr w), s) → ∃ t,
    exec (.preciseSample core rec) s = .next t ∧ (∀ k, k < 32 → t.readByte (s.sampAddr w + k) = b.getD k 0)
      ∧ (∀ a, a < s.sampAddr w ∨ s.sampAddr w + 32 ≤ a → t.readByte a = s.readByte a))
  ∧ (∀ s (core : Fin 8) rec, Sampled s core →
    s.sampAhead ((s.fget F.PSAMP_WR.wr % s.sampSize + 1) % s.sampSize) = 0 → exec (.preciseSample core rec) s =
    .next (settledMem s [] ((s.bump F.PSAMP_LOST.count).raise 4)))
  ∧ (∀ s (core : Fin 8) rec, ¬Sampled s core → exec (.preciseSample core rec) s = .next (settledMem s [] s))
  ∧ (∀ s, s.awake = true → s.flag F.BW_CTRL.enable = true → s.bwDue = true → ∃ u, exec .bwWindowClose s = .next (settled s u)
      ∧ (∀ n, n < 24 → u.get64 .BW_PORT_LO .BW_PORT_HI n = BitVec.ofNat 64 (Tbl.get 0 s.evt.bytes n))
      ∧ u.fget F.BW_SEQ.seq = (s.fget F.BW_SEQ.seq + 1) % 2 ^ F.BW_SEQ.seq.width ∧ u.flag F.BW_SEQ.short = false
      ∧ u.evt.bytes = [] ∧ u.evt.windowUs = s.fget F.BW_WINDOW.window_us
      ∧ u.raised = s.raised ++ (if s.flag F.BW_CTRL.win_event then [5] else []))
  ∧ (∀ s, s.awake = false ∨ s.flag F.BW_CTRL.enable = false ∨ s.bwDue = false → exec .bwWindowClose s = .next (settled s s))

/-- SPLIT_LOW_WORD_READ (R6, R7, R20 to R22, R76, R271, R360): an access of another shape or to no register is
answered as R6, R7 and R21 say, one that the fence refuses is captured and refused, a plain register shows its word,
and the first half of a split value latches the other half for its agent.

REGISTER_WRITE (R6, R7, R8, R10, R21, R271, R360): a write of another shape is an error response and changes nothing,
one that reaches no register changes nothing, one that the fence refuses is captured, and one to a plain register
changes the fields that its writer may change, and no other register.

SPLIT_LOW_WORD_READ, REGISTER_WRITE on the CSRs, fences and MSI-X controls that no register map holds (R266, R267,
R269, R270, R274, R278, R294): a running core reads or writes a CSR that its mode reaches and goes on; another takes
an exception; an unsupported mode of satp, vsatp or hgatp leaves the register; a fence drops the translations that it
names and no other; Message Control is written by the host of its function. -/
def Obligations.RegisterAccess : Prop :=
  ((∀ s a sp addr bytes, (∀ n mode, sp ≠ .csr n mode) → wellShaped addr bytes = false ∨ s.reaches a sp addr = .error →
      exec (.splitLowWordRead a sp addr bytes) s = .next (settled s (s.emit (.busError a))))
    ∧ (∀ s a sp addr bytes, wellShaped addr bytes = true → s.reaches a sp addr = .nothing →
      exec (.splitLowWordRead a sp addr bytes) s = .next (settled s (s.emit (.readValue a 0))))
    ∧ (∀ s a sp addr bytes, wellShaped addr bytes = true → s.reaches a sp addr = .usb →
      exec (.splitLowWordRead a sp addr bytes) s = .refused .usbHostController)
    ∧ (∀ s a sp addr bytes x, wellShaped addr bytes = true → s.reaches a sp addr = .fenced x → (∀ p, a ≠ .partition p) → ∃ u,
      exec (.splitLowWordRead a sp addr bytes) s = .next (settled s u) ∧ u.sent = .busError a :: s.sent
        ∧ u.get64 .CPX_FENCE_VIOL_ADDR_LO .CPX_FENCE_VIOL_ADDR_HI = BitVec.ofNat 64 (x % 2 ^ 48)
        ∧ u.flag F.CPX_FENCE_VIOL_INFO.write = false ∧ u.raised = s.raised ++ [7])
    ∧ (∀ s p sp addr bytes x, wellShaped addr bytes = true → s.reaches (.partition p) sp addr = .fenced x → ∃ u n, n < 8
        ∧ exec (.splitLowWordRead (.partition p) sp addr bytes) s = .next (settled s u)
        ∧ ExceptionTaken s u n (s.core n).mode 5 (BitVec.ofNat 64 x)
        ∧ u.get64 .CPX_FENCE_VIOL_ADDR_LO .CPX_FENCE_VIOL_ADDR_HI = BitVec.ofNat 64 (x % 2 ^ 48)
        ∧ u.fget F.CPX_FENCE_VIOL_INFO.owner = 64 + p.val ∧ u.flag F.CPX_FENCE_VIOL_INFO.write = false ∧ u.raised = s.raised ++ [7])
    ∧ (∀ s a sp addr bytes key via, wellShaped addr bytes = true → s.reaches a sp addr = .reg key via →
      key.reg.plainWrite = true → LatchesOk s → s.latchedAt a key = none → ∃ u,
      exec (.splitLowWordRead a sp addr bytes) s = .next (settled s u)
        ∧ u.sent = .readValue a (s.get key.reg key.i key.k &&& key.reg.readable) :: s.sent ∧ u.regs = s.regs)
    ∧ (∀ s a sp addr bytes via, wellShaped addr bytes = true → s.reaches a sp addr = .reg ⟨.TIME_ST_LO, 0, 0⟩ via →
      LatchesOk s → s.latchedAt a ⟨.TIME_ST_LO, 0, 0⟩ = none → ∃ u,
      exec (.splitLowWordRead a sp addr bytes) s = .next (settled s u)
        ∧ u.sent = .readValue a (s.tim.st.truncate 32) :: s.sent ∧ u.regs = s.regs
        ∧ u.latchedAt a ⟨.TIME_ST_HI, 0, 0⟩ = some ((s.tim.st >>> 32).truncate 32))
    ∧ (∀ s a sp addr bytes via v, wellShaped addr bytes = true → s.reaches a sp addr = .reg ⟨.TIME_ST_HI, 0, 0⟩ via →
      s.latchedAt a ⟨.TIME_ST_HI, 0, 0⟩ = some v → s.latchedAt a ⟨.TIME_ST_LO, 0, 0⟩ = none → ∃ u,
      exec (.splitLowWordRead a sp addr bytes) s = .next (settled s u) ∧ u.sent = .readValue a v :: s.sent
        ∧ u.latchedAt a ⟨.TIME_ST_HI, 0, 0⟩ = none)
    ∧ (∀ s a sp addr bytes via b, wellShaped addr bytes = true → s.reaches a sp addr = .reg ⟨.TIME_ST_LO, 0, 0⟩ via → b ≠ a →
      ∃ u, exec (.splitLowWordRead a sp addr bytes) s = .next (settled s u) ∧ ∀ key, u.latchedAt b key = s.latchedAt b key))
  ∧ ((∀ s a sp addr bytes v, (∀ n mode, sp ≠ .csr n mode) → (∀ n mode k x y, sp ≠ .fence n mode k x y) → (∀ f, sp ≠ .msixControl f) →
      (wellShaped addr bytes = false ∧ (s.reaches a sp addr).inSys = false) ∨ s.reaches a sp addr = .error →
      exec (.registerWrite a sp addr bytes v) s = .next (settledMem s [] (s.emit (.busError a))))
    ∧ (∀ s a sp addr bytes v, wellShaped addr bytes = false → (s.reaches a sp addr).inSys = true → ∃ t,
      exec (.registerWrite a sp addr bytes v) s = .next t ∧ (∀ r i k, r.delivered = false → t.get r i k = s.get r i k)
        ∧ t.ram = s.ram ∧ .busError a ∈ t.sent)
    ∧ (∀ s a sp addr bytes v, wellShaped addr bytes = true → s.reaches a sp addr = .nothing ∨
      (∃ o off, s.reaches a sp addr = .mirror o off) → exec (.registerWrite a sp addr bytes v) s = .next (settledMem s [] s))
    ∧ (∀ s a sp addr bytes v, wellShaped addr bytes = true → s.reaches a sp addr = .usb →
      exec (.registerWrite a sp addr bytes v) s = .refused .usbHostController)
    ∧ (∀ s a sp addr bytes v x, wellShaped addr bytes = true → s.reaches a sp addr = .fenced x → (∀ p, a ≠ .partition p) → ∃ u,
      exec (.registerWrite a sp addr bytes v) s = .next (settledMem s [] u) ∧ u.sent = .busError a :: s.sent
        ∧ u.get64 .CPX_FENCE_VIOL_ADDR_LO .CPX_FENCE_VIOL_ADDR_HI = BitVec.ofNat 64 (x % 2 ^ 48)
        ∧ u.flag F.CPX_FENCE_VIOL_INFO.write = true ∧ u.raised = s.raised ++ [7])
    ∧ (∀ s p sp addr bytes v x, wellShaped addr bytes = true → s.reaches (.partition p) sp addr = .fenced x → ∃ u n, n < 8
        ∧ exec (.registerWrite (.partition p) sp addr bytes v) s = .next (settledMem s [] u)
        ∧ ExceptionTaken s u n (s.core n).mode 7 (BitVec.ofNat 64 x)
        ∧ u.flag F.CPX_FENCE_VIOL_INFO.write = true ∧ u.raised = s.raised ++ [7])
    ∧ (∀ s a sp addr bytes (v : BitVec 64) key via, wellShaped addr bytes = true → s.reaches a sp addr = .reg key via →
      key.reg.plainWrite = true → ∃ t, exec (.registerWrite a sp addr bytes v) s = .next t
        ∧ t.get key.reg key.i key.k = nextWord key.reg (grant a key via) (s.get key.reg key.i key.k) (v.truncate 32)
        ∧ (∀ r i k, r.delivered = false → RegKey.mk r i k ≠ key → t.get r i k = s.get r i k) ∧ t.ram = s.ram ∧ t.fuses = s.fuses)
    ∧ (∀ (r : Reg) (old v : W32), nextWord r 0 old v = old)
    ∧ (∀ (r : Reg) (f : FieldDesc) (g old v : W32), f ∈ r.fields → f.access ≠ .rw → f.access ≠ .w1c →
      nextWord r g old v &&& f.mask = old &&& f.mask)
    ∧ (∀ (r : Reg) (f : FieldDesc) (g old v : W32), f ∈ r.fields → f.access = .rw → g &&& f.mask = f.mask →
      nextWord r g old v &&& f.mask = v &&& f.mask)
    ∧ (∀ (r : Reg) (f : FieldDesc) (g old v : W32), f ∈ r.fields → f.access = .w1c → g &&& f.mask = f.mask →
      nextWord r g old v &&& f.mask = old &&& ~~~v &&& f.mask))
  ∧ ((∀ s a (n : Fin 8) mode addr bytes num, s.coreRuns n = true → csrReach mode (addr % 4096) false = .inl num → ∃ u,
      exec (.splitLowWordRead a (.csr n mode) addr bytes) s = .next (settled s u) ∧ u.sent = .csr n num (s.csrRead n num) :: s.sent
        ∧ (u.core n).pc = (s.core n).pc + 4 ∧ (u.core n).csrs = (s.core n).csrs ∧ (u.core n).tlb = (s.core n).tlb
        ∧ (∀ k, k ≠ n.val → u.core k = s.core k))
    ∧ (∀ s a (n : Fin 8) mode addr bytes cause, s.coreRuns n = true → csrReach mode (addr % 4096) false = .inr cause → ∃ u,
      exec (.splitLowWordRead a (.csr n mode) addr bytes) s = .next (settled s u) ∧ ExceptionTaken s u n mode cause 0)
    ∧ (∀ s a (n : Fin 8) mode addr bytes v cause, s.coreRuns n = true → csrReach mode (addr % 4096) true = .inr cause → ∃ u,
      exec (.registerWrite a (.csr n mode) addr bytes v) s = .next (settledMem s [] u) ∧ ExceptionTaken s u n mode cause 0)
    ∧ (∀ s a (n : Fin 8) mode addr bytes v num, s.coreRuns n = true → csrReach mode (addr % 4096) true = .inl num → num ≠ 0x7C0 → ∃ u,
      exec (.registerWrite a (.csr n mode) addr bytes v) s = .next (settledMem s [] u) ∧ (u.core n).pc = (s.core n).pc + 4
        ∧ (u.core n).satp = (if num = 0x180 ∧ modeHeld v = true then v else (s.core n).satp)
        ∧ (u.core n).vsatp = (if num = 0x280 ∧ modeHeld v = true then v else (s.core n).vsatp)
        ∧ (u.core n).hgatp = (if num = 0x680 ∧ modeHeld v = true then v &&& hgatpMask else (s.core n).hgatp)
        ∧ (u.core n).medeleg = (if num = 0x302 then v &&& medelegMask else (s.core n).medeleg)
        ∧ ([0x180, 0x280, 0x680, 0x302, 0x341, 0x342, 0x343, 0x34A, 0x64A, 0x7C1, 0x3A0, 0x3A2].contains num = false →
          num < 0x3B0 ∨ 0x3C0 ≤ num → (u.core n).csr num = v)
        ∧ u.coreInner n = s.coreInner n ∧ (u.core n).pworld = (s.core n).pworld ∧ (∀ k, k ≠ n.val → u.core k = s.core k))
    ∧ (∀ s a (n : Fin 8) mode addr bytes v, s.coreRuns n = true → csrReach mode (addr % 4096) true = .inl 0x7C0 → ∃ u,
      exec (.registerWrite a (.csr n mode) addr bytes v) s = .next (settledMem s [] u) ∧ mode = .m
        ∧ u.coreInner n = v.getLsbD 0 ∧ (u.core n).pworld = v.getLsbD 1 ∧ (u.core n).pc = (s.core n).pc + 4)
    ∧ (∀ (x : CoreState) i v, i < 16 → 128 ≤ x.pmpCfg i →
      (x.csrWrite (0x3A0 + i / 8 * 2) v).pmpCfg i = x.pmpCfg i
        ∧ (x.csrWrite (0x3B0 + i) v).csr (0x3B0 + i) = x.csr (0x3B0 + i))
    ∧ (∀ s a (n : Fin 8) mode k x y addr bytes v, s.coreRuns n = true → fenceTrap mode k = none → ∃ u,
      exec (.registerWrite a (.fence n mode k x y) addr bytes v) s = .next (settledMem s [] u)
        ∧ (u.core n).pc = (s.core n).pc + 4 ∧ (u.core n).csrs = (s.core n).csrs
        ∧ (∀ t, t ∈ (u.core n).tlb ↔ t ∈ (s.core n).tlb ∧ (match k with
            | .sfenceVma => vmaHits ((s.core n).vmidOf mode) x y t
            | .hfenceVvma => vmaHits (some (s.core n).vmid) x y t
            | .hfenceGvma => gvmaHits x y t) = false)
        ∧ (∀ k, k ≠ n.val → u.core k = s.core k))
    ∧ (∀ s a (n : Fin 8) mode k x y addr bytes v cause, s.coreRuns n = true → fenceTrap mode k = some cause → ∃ u,
      exec (.registerWrite a (.fence n mode k x y) addr bytes v) s = .next (settledMem s [] u) ∧ ExceptionTaken s u n mode cause 0)
    ∧ (∀ s a (n : Fin 8) mode k x y addr bytes v, s.coreRuns n = false →
      exec (.splitLowWordRead a (.csr n mode) addr bytes) s = .next (settled s s)
        ∧ exec (.registerWrite a (.csr n mode) addr bytes v) s = .next (settledMem s [] s)
        ∧ exec (.registerWrite a (.fence n mode k x y) addr bytes v) s = .next (settledMem s [] s))
    ∧ (∀ s a (f : Fin 64) addr bytes (v : BitVec 64), a = (if f = 0 then .manager else .guest f) → s.up = true →
      s.dom.hostL2 = false → ∃ u, exec (.registerWrite a (.msixControl f) addr bytes v) s = .next (settledMem s [] u)
        ∧ (f.val ∈ u.vir.msixOn ↔ v.getLsbD 15 = true) ∧ (f.val ∈ u.vir.msixMask ↔ v.getLsbD 14 = true)
        ∧ (∀ g, g ≠ f.val → (g ∈ u.vir.msixOn ↔ g ∈ s.vir.msixOn) ∧ (g ∈ u.vir.msixMask ↔ g ∈ s.vir.msixMask)))
    ∧ (∀ s a (f : Fin 64) addr bytes v, a ≠ (if f = 0 then .manager else .guest f) ∨ s.up = false ∨ s.dom.hostL2 = true →
      exec (.registerWrite a (.msixControl f) addr bytes v) s = .next (settledMem s [] (s.emit (.busError a)))))

/-- SPLIT_LOW_WORD_READ of a value split across two registers (R76): the read of the low word latches the high word
for its agent; the agent's next read of the high word returns what was latched; with nothing latched it returns the
live word. (Where an earlier read latched the low word itself, R100 and R332 say what is returned, and AXIS_POS_LO is
a row of its own.) -/
def Obligations.SplitValues : Prop :=
  (∀ s a sp addr bytes key via hi, wellShaped addr bytes = true → s.reaches a sp addr = .reg key via → key.reg ≠ .AXIS_POS_LO →
    hi ∈ key.reg.highOf.toList.map (fun r => { key with reg := r }) ++
      (if Reg.pairByCopy.contains key.reg ∧ key.k = 0 then [{ key with k := 1 }] else []) →
    s.latchedAt a key = none → ∃ u, exec (.splitLowWordRead a sp addr bytes) s = .next (settled s u)
      ∧ u.sent = .readValue a (s.current a key) :: s.sent ∧ u.latchedAt a hi = some (s.current a hi) ∧ u.regs = s.regs
      ∧ ∀ b k, b ≠ a → u.latchedAt b k = s.latchedAt b k)
  ∧ (∀ s a sp addr bytes i via, wellShaped addr bytes = true → s.reaches a sp addr = .reg ⟨.AXIS_POS_LO, i, 0⟩ via →
    s.clocked .TIME = true → ∃ u, exec (.splitLowWordRead a sp addr bytes) s = .next (settled s u)
      ∧ u.latchedAt a ⟨.AXIS_POS_HI, i, 0⟩ = some (highWord (BitVec.ofInt 64 (s.axisAt i s.gridTime).1)))
  ∧ (∀ s a sp addr bytes key via v, wellShaped addr bytes = true → s.reaches a sp addr = .reg key via → key.lowOf.isSome = true →
    s.latchedAt a key = some v → ∃ u, exec (.splitLowWordRead a sp addr bytes) s = .next (settled s u)
      ∧ u.sent = .readValue a (v &&& key.reg.readable) :: s.sent ∧ u.regs = s.regs)
  ∧ (∀ s a sp addr bytes key via, wellShaped addr bytes = true → s.reaches a sp addr = .reg key via → key.lowOf.isSome = true →
    s.latchedAt a key = none → ∃ u, exec (.splitLowWordRead a sp addr bytes) s = .next (settled s u)
      ∧ u.sent = .readValue a (s.current a key) :: s.sent ∧ u.regs = s.regs)

/-- SPLIT_LOW_WORD_READ, REGISTER_WRITE (R22): an access to a block that the power state holds gated, from the
main-domain map or from PF BAR0, gets an error response and does nothing else, so that it wakes nothing and no write
is kept for later. -/
def Obligations.GatedBlocksAnswerErrors : Prop :=
  (∀ s a addr bytes v b, blockAt addr = some b → s.clocked b = false → s.innerRegion addr = false →
    exec (.splitLowWordRead a .main addr bytes) s = .next (settled s (s.emit (.busError a)))
      ∧ exec (.registerWrite a .main addr bytes v) s = .next (settledMem s [] (s.emit (.busError a))))
  ∧ (∀ s a addr bytes v b, pfBlockAt addr = some b → s.clocked b = false →
    s.innerRegion (b.place.base + (addr - b.place.pf.getD 0)) = false →
    exec (.splitLowWordRead a .pfBar0 addr bytes) s = .next (settled s (s.emit (.busError a)))
      ∧ exec (.registerWrite a .pfBar0 addr bytes v) s = .next (settledMem s [] (s.emit (.busError a))))

/-- One step runs the command at the front of the queue with the rest of the queue, and no command touches the queue.
Every command ends in a next state, but for an access to the xHCI registers of a USB host controller, which the spec
does not give (R360). With no command waiting the clock ticks (the model's choice, log entry 5). -/
def Obligations.StepRunsTheCommandInFront : Prop :=
  (∀ s c rest, s.pending = c :: rest → step s = exec c { s with pending := rest })
  ∧ (∀ c s t, exec c s = .next t → t.pending = s.pending)
  ∧ (∀ c s, (∃ t, exec c s = .next t) ∨ (exec c s = .refused .usbHostController ∧ Instr.reachesUsb s c = true))
  ∧ (∀ c s, Instr.reachesUsb s c = true → exec c s = .refused .usbHostController)
  ∧ (∀ s, s.pending = [] → step s = .next s.tick)
  ∧ (∀ s : State, s.dom.island ≠ .inReset → s.tim.adjust = 0 → s.tick.tim.islandCopy = s.tim.islandCopy + 1
      ∧ s.tick.tim.st = (if s.stValid then s.tim.st + 1 else s.tim.st) ∧ s.tick.tim.frac = s.tim.frac)

/-- R54: what the part holds right after its reset: the island and the main domain in reset, both status pins low,
every register at its reset value, nothing sent and nothing waiting; every table in its canonical form. -/
def Obligations.ResetState : Prop :=
  State.reset.dom.island = .inReset ∧ State.reset.dom.mainUp = false ∧ State.reset.dom.islOkPin = false
    ∧ State.reset.dom.mainOkPin = false ∧ (∀ r i k, State.reset.get r i k = r.initial)
    ∧ (∀ o, Tbl.get OutState.initial State.reset.outs o = OutState.initial) ∧ State.reset.sent = []
    ∧ State.reset.pending = [] ∧ MemoryOk State.reset ∧ RegsOk State.reset ∧ MemQueuesOk State.reset

/-- Every step keeps memory in its canonical form. -/
def Obligations.StepKeepsMemory : Prop :=
  ∀ s t, MemoryOk s → step s = .next t → MemoryOk t

/-- R38, R59: OTP: no step changes a root key hash slot, a revocation, HONOUR_RESET_HOLD or the stepping.

R332: every step keeps it that a latched touch report holds words of the report block alone, and none is latched at
reset.

R254: no memory command lets a port hold more tags than its pool, or a channel more slots than 64, or a request a
number not yet given. -/
def Obligations.StepKeepsQueuesReportsAndOtp : Prop :=
  (∀ s t, step s = .next t → t.fuses = s.fuses)
  ∧ (LatchesOk State.reset ∧ ∀ s t, LatchesOk s → step s = .next t → LatchesOk t)
  ∧ (∀ (c : Instr) (s t : State), c.ofMemory = true → MemQueuesOk s → exec c s = .next t → MemQueuesOk t)

/-- Every byte outside those that a command stores reads as before, unless power or reset loses memory whole. -/
def Obligations.OnlyStoresChangeMemory : Prop :=
  ∀ (c : Instr) (s t : State), c.losesMemory s = false → exec c s = .next t →
    ∀ a, (∀ w ∈ c.stores s, a < w.1 ∨ w.1 + w.2.length ≤ a) → t.readByte a = s.readByte a

/-- R377, R378: an event raised in Day or Dusk sets its sticky bit and reaches the island and the management cores
where routed; below Dusk it reaches only the island; while the main domain is in reset it reaches nobody. -/
def Obligations.EventsReachTheirConsumers : Prop :=
  (∀ s u n, u.awake = true → n ∈ u.raised → (settled s u).hasBit .EVT_STICKY (n % 32) 0 (n / 32) = true
      ∧ (islandRouted n = true → n ∈ (settled s u).isl.pend)
      ∧ (u.flag F.EVT_ROUTE.mgmt n = true → (settled s u).hasBit .EVT_MGMT_PEND (n % 32) 0 (n / 32) = true))
  ∧ (∀ s u n, u.awake = false → u.up = true → n ∈ u.raised → islandRouted n = true → n ∈ (settled s u).isl.pend)
  ∧ (∀ s u, u.awake = false → (settled s u).regs = u.regs ∧ (settled s u).sent = u.sent ∧ (settled s u).hap = u.hap)
  ∧ (∀ s u, u.up = false → (settled s u).isl = u.isl)

/-- R20, R21: the register windows of the rows that only the manager may use: another agent gets an error response,
and nothing else happens. -/
def Obligations.OnlyTheManagerActs : Prop :=
  ∀ (c : Instr) (a : Agent) (s : State), c.managerRow = some a → a ≠ .manager → ∃ t, exec c s = .next t
    ∧ (∀ r i k, r.delivered = false → t.get r i k = s.get r i k) ∧ t.ram = s.ram ∧ .busError a ∈ t.sent
    ∧ (s.raised = [] → t = { s with sent := .busError a :: s.sent })

/-- What the commands of chapters 3 to 5 of the spec (Instr.chapter) leave as it was when they end in a next state:
every register that is none of the command's own (Instr.writes) and that the delivery of events does not write, and
every part of the state that is none of its own (Instr.parts). What memory keeps is said by OnlyStoresChangeMemory. -/
def Obligations.FramesOfPowerTimeAndCues : Prop :=
  ∀ (c : Instr) (s t : State), 3 ≤ c.chapter → c.chapter ≤ 5 → exec c s = .next t →
    (∀ r i k, r ∉ c.writes → r.delivered = false → t.get r i k = s.get r i k) ∧ (∀ p, p ∉ c.parts → p.same s t)

/-- What the commands of chapters 6 to 12 of the spec (Instr.chapter) leave as it was when they end in a next state:
every register that is none of the command's own (Instr.writes) and that the delivery of events does not write, and
every part of the state that is none of its own (Instr.parts). What memory keeps is said by OnlyStoresChangeMemory. -/
def Obligations.FramesOfLinksPictureAndMemory : Prop :=
  ∀ (c : Instr) (s t : State), 6 ≤ c.chapter → c.chapter ≤ 12 → exec c s = .next t →
    (∀ r i k, r ∉ c.writes → r.delivered = false → t.get r i k = s.get r i k) ∧ (∀ p, p ∉ c.parts → p.same s t)

/-- What the commands of chapters 13 to 18 of the spec (Instr.chapter) leave as it was when they end in a next state:
every register that is none of the command's own (Instr.writes) and that the delivery of events does not write, and
every part of the state that is none of its own (Instr.parts). What memory keeps is said by OnlyStoresChangeMemory. -/
def Obligations.FramesOfInstancesIoAndEvents : Prop :=
  ∀ (c : Instr) (s t : State), 13 ≤ c.chapter → c.chapter ≤ 18 → exec c s = .next t →
    (∀ r i k, r ∉ c.writes → r.delivered = false → t.get r i k = s.get r i k) ∧ (∀ p, p ∉ c.parts → p.same s t)
end

