-- ==== Sys2Proof/Laws/State.lean ====
section
/-! SUPPORT. The small laws of the shared updates of the state: one for each field and update, true by computation, so that
no proof unfolds a record update. -/

namespace Sys2Proof.Machine

variable (s : State)

/-! ### put -/

@[simp] theorem State.put_ram (r : Reg) (v : W32) (i k : Nat) : (s.put r v i k).ram = s.ram := rfl
@[simp] theorem State.put_fuses (r : Reg) (v : W32) (i k : Nat) : (s.put r v i k).fuses = s.fuses := rfl
@[simp] theorem State.put_dom (r : Reg) (v : W32) (i k : Nat) : (s.put r v i k).dom = s.dom := rfl
@[simp] theorem State.put_rcp (r : Reg) (v : W32) (i k : Nat) : (s.put r v i k).rcp = s.rcp := rfl
@[simp] theorem State.put_pwr (r : Reg) (v : W32) (i k : Nat) : (s.put r v i k).pwr = s.pwr := rfl
@[simp] theorem State.put_tim (r : Reg) (v : W32) (i k : Nat) : (s.put r v i k).tim = s.tim := rfl
@[simp] theorem State.put_axes (r : Reg) (v : W32) (i k : Nat) : (s.put r v i k).axes = s.axes := rfl
@[simp] theorem State.put_genlock (r : Reg) (v : W32) (i k : Nat) : (s.put r v i k).genlock = s.genlock := rfl
@[simp] theorem State.put_shadows (r : Reg) (v : W32) (i k : Nat) : (s.put r v i k).shadows = s.shadows := rfl
@[simp] theorem State.put_cue (r : Reg) (v : W32) (i k : Nat) : (s.put r v i k).cue = s.cue := rfl
@[simp] theorem State.put_fab (r : Reg) (v : W32) (i k : Nat) : (s.put r v i k).fab = s.fab := rfl
@[simp] theorem State.put_gfx (r : Reg) (v : W32) (i k : Nat) : (s.put r v i k).gfx = s.gfx := rfl
@[simp] theorem State.put_cmp (r : Reg) (v : W32) (i k : Nat) : (s.put r v i k).cmp = s.cmp := rfl
@[simp] theorem State.put_outs (r : Reg) (v : W32) (i k : Nat) : (s.put r v i k).outs = s.outs := rfl
@[simp] theorem State.put_isl (r : Reg) (v : W32) (i k : Nat) : (s.put r v i k).isl = s.isl := rfl
@[simp] theorem State.put_mem (r : Reg) (v : W32) (i k : Nat) : (s.put r v i k).mem = s.mem := rfl
@[simp] theorem State.put_cpx (r : Reg) (v : W32) (i k : Nat) : (s.put r v i k).cpx = s.cpx := rfl
@[simp] theorem State.put_vir (r : Reg) (v : W32) (i k : Nat) : (s.put r v i k).vir = s.vir := rfl
@[simp] theorem State.put_dma (r : Reg) (v : W32) (i k : Nat) : (s.put r v i k).dma = s.dma := rfl
@[simp] theorem State.put_crc (r : Reg) (v : W32) (i k : Nat) : (s.put r v i k).crc = s.crc := rfl
@[simp] theorem State.put_tch (r : Reg) (v : W32) (i k : Nat) : (s.put r v i k).tch = s.tch := rfl
@[simp] theorem State.put_latches (r : Reg) (v : W32) (i k : Nat) : (s.put r v i k).latches = s.latches := rfl
@[simp] theorem State.put_hap (r : Reg) (v : W32) (i k : Nat) : (s.put r v i k).hap = s.hap := rfl
@[simp] theorem State.put_sio (r : Reg) (v : W32) (i k : Nat) : (s.put r v i k).sio = s.sio := rfl
@[simp] theorem State.put_aud (r : Reg) (v : W32) (i k : Nat) : (s.put r v i k).aud = s.aud := rfl
@[simp] theorem State.put_evt (r : Reg) (v : W32) (i k : Nat) : (s.put r v i k).evt = s.evt := rfl
@[simp] theorem State.put_sent (r : Reg) (v : W32) (i k : Nat) : (s.put r v i k).sent = s.sent := rfl
@[simp] theorem State.put_raised (r : Reg) (v : W32) (i k : Nat) : (s.put r v i k).raised = s.raised := rfl
@[simp] theorem State.put_draws (r : Reg) (v : W32) (i k : Nat) : (s.put r v i k).draws = s.draws := rfl
@[simp] theorem State.put_pending (r : Reg) (v : W32) (i k : Nat) : (s.put r v i k).pending = s.pending := rfl

/-! ### fset -/

@[simp] theorem State.fset_ram (f : Fld) (v i k : Nat) : (s.fset f v i k).ram = s.ram := rfl
@[simp] theorem State.fset_fuses (f : Fld) (v i k : Nat) : (s.fset f v i k).fuses = s.fuses := rfl
@[simp] theorem State.fset_dom (f : Fld) (v i k : Nat) : (s.fset f v i k).dom = s.dom := rfl
@[simp] theorem State.fset_rcp (f : Fld) (v i k : Nat) : (s.fset f v i k).rcp = s.rcp := rfl
@[simp] theorem State.fset_pwr (f : Fld) (v i k : Nat) : (s.fset f v i k).pwr = s.pwr := rfl
@[simp] theorem State.fset_tim (f : Fld) (v i k : Nat) : (s.fset f v i k).tim = s.tim := rfl
@[simp] theorem State.fset_axes (f : Fld) (v i k : Nat) : (s.fset f v i k).axes = s.axes := rfl
@[simp] theorem State.fset_genlock (f : Fld) (v i k : Nat) : (s.fset f v i k).genlock = s.genlock := rfl
@[simp] theorem State.fset_shadows (f : Fld) (v i k : Nat) : (s.fset f v i k).shadows = s.shadows := rfl
@[simp] theorem State.fset_cue (f : Fld) (v i k : Nat) : (s.fset f v i k).cue = s.cue := rfl
@[simp] theorem State.fset_fab (f : Fld) (v i k : Nat) : (s.fset f v i k).fab = s.fab := rfl
@[simp] theorem State.fset_gfx (f : Fld) (v i k : Nat) : (s.fset f v i k).gfx = s.gfx := rfl
@[simp] theorem State.fset_cmp (f : Fld) (v i k : Nat) : (s.fset f v i k).cmp = s.cmp := rfl
@[simp] theorem State.fset_outs (f : Fld) (v i k : Nat) : (s.fset f v i k).outs = s.outs := rfl
@[simp] theorem State.fset_isl (f : Fld) (v i k : Nat) : (s.fset f v i k).isl = s.isl := rfl
@[simp] theorem State.fset_mem (f : Fld) (v i k : Nat) : (s.fset f v i k).mem = s.mem := rfl
@[simp] theorem State.fset_cpx (f : Fld) (v i k : Nat) : (s.fset f v i k).cpx = s.cpx := rfl
@[simp] theorem State.fset_vir (f : Fld) (v i k : Nat) : (s.fset f v i k).vir = s.vir := rfl
@[simp] theorem State.fset_dma (f : Fld) (v i k : Nat) : (s.fset f v i k).dma = s.dma := rfl
@[simp] theorem State.fset_crc (f : Fld) (v i k : Nat) : (s.fset f v i k).crc = s.crc := rfl
@[simp] theorem State.fset_tch (f : Fld) (v i k : Nat) : (s.fset f v i k).tch = s.tch := rfl
@[simp] theorem State.fset_latches (f : Fld) (v i k : Nat) : (s.fset f v i k).latches = s.latches := rfl
@[simp] theorem State.fset_hap (f : Fld) (v i k : Nat) : (s.fset f v i k).hap = s.hap := rfl
@[simp] theorem State.fset_sio (f : Fld) (v i k : Nat) : (s.fset f v i k).sio = s.sio := rfl
@[simp] theorem State.fset_aud (f : Fld) (v i k : Nat) : (s.fset f v i k).aud = s.aud := rfl
@[simp] theorem State.fset_evt (f : Fld) (v i k : Nat) : (s.fset f v i k).evt = s.evt := rfl
@[simp] theorem State.fset_sent (f : Fld) (v i k : Nat) : (s.fset f v i k).sent = s.sent := rfl
@[simp] theorem State.fset_raised (f : Fld) (v i k : Nat) : (s.fset f v i k).raised = s.raised := rfl
@[simp] theorem State.fset_draws (f : Fld) (v i k : Nat) : (s.fset f v i k).draws = s.draws := rfl
@[simp] theorem State.fset_pending (f : Fld) (v i k : Nat) : (s.fset f v i k).pending = s.pending := rfl

/-! ### fflag -/

@[simp] theorem State.fflag_ram (f : Fld) (b : Bool) (i k : Nat) : (s.fflag f b i k).ram = s.ram := rfl
@[simp] theorem State.fflag_fuses (f : Fld) (b : Bool) (i k : Nat) : (s.fflag f b i k).fuses = s.fuses := rfl
@[simp] theorem State.fflag_dom (f : Fld) (b : Bool) (i k : Nat) : (s.fflag f b i k).dom = s.dom := rfl
@[simp] theorem State.fflag_rcp (f : Fld) (b : Bool) (i k : Nat) : (s.fflag f b i k).rcp = s.rcp := rfl
@[simp] theorem State.fflag_pwr (f : Fld) (b : Bool) (i k : Nat) : (s.fflag f b i k).pwr = s.pwr := rfl
@[simp] theorem State.fflag_tim (f : Fld) (b : Bool) (i k : Nat) : (s.fflag f b i k).tim = s.tim := rfl
@[simp] theorem State.fflag_axes (f : Fld) (b : Bool) (i k : Nat) : (s.fflag f b i k).axes = s.axes := rfl
@[simp] theorem State.fflag_genlock (f : Fld) (b : Bool) (i k : Nat) : (s.fflag f b i k).genlock = s.genlock := rfl
@[simp] theorem State.fflag_shadows (f : Fld) (b : Bool) (i k : Nat) : (s.fflag f b i k).shadows = s.shadows := rfl
@[simp] theorem State.fflag_cue (f : Fld) (b : Bool) (i k : Nat) : (s.fflag f b i k).cue = s.cue := rfl
@[simp] theorem State.fflag_fab (f : Fld) (b : Bool) (i k : Nat) : (s.fflag f b i k).fab = s.fab := rfl
@[simp] theorem State.fflag_gfx (f : Fld) (b : Bool) (i k : Nat) : (s.fflag f b i k).gfx = s.gfx := rfl
@[simp] theorem State.fflag_cmp (f : Fld) (b : Bool) (i k : Nat) : (s.fflag f b i k).cmp = s.cmp := rfl
@[simp] theorem State.fflag_outs (f : Fld) (b : Bool) (i k : Nat) : (s.fflag f b i k).outs = s.outs := rfl
@[simp] theorem State.fflag_isl (f : Fld) (b : Bool) (i k : Nat) : (s.fflag f b i k).isl = s.isl := rfl
@[simp] theorem State.fflag_mem (f : Fld) (b : Bool) (i k : Nat) : (s.fflag f b i k).mem = s.mem := rfl
@[simp] theorem State.fflag_cpx (f : Fld) (b : Bool) (i k : Nat) : (s.fflag f b i k).cpx = s.cpx := rfl
@[simp] theorem State.fflag_vir (f : Fld) (b : Bool) (i k : Nat) : (s.fflag f b i k).vir = s.vir := rfl
@[simp] theorem State.fflag_dma (f : Fld) (b : Bool) (i k : Nat) : (s.fflag f b i k).dma = s.dma := rfl
@[simp] theorem State.fflag_crc (f : Fld) (b : Bool) (i k : Nat) : (s.fflag f b i k).crc = s.crc := rfl
@[simp] theorem State.fflag_tch (f : Fld) (b : Bool) (i k : Nat) : (s.fflag f b i k).tch = s.tch := rfl
@[simp] theorem State.fflag_latches (f : Fld) (b : Bool) (i k : Nat) : (s.fflag f b i k).latches = s.latches := rfl
@[simp] theorem State.fflag_hap (f : Fld) (b : Bool) (i k : Nat) : (s.fflag f b i k).hap = s.hap := rfl
@[simp] theorem State.fflag_sio (f : Fld) (b : Bool) (i k : Nat) : (s.fflag f b i k).sio = s.sio := rfl
@[simp] theorem State.fflag_aud (f : Fld) (b : Bool) (i k : Nat) : (s.fflag f b i k).aud = s.aud := rfl
@[simp] theorem State.fflag_evt (f : Fld) (b : Bool) (i k : Nat) : (s.fflag f b i k).evt = s.evt := rfl
@[simp] theorem State.fflag_sent (f : Fld) (b : Bool) (i k : Nat) : (s.fflag f b i k).sent = s.sent := rfl
@[simp] theorem State.fflag_raised (f : Fld) (b : Bool) (i k : Nat) : (s.fflag f b i k).raised = s.raised := rfl
@[simp] theorem State.fflag_draws (f : Fld) (b : Bool) (i k : Nat) : (s.fflag f b i k).draws = s.draws := rfl
@[simp] theorem State.fflag_pending (f : Fld) (b : Bool) (i k : Nat) : (s.fflag f b i k).pending = s.pending := rfl

/-! ### bump -/

@[simp] theorem State.bump_ram (f : Fld) (i k : Nat) : (s.bump f i k).ram = s.ram := rfl
@[simp] theorem State.bump_fuses (f : Fld) (i k : Nat) : (s.bump f i k).fuses = s.fuses := rfl
@[simp] theorem State.bump_dom (f : Fld) (i k : Nat) : (s.bump f i k).dom = s.dom := rfl
@[simp] theorem State.bump_rcp (f : Fld) (i k : Nat) : (s.bump f i k).rcp = s.rcp := rfl
@[simp] theorem State.bump_pwr (f : Fld) (i k : Nat) : (s.bump f i k).pwr = s.pwr := rfl
@[simp] theorem State.bump_tim (f : Fld) (i k : Nat) : (s.bump f i k).tim = s.tim := rfl
@[simp] theorem State.bump_axes (f : Fld) (i k : Nat) : (s.bump f i k).axes = s.axes := rfl
@[simp] theorem State.bump_genlock (f : Fld) (i k : Nat) : (s.bump f i k).genlock = s.genlock := rfl
@[simp] theorem State.bump_shadows (f : Fld) (i k : Nat) : (s.bump f i k).shadows = s.shadows := rfl
@[simp] theorem State.bump_cue (f : Fld) (i k : Nat) : (s.bump f i k).cue = s.cue := rfl
@[simp] theorem State.bump_fab (f : Fld) (i k : Nat) : (s.bump f i k).fab = s.fab := rfl
@[simp] theorem State.bump_gfx (f : Fld) (i k : Nat) : (s.bump f i k).gfx = s.gfx := rfl
@[simp] theorem State.bump_cmp (f : Fld) (i k : Nat) : (s.bump f i k).cmp = s.cmp := rfl
@[simp] theorem State.bump_outs (f : Fld) (i k : Nat) : (s.bump f i k).outs = s.outs := rfl
@[simp] theorem State.bump_isl (f : Fld) (i k : Nat) : (s.bump f i k).isl = s.isl := rfl
@[simp] theorem State.bump_mem (f : Fld) (i k : Nat) : (s.bump f i k).mem = s.mem := rfl
@[simp] theorem State.bump_cpx (f : Fld) (i k : Nat) : (s.bump f i k).cpx = s.cpx := rfl
@[simp] theorem State.bump_vir (f : Fld) (i k : Nat) : (s.bump f i k).vir = s.vir := rfl
@[simp] theorem State.bump_dma (f : Fld) (i k : Nat) : (s.bump f i k).dma = s.dma := rfl
@[simp] theorem State.bump_crc (f : Fld) (i k : Nat) : (s.bump f i k).crc = s.crc := rfl
@[simp] theorem State.bump_tch (f : Fld) (i k : Nat) : (s.bump f i k).tch = s.tch := rfl
@[simp] theorem State.bump_latches (f : Fld) (i k : Nat) : (s.bump f i k).latches = s.latches := rfl
@[simp] theorem State.bump_hap (f : Fld) (i k : Nat) : (s.bump f i k).hap = s.hap := rfl
@[simp] theorem State.bump_sio (f : Fld) (i k : Nat) : (s.bump f i k).sio = s.sio := rfl
@[simp] theorem State.bump_aud (f : Fld) (i k : Nat) : (s.bump f i k).aud = s.aud := rfl
@[simp] theorem State.bump_evt (f : Fld) (i k : Nat) : (s.bump f i k).evt = s.evt := rfl
@[simp] theorem State.bump_sent (f : Fld) (i k : Nat) : (s.bump f i k).sent = s.sent := rfl
@[simp] theorem State.bump_raised (f : Fld) (i k : Nat) : (s.bump f i k).raised = s.raised := rfl
@[simp] theorem State.bump_draws (f : Fld) (i k : Nat) : (s.bump f i k).draws = s.draws := rfl
@[simp] theorem State.bump_pending (f : Fld) (i k : Nat) : (s.bump f i k).pending = s.pending := rfl

/-! ### bumpBy -/

@[simp] theorem State.bumpBy_ram (f : Fld) (n i k : Nat) : (s.bumpBy f n i k).ram = s.ram := rfl
@[simp] theorem State.bumpBy_fuses (f : Fld) (n i k : Nat) : (s.bumpBy f n i k).fuses = s.fuses := rfl
@[simp] theorem State.bumpBy_dom (f : Fld) (n i k : Nat) : (s.bumpBy f n i k).dom = s.dom := rfl
@[simp] theorem State.bumpBy_rcp (f : Fld) (n i k : Nat) : (s.bumpBy f n i k).rcp = s.rcp := rfl
@[simp] theorem State.bumpBy_pwr (f : Fld) (n i k : Nat) : (s.bumpBy f n i k).pwr = s.pwr := rfl
@[simp] theorem State.bumpBy_tim (f : Fld) (n i k : Nat) : (s.bumpBy f n i k).tim = s.tim := rfl
@[simp] theorem State.bumpBy_axes (f : Fld) (n i k : Nat) : (s.bumpBy f n i k).axes = s.axes := rfl
@[simp] theorem State.bumpBy_genlock (f : Fld) (n i k : Nat) : (s.bumpBy f n i k).genlock = s.genlock := rfl
@[simp] theorem State.bumpBy_shadows (f : Fld) (n i k : Nat) : (s.bumpBy f n i k).shadows = s.shadows := rfl
@[simp] theorem State.bumpBy_cue (f : Fld) (n i k : Nat) : (s.bumpBy f n i k).cue = s.cue := rfl
@[simp] theorem State.bumpBy_fab (f : Fld) (n i k : Nat) : (s.bumpBy f n i k).fab = s.fab := rfl
@[simp] theorem State.bumpBy_gfx (f : Fld) (n i k : Nat) : (s.bumpBy f n i k).gfx = s.gfx := rfl
@[simp] theorem State.bumpBy_cmp (f : Fld) (n i k : Nat) : (s.bumpBy f n i k).cmp = s.cmp := rfl
@[simp] theorem State.bumpBy_outs (f : Fld) (n i k : Nat) : (s.bumpBy f n i k).outs = s.outs := rfl
@[simp] theorem State.bumpBy_isl (f : Fld) (n i k : Nat) : (s.bumpBy f n i k).isl = s.isl := rfl
@[simp] theorem State.bumpBy_mem (f : Fld) (n i k : Nat) : (s.bumpBy f n i k).mem = s.mem := rfl
@[simp] theorem State.bumpBy_cpx (f : Fld) (n i k : Nat) : (s.bumpBy f n i k).cpx = s.cpx := rfl
@[simp] theorem State.bumpBy_vir (f : Fld) (n i k : Nat) : (s.bumpBy f n i k).vir = s.vir := rfl
@[simp] theorem State.bumpBy_dma (f : Fld) (n i k : Nat) : (s.bumpBy f n i k).dma = s.dma := rfl
@[simp] theorem State.bumpBy_crc (f : Fld) (n i k : Nat) : (s.bumpBy f n i k).crc = s.crc := rfl
@[simp] theorem State.bumpBy_tch (f : Fld) (n i k : Nat) : (s.bumpBy f n i k).tch = s.tch := rfl
@[simp] theorem State.bumpBy_latches (f : Fld) (n i k : Nat) : (s.bumpBy f n i k).latches = s.latches := rfl
@[simp] theorem State.bumpBy_hap (f : Fld) (n i k : Nat) : (s.bumpBy f n i k).hap = s.hap := rfl
@[simp] theorem State.bumpBy_sio (f : Fld) (n i k : Nat) : (s.bumpBy f n i k).sio = s.sio := rfl
@[simp] theorem State.bumpBy_aud (f : Fld) (n i k : Nat) : (s.bumpBy f n i k).aud = s.aud := rfl
@[simp] theorem State.bumpBy_evt (f : Fld) (n i k : Nat) : (s.bumpBy f n i k).evt = s.evt := rfl
@[simp] theorem State.bumpBy_sent (f : Fld) (n i k : Nat) : (s.bumpBy f n i k).sent = s.sent := rfl
@[simp] theorem State.bumpBy_raised (f : Fld) (n i k : Nat) : (s.bumpBy f n i k).raised = s.raised := rfl
@[simp] theorem State.bumpBy_draws (f : Fld) (n i k : Nat) : (s.bumpBy f n i k).draws = s.draws := rfl
@[simp] theorem State.bumpBy_pending (f : Fld) (n i k : Nat) : (s.bumpBy f n i k).pending = s.pending := rfl

/-! ### bumpSat -/

@[simp] theorem State.bumpSat_ram (f : Fld) (i k : Nat) : (s.bumpSat f i k).ram = s.ram := rfl
@[simp] theorem State.bumpSat_fuses (f : Fld) (i k : Nat) : (s.bumpSat f i k).fuses = s.fuses := rfl
@[simp] theorem State.bumpSat_dom (f : Fld) (i k : Nat) : (s.bumpSat f i k).dom = s.dom := rfl
@[simp] theorem State.bumpSat_rcp (f : Fld) (i k : Nat) : (s.bumpSat f i k).rcp = s.rcp := rfl
@[simp] theorem State.bumpSat_pwr (f : Fld) (i k : Nat) : (s.bumpSat f i k).pwr = s.pwr := rfl
@[simp] theorem State.bumpSat_tim (f : Fld) (i k : Nat) : (s.bumpSat f i k).tim = s.tim := rfl
@[simp] theorem State.bumpSat_axes (f : Fld) (i k : Nat) : (s.bumpSat f i k).axes = s.axes := rfl
@[simp] theorem State.bumpSat_genlock (f : Fld) (i k : Nat) : (s.bumpSat f i k).genlock = s.genlock := rfl
@[simp] theorem State.bumpSat_shadows (f : Fld) (i k : Nat) : (s.bumpSat f i k).shadows = s.shadows := rfl
@[simp] theorem State.bumpSat_cue (f : Fld) (i k : Nat) : (s.bumpSat f i k).cue = s.cue := rfl
@[simp] theorem State.bumpSat_fab (f : Fld) (i k : Nat) : (s.bumpSat f i k).fab = s.fab := rfl
@[simp] theorem State.bumpSat_gfx (f : Fld) (i k : Nat) : (s.bumpSat f i k).gfx = s.gfx := rfl
@[simp] theorem State.bumpSat_cmp (f : Fld) (i k : Nat) : (s.bumpSat f i k).cmp = s.cmp := rfl
@[simp] theorem State.bumpSat_outs (f : Fld) (i k : Nat) : (s.bumpSat f i k).outs = s.outs := rfl
@[simp] theorem State.bumpSat_isl (f : Fld) (i k : Nat) : (s.bumpSat f i k).isl = s.isl := rfl
@[simp] theorem State.bumpSat_mem (f : Fld) (i k : Nat) : (s.bumpSat f i k).mem = s.mem := rfl
@[simp] theorem State.bumpSat_cpx (f : Fld) (i k : Nat) : (s.bumpSat f i k).cpx = s.cpx := rfl
@[simp] theorem State.bumpSat_vir (f : Fld) (i k : Nat) : (s.bumpSat f i k).vir = s.vir := rfl
@[simp] theorem State.bumpSat_dma (f : Fld) (i k : Nat) : (s.bumpSat f i k).dma = s.dma := rfl
@[simp] theorem State.bumpSat_crc (f : Fld) (i k : Nat) : (s.bumpSat f i k).crc = s.crc := rfl
@[simp] theorem State.bumpSat_tch (f : Fld) (i k : Nat) : (s.bumpSat f i k).tch = s.tch := rfl
@[simp] theorem State.bumpSat_latches (f : Fld) (i k : Nat) : (s.bumpSat f i k).latches = s.latches := rfl
@[simp] theorem State.bumpSat_hap (f : Fld) (i k : Nat) : (s.bumpSat f i k).hap = s.hap := rfl
@[simp] theorem State.bumpSat_sio (f : Fld) (i k : Nat) : (s.bumpSat f i k).sio = s.sio := rfl
@[simp] theorem State.bumpSat_aud (f : Fld) (i k : Nat) : (s.bumpSat f i k).aud = s.aud := rfl
@[simp] theorem State.bumpSat_evt (f : Fld) (i k : Nat) : (s.bumpSat f i k).evt = s.evt := rfl
@[simp] theorem State.bumpSat_sent (f : Fld) (i k : Nat) : (s.bumpSat f i k).sent = s.sent := rfl
@[simp] theorem State.bumpSat_raised (f : Fld) (i k : Nat) : (s.bumpSat f i k).raised = s.raised := rfl
@[simp] theorem State.bumpSat_draws (f : Fld) (i k : Nat) : (s.bumpSat f i k).draws = s.draws := rfl
@[simp] theorem State.bumpSat_pending (f : Fld) (i k : Nat) : (s.bumpSat f i k).pending = s.pending := rfl

/-! ### put64 -/

@[simp] theorem State.put64_ram (lo hi : Reg) (v : BitVec 64) (i k : Nat) : (s.put64 lo hi v i k).ram = s.ram := rfl
@[simp] theorem State.put64_fuses (lo hi : Reg) (v : BitVec 64) (i k : Nat) : (s.put64 lo hi v i k).fuses = s.fuses := rfl
@[simp] theorem State.put64_dom (lo hi : Reg) (v : BitVec 64) (i k : Nat) : (s.put64 lo hi v i k).dom = s.dom := rfl
@[simp] theorem State.put64_rcp (lo hi : Reg) (v : BitVec 64) (i k : Nat) : (s.put64 lo hi v i k).rcp = s.rcp := rfl
@[simp] theorem State.put64_pwr (lo hi : Reg) (v : BitVec 64) (i k : Nat) : (s.put64 lo hi v i k).pwr = s.pwr := rfl
@[simp] theorem State.put64_tim (lo hi : Reg) (v : BitVec 64) (i k : Nat) : (s.put64 lo hi v i k).tim = s.tim := rfl
@[simp] theorem State.put64_axes (lo hi : Reg) (v : BitVec 64) (i k : Nat) : (s.put64 lo hi v i k).axes = s.axes := rfl
@[simp] theorem State.put64_genlock (lo hi : Reg) (v : BitVec 64) (i k : Nat) : (s.put64 lo hi v i k).genlock = s.genlock := rfl
@[simp] theorem State.put64_shadows (lo hi : Reg) (v : BitVec 64) (i k : Nat) : (s.put64 lo hi v i k).shadows = s.shadows := rfl
@[simp] theorem State.put64_cue (lo hi : Reg) (v : BitVec 64) (i k : Nat) : (s.put64 lo hi v i k).cue = s.cue := rfl
@[simp] theorem State.put64_fab (lo hi : Reg) (v : BitVec 64) (i k : Nat) : (s.put64 lo hi v i k).fab = s.fab := rfl
@[simp] theorem State.put64_gfx (lo hi : Reg) (v : BitVec 64) (i k : Nat) : (s.put64 lo hi v i k).gfx = s.gfx := rfl
@[simp] theorem State.put64_cmp (lo hi : Reg) (v : BitVec 64) (i k : Nat) : (s.put64 lo hi v i k).cmp = s.cmp := rfl
@[simp] theorem State.put64_outs (lo hi : Reg) (v : BitVec 64) (i k : Nat) : (s.put64 lo hi v i k).outs = s.outs := rfl
@[simp] theorem State.put64_isl (lo hi : Reg) (v : BitVec 64) (i k : Nat) : (s.put64 lo hi v i k).isl = s.isl := rfl
@[simp] theorem State.put64_mem (lo hi : Reg) (v : BitVec 64) (i k : Nat) : (s.put64 lo hi v i k).mem = s.mem := rfl
@[simp] theorem State.put64_cpx (lo hi : Reg) (v : BitVec 64) (i k : Nat) : (s.put64 lo hi v i k).cpx = s.cpx := rfl
@[simp] theorem State.put64_vir (lo hi : Reg) (v : BitVec 64) (i k : Nat) : (s.put64 lo hi v i k).vir = s.vir := rfl
@[simp] theorem State.put64_dma (lo hi : Reg) (v : BitVec 64) (i k : Nat) : (s.put64 lo hi v i k).dma = s.dma := rfl
@[simp] theorem State.put64_crc (lo hi : Reg) (v : BitVec 64) (i k : Nat) : (s.put64 lo hi v i k).crc = s.crc := rfl
@[simp] theorem State.put64_tch (lo hi : Reg) (v : BitVec 64) (i k : Nat) : (s.put64 lo hi v i k).tch = s.tch := rfl
@[simp] theorem State.put64_latches (lo hi : Reg) (v : BitVec 64) (i k : Nat) : (s.put64 lo hi v i k).latches = s.latches := rfl
@[simp] theorem State.put64_hap (lo hi : Reg) (v : BitVec 64) (i k : Nat) : (s.put64 lo hi v i k).hap = s.hap := rfl
@[simp] theorem State.put64_sio (lo hi : Reg) (v : BitVec 64) (i k : Nat) : (s.put64 lo hi v i k).sio = s.sio := rfl
@[simp] theorem State.put64_aud (lo hi : Reg) (v : BitVec 64) (i k : Nat) : (s.put64 lo hi v i k).aud = s.aud := rfl
@[simp] theorem State.put64_evt (lo hi : Reg) (v : BitVec 64) (i k : Nat) : (s.put64 lo hi v i k).evt = s.evt := rfl
@[simp] theorem State.put64_sent (lo hi : Reg) (v : BitVec 64) (i k : Nat) : (s.put64 lo hi v i k).sent = s.sent := rfl
@[simp] theorem State.put64_raised (lo hi : Reg) (v : BitVec 64) (i k : Nat) : (s.put64 lo hi v i k).raised = s.raised := rfl
@[simp] theorem State.put64_draws (lo hi : Reg) (v : BitVec 64) (i k : Nat) : (s.put64 lo hi v i k).draws = s.draws := rfl
@[simp] theorem State.put64_pending (lo hi : Reg) (v : BitVec 64) (i k : Nat) : (s.put64 lo hi v i k).pending = s.pending := rfl

/-! ### setBit -/

@[simp] theorem State.setBit_ram (r : Reg) (b i k : Nat) : (s.setBit r b i k).ram = s.ram := rfl
@[simp] theorem State.setBit_fuses (r : Reg) (b i k : Nat) : (s.setBit r b i k).fuses = s.fuses := rfl
@[simp] theorem State.setBit_dom (r : Reg) (b i k : Nat) : (s.setBit r b i k).dom = s.dom := rfl
@[simp] theorem State.setBit_rcp (r : Reg) (b i k : Nat) : (s.setBit r b i k).rcp = s.rcp := rfl
@[simp] theorem State.setBit_pwr (r : Reg) (b i k : Nat) : (s.setBit r b i k).pwr = s.pwr := rfl
@[simp] theorem State.setBit_tim (r : Reg) (b i k : Nat) : (s.setBit r b i k).tim = s.tim := rfl
@[simp] theorem State.setBit_axes (r : Reg) (b i k : Nat) : (s.setBit r b i k).axes = s.axes := rfl
@[simp] theorem State.setBit_genlock (r : Reg) (b i k : Nat) : (s.setBit r b i k).genlock = s.genlock := rfl
@[simp] theorem State.setBit_shadows (r : Reg) (b i k : Nat) : (s.setBit r b i k).shadows = s.shadows := rfl
@[simp] theorem State.setBit_cue (r : Reg) (b i k : Nat) : (s.setBit r b i k).cue = s.cue := rfl
@[simp] theorem State.setBit_fab (r : Reg) (b i k : Nat) : (s.setBit r b i k).fab = s.fab := rfl
@[simp] theorem State.setBit_gfx (r : Reg) (b i k : Nat) : (s.setBit r b i k).gfx = s.gfx := rfl
@[simp] theorem State.setBit_cmp (r : Reg) (b i k : Nat) : (s.setBit r b i k).cmp = s.cmp := rfl
@[simp] theorem State.setBit_outs (r : Reg) (b i k : Nat) : (s.setBit r b i k).outs = s.outs := rfl
@[simp] theorem State.setBit_isl (r : Reg) (b i k : Nat) : (s.setBit r b i k).isl = s.isl := rfl
@[simp] theorem State.setBit_mem (r : Reg) (b i k : Nat) : (s.setBit r b i k).mem = s.mem := rfl
@[simp] theorem State.setBit_cpx (r : Reg) (b i k : Nat) : (s.setBit r b i k).cpx = s.cpx := rfl
@[simp] theorem State.setBit_vir (r : Reg) (b i k : Nat) : (s.setBit r b i k).vir = s.vir := rfl
@[simp] theorem State.setBit_dma (r : Reg) (b i k : Nat) : (s.setBit r b i k).dma = s.dma := rfl
@[simp] theorem State.setBit_crc (r : Reg) (b i k : Nat) : (s.setBit r b i k).crc = s.crc := rfl
@[simp] theorem State.setBit_tch (r : Reg) (b i k : Nat) : (s.setBit r b i k).tch = s.tch := rfl
@[simp] theorem State.setBit_latches (r : Reg) (b i k : Nat) : (s.setBit r b i k).latches = s.latches := rfl
@[simp] theorem State.setBit_hap (r : Reg) (b i k : Nat) : (s.setBit r b i k).hap = s.hap := rfl
@[simp] theorem State.setBit_sio (r : Reg) (b i k : Nat) : (s.setBit r b i k).sio = s.sio := rfl
@[simp] theorem State.setBit_aud (r : Reg) (b i k : Nat) : (s.setBit r b i k).aud = s.aud := rfl
@[simp] theorem State.setBit_evt (r : Reg) (b i k : Nat) : (s.setBit r b i k).evt = s.evt := rfl
@[simp] theorem State.setBit_sent (r : Reg) (b i k : Nat) : (s.setBit r b i k).sent = s.sent := rfl
@[simp] theorem State.setBit_raised (r : Reg) (b i k : Nat) : (s.setBit r b i k).raised = s.raised := rfl
@[simp] theorem State.setBit_draws (r : Reg) (b i k : Nat) : (s.setBit r b i k).draws = s.draws := rfl
@[simp] theorem State.setBit_pending (r : Reg) (b i k : Nat) : (s.setBit r b i k).pending = s.pending := rfl

/-! ### clearBit -/

@[simp] theorem State.clearBit_ram (r : Reg) (b i k : Nat) : (s.clearBit r b i k).ram = s.ram := rfl
@[simp] theorem State.clearBit_fuses (r : Reg) (b i k : Nat) : (s.clearBit r b i k).fuses = s.fuses := rfl
@[simp] theorem State.clearBit_dom (r : Reg) (b i k : Nat) : (s.clearBit r b i k).dom = s.dom := rfl
@[simp] theorem State.clearBit_rcp (r : Reg) (b i k : Nat) : (s.clearBit r b i k).rcp = s.rcp := rfl
@[simp] theorem State.clearBit_pwr (r : Reg) (b i k : Nat) : (s.clearBit r b i k).pwr = s.pwr := rfl
@[simp] theorem State.clearBit_tim (r : Reg) (b i k : Nat) : (s.clearBit r b i k).tim = s.tim := rfl
@[simp] theorem State.clearBit_axes (r : Reg) (b i k : Nat) : (s.clearBit r b i k).axes = s.axes := rfl
@[simp] theorem State.clearBit_genlock (r : Reg) (b i k : Nat) : (s.clearBit r b i k).genlock = s.genlock := rfl
@[simp] theorem State.clearBit_shadows (r : Reg) (b i k : Nat) : (s.clearBit r b i k).shadows = s.shadows := rfl
@[simp] theorem State.clearBit_cue (r : Reg) (b i k : Nat) : (s.clearBit r b i k).cue = s.cue := rfl
@[simp] theorem State.clearBit_fab (r : Reg) (b i k : Nat) : (s.clearBit r b i k).fab = s.fab := rfl
@[simp] theorem State.clearBit_gfx (r : Reg) (b i k : Nat) : (s.clearBit r b i k).gfx = s.gfx := rfl
@[simp] theorem State.clearBit_cmp (r : Reg) (b i k : Nat) : (s.clearBit r b i k).cmp = s.cmp := rfl
@[simp] theorem State.clearBit_outs (r : Reg) (b i k : Nat) : (s.clearBit r b i k).outs = s.outs := rfl
@[simp] theorem State.clearBit_isl (r : Reg) (b i k : Nat) : (s.clearBit r b i k).isl = s.isl := rfl
@[simp] theorem State.clearBit_mem (r : Reg) (b i k : Nat) : (s.clearBit r b i k).mem = s.mem := rfl
@[simp] theorem State.clearBit_cpx (r : Reg) (b i k : Nat) : (s.clearBit r b i k).cpx = s.cpx := rfl
@[simp] theorem State.clearBit_vir (r : Reg) (b i k : Nat) : (s.clearBit r b i k).vir = s.vir := rfl
@[simp] theorem State.clearBit_dma (r : Reg) (b i k : Nat) : (s.clearBit r b i k).dma = s.dma := rfl
@[simp] theorem State.clearBit_crc (r : Reg) (b i k : Nat) : (s.clearBit r b i k).crc = s.crc := rfl
@[simp] theorem State.clearBit_tch (r : Reg) (b i k : Nat) : (s.clearBit r b i k).tch = s.tch := rfl
@[simp] theorem State.clearBit_latches (r : Reg) (b i k : Nat) : (s.clearBit r b i k).latches = s.latches := rfl
@[simp] theorem State.clearBit_hap (r : Reg) (b i k : Nat) : (s.clearBit r b i k).hap = s.hap := rfl
@[simp] theorem State.clearBit_sio (r : Reg) (b i k : Nat) : (s.clearBit r b i k).sio = s.sio := rfl
@[simp] theorem State.clearBit_aud (r : Reg) (b i k : Nat) : (s.clearBit r b i k).aud = s.aud := rfl
@[simp] theorem State.clearBit_evt (r : Reg) (b i k : Nat) : (s.clearBit r b i k).evt = s.evt := rfl
@[simp] theorem State.clearBit_sent (r : Reg) (b i k : Nat) : (s.clearBit r b i k).sent = s.sent := rfl
@[simp] theorem State.clearBit_raised (r : Reg) (b i k : Nat) : (s.clearBit r b i k).raised = s.raised := rfl
@[simp] theorem State.clearBit_draws (r : Reg) (b i k : Nat) : (s.clearBit r b i k).draws = s.draws := rfl
@[simp] theorem State.clearBit_pending (r : Reg) (b i k : Nat) : (s.clearBit r b i k).pending = s.pending := rfl

/-! ### raise -/

@[simp] theorem State.raise_regs (n : Nat) : (s.raise n).regs = s.regs := rfl
@[simp] theorem State.raise_ram (n : Nat) : (s.raise n).ram = s.ram := rfl
@[simp] theorem State.raise_fuses (n : Nat) : (s.raise n).fuses = s.fuses := rfl
@[simp] theorem State.raise_dom (n : Nat) : (s.raise n).dom = s.dom := rfl
@[simp] theorem State.raise_rcp (n : Nat) : (s.raise n).rcp = s.rcp := rfl
@[simp] theorem State.raise_pwr (n : Nat) : (s.raise n).pwr = s.pwr := rfl
@[simp] theorem State.raise_tim (n : Nat) : (s.raise n).tim = s.tim := rfl
@[simp] theorem State.raise_axes (n : Nat) : (s.raise n).axes = s.axes := rfl
@[simp] theorem State.raise_genlock (n : Nat) : (s.raise n).genlock = s.genlock := rfl
@[simp] theorem State.raise_shadows (n : Nat) : (s.raise n).shadows = s.shadows := rfl
@[simp] theorem State.raise_cue (n : Nat) : (s.raise n).cue = s.cue := rfl
@[simp] theorem State.raise_fab (n : Nat) : (s.raise n).fab = s.fab := rfl
@[simp] theorem State.raise_gfx (n : Nat) : (s.raise n).gfx = s.gfx := rfl
@[simp] theorem State.raise_cmp (n : Nat) : (s.raise n).cmp = s.cmp := rfl
@[simp] theorem State.raise_outs (n : Nat) : (s.raise n).outs = s.outs := rfl
@[simp] theorem State.raise_isl (n : Nat) : (s.raise n).isl = s.isl := rfl
@[simp] theorem State.raise_mem (n : Nat) : (s.raise n).mem = s.mem := rfl
@[simp] theorem State.raise_cpx (n : Nat) : (s.raise n).cpx = s.cpx := rfl
@[simp] theorem State.raise_vir (n : Nat) : (s.raise n).vir = s.vir := rfl
@[simp] theorem State.raise_dma (n : Nat) : (s.raise n).dma = s.dma := rfl
@[simp] theorem State.raise_crc (n : Nat) : (s.raise n).crc = s.crc := rfl
@[simp] theorem State.raise_tch (n : Nat) : (s.raise n).tch = s.tch := rfl
@[simp] theorem State.raise_latches (n : Nat) : (s.raise n).latches = s.latches := rfl
@[simp] theorem State.raise_hap (n : Nat) : (s.raise n).hap = s.hap := rfl
@[simp] theorem State.raise_sio (n : Nat) : (s.raise n).sio = s.sio := rfl
@[simp] theorem State.raise_aud (n : Nat) : (s.raise n).aud = s.aud := rfl
@[simp] theorem State.raise_evt (n : Nat) : (s.raise n).evt = s.evt := rfl
@[simp] theorem State.raise_sent (n : Nat) : (s.raise n).sent = s.sent := rfl
@[simp] theorem State.raise_raised (n : Nat) : (s.raise n).raised = s.raised ++ [n] := rfl
@[simp] theorem State.raise_draws (n : Nat) : (s.raise n).draws = s.draws := rfl
@[simp] theorem State.raise_pending (n : Nat) : (s.raise n).pending = s.pending := rfl

/-! ### emit -/

@[simp] theorem State.emit_regs (e : Emission) : (s.emit e).regs = s.regs := rfl
@[simp] theorem State.emit_ram (e : Emission) : (s.emit e).ram = s.ram := rfl
@[simp] theorem State.emit_fuses (e : Emission) : (s.emit e).fuses = s.fuses := rfl
@[simp] theorem State.emit_dom (e : Emission) : (s.emit e).dom = s.dom := rfl
@[simp] theorem State.emit_rcp (e : Emission) : (s.emit e).rcp = s.rcp := rfl
@[simp] theorem State.emit_pwr (e : Emission) : (s.emit e).pwr = s.pwr := rfl
@[simp] theorem State.emit_tim (e : Emission) : (s.emit e).tim = s.tim := rfl
@[simp] theorem State.emit_axes (e : Emission) : (s.emit e).axes = s.axes := rfl
@[simp] theorem State.emit_genlock (e : Emission) : (s.emit e).genlock = s.genlock := rfl
@[simp] theorem State.emit_shadows (e : Emission) : (s.emit e).shadows = s.shadows := rfl
@[simp] theorem State.emit_cue (e : Emission) : (s.emit e).cue = s.cue := rfl
@[simp] theorem State.emit_fab (e : Emission) : (s.emit e).fab = s.fab := rfl
@[simp] theorem State.emit_gfx (e : Emission) : (s.emit e).gfx = s.gfx := rfl
@[simp] theorem State.emit_cmp (e : Emission) : (s.emit e).cmp = s.cmp := rfl
@[simp] theorem State.emit_outs (e : Emission) : (s.emit e).outs = s.outs := rfl
@[simp] theorem State.emit_isl (e : Emission) : (s.emit e).isl = s.isl := rfl
@[simp] theorem State.emit_mem (e : Emission) : (s.emit e).mem = s.mem := rfl
@[simp] theorem State.emit_cpx (e : Emission) : (s.emit e).cpx = s.cpx := rfl
@[simp] theorem State.emit_vir (e : Emission) : (s.emit e).vir = s.vir := rfl
@[simp] theorem State.emit_dma (e : Emission) : (s.emit e).dma = s.dma := rfl
@[simp] theorem State.emit_crc (e : Emission) : (s.emit e).crc = s.crc := rfl
@[simp] theorem State.emit_tch (e : Emission) : (s.emit e).tch = s.tch := rfl
@[simp] theorem State.emit_latches (e : Emission) : (s.emit e).latches = s.latches := rfl
@[simp] theorem State.emit_hap (e : Emission) : (s.emit e).hap = s.hap := rfl
@[simp] theorem State.emit_sio (e : Emission) : (s.emit e).sio = s.sio := rfl
@[simp] theorem State.emit_aud (e : Emission) : (s.emit e).aud = s.aud := rfl
@[simp] theorem State.emit_evt (e : Emission) : (s.emit e).evt = s.evt := rfl
@[simp] theorem State.emit_sent (e : Emission) : (s.emit e).sent = e :: s.sent := rfl
@[simp] theorem State.emit_raised (e : Emission) : (s.emit e).raised = s.raised := rfl
@[simp] theorem State.emit_draws (e : Emission) : (s.emit e).draws = s.draws := rfl
@[simp] theorem State.emit_pending (e : Emission) : (s.emit e).pending = s.pending := rfl

/-! ### drawn -/

@[simp] theorem State.drawn_regs : (s.drawn).regs = s.regs := rfl
@[simp] theorem State.drawn_ram : (s.drawn).ram = s.ram := rfl
@[simp] theorem State.drawn_fuses : (s.drawn).fuses = s.fuses := rfl
@[simp] theorem State.drawn_dom : (s.drawn).dom = s.dom := rfl
@[simp] theorem State.drawn_rcp : (s.drawn).rcp = s.rcp := rfl
@[simp] theorem State.drawn_pwr : (s.drawn).pwr = s.pwr := rfl
@[simp] theorem State.drawn_tim : (s.drawn).tim = s.tim := rfl
@[simp] theorem State.drawn_axes : (s.drawn).axes = s.axes := rfl
@[simp] theorem State.drawn_genlock : (s.drawn).genlock = s.genlock := rfl
@[simp] theorem State.drawn_shadows : (s.drawn).shadows = s.shadows := rfl
@[simp] theorem State.drawn_cue : (s.drawn).cue = s.cue := rfl
@[simp] theorem State.drawn_fab : (s.drawn).fab = s.fab := rfl
@[simp] theorem State.drawn_gfx : (s.drawn).gfx = s.gfx := rfl
@[simp] theorem State.drawn_cmp : (s.drawn).cmp = s.cmp := rfl
@[simp] theorem State.drawn_outs : (s.drawn).outs = s.outs := rfl
@[simp] theorem State.drawn_isl : (s.drawn).isl = s.isl := rfl
@[simp] theorem State.drawn_mem : (s.drawn).mem = s.mem := rfl
@[simp] theorem State.drawn_cpx : (s.drawn).cpx = s.cpx := rfl
@[simp] theorem State.drawn_vir : (s.drawn).vir = s.vir := rfl
@[simp] theorem State.drawn_dma : (s.drawn).dma = s.dma := rfl
@[simp] theorem State.drawn_crc : (s.drawn).crc = s.crc := rfl
@[simp] theorem State.drawn_tch : (s.drawn).tch = s.tch := rfl
@[simp] theorem State.drawn_latches : (s.drawn).latches = s.latches := rfl
@[simp] theorem State.drawn_hap : (s.drawn).hap = s.hap := rfl
@[simp] theorem State.drawn_sio : (s.drawn).sio = s.sio := rfl
@[simp] theorem State.drawn_aud : (s.drawn).aud = s.aud := rfl
@[simp] theorem State.drawn_evt : (s.drawn).evt = s.evt := rfl
@[simp] theorem State.drawn_sent : (s.drawn).sent = s.sent := rfl
@[simp] theorem State.drawn_raised : (s.drawn).raised = s.raised := rfl
@[simp] theorem State.drawn_draws : s.drawn.draws = s.draws + 1 := rfl
@[simp] theorem State.drawn_pending : (s.drawn).pending = s.pending := rfl

/-! ### bitTo -/

@[simp] theorem State.bitTo_ram (r : Reg) (b : Nat) (v : Bool) (i k : Nat) : (s.bitTo r b v i k).ram = s.ram := by
  cases v <;> rfl
@[simp] theorem State.bitTo_fuses (r : Reg) (b : Nat) (v : Bool) (i k : Nat) : (s.bitTo r b v i k).fuses = s.fuses := by
  cases v <;> rfl
@[simp] theorem State.bitTo_dom (r : Reg) (b : Nat) (v : Bool) (i k : Nat) : (s.bitTo r b v i k).dom = s.dom := by
  cases v <;> rfl
@[simp] theorem State.bitTo_rcp (r : Reg) (b : Nat) (v : Bool) (i k : Nat) : (s.bitTo r b v i k).rcp = s.rcp := by
  cases v <;> rfl
@[simp] theorem State.bitTo_pwr (r : Reg) (b : Nat) (v : Bool) (i k : Nat) : (s.bitTo r b v i k).pwr = s.pwr := by
  cases v <;> rfl
@[simp] theorem State.bitTo_tim (r : Reg) (b : Nat) (v : Bool) (i k : Nat) : (s.bitTo r b v i k).tim = s.tim := by
  cases v <;> rfl
@[simp] theorem State.bitTo_axes (r : Reg) (b : Nat) (v : Bool) (i k : Nat) : (s.bitTo r b v i k).axes = s.axes := by
  cases v <;> rfl
@[simp] theorem State.bitTo_genlock (r : Reg) (b : Nat) (v : Bool) (i k : Nat) : (s.bitTo r b v i k).genlock = s.genlock := by
  cases v <;> rfl
@[simp] theorem State.bitTo_shadows (r : Reg) (b : Nat) (v : Bool) (i k : Nat) : (s.bitTo r b v i k).shadows = s.shadows := by
  cases v <;> rfl
@[simp] theorem State.bitTo_cue (r : Reg) (b : Nat) (v : Bool) (i k : Nat) : (s.bitTo r b v i k).cue = s.cue := by
  cases v <;> rfl
@[simp] theorem State.bitTo_fab (r : Reg) (b : Nat) (v : Bool) (i k : Nat) : (s.bitTo r b v i k).fab = s.fab := by
  cases v <;> rfl
@[simp] theorem State.bitTo_gfx (r : Reg) (b : Nat) (v : Bool) (i k : Nat) : (s.bitTo r b v i k).gfx = s.gfx := by
  cases v <;> rfl
@[simp] theorem State.bitTo_cmp (r : Reg) (b : Nat) (v : Bool) (i k : Nat) : (s.bitTo r b v i k).cmp = s.cmp := by
  cases v <;> rfl
@[simp] theorem State.bitTo_outs (r : Reg) (b : Nat) (v : Bool) (i k : Nat) : (s.bitTo r b v i k).outs = s.outs := by
  cases v <;> rfl
@[simp] theorem State.bitTo_isl (r : Reg) (b : Nat) (v : Bool) (i k : Nat) : (s.bitTo r b v i k).isl = s.isl := by
  cases v <;> rfl
@[simp] theorem State.bitTo_mem (r : Reg) (b : Nat) (v : Bool) (i k : Nat) : (s.bitTo r b v i k).mem = s.mem := by
  cases v <;> rfl
@[simp] theorem State.bitTo_cpx (r : Reg) (b : Nat) (v : Bool) (i k : Nat) : (s.bitTo r b v i k).cpx = s.cpx := by
  cases v <;> rfl
@[simp] theorem State.bitTo_vir (r : Reg) (b : Nat) (v : Bool) (i k : Nat) : (s.bitTo r b v i k).vir = s.vir := by
  cases v <;> rfl
@[simp] theorem State.bitTo_dma (r : Reg) (b : Nat) (v : Bool) (i k : Nat) : (s.bitTo r b v i k).dma = s.dma := by
  cases v <;> rfl
@[simp] theorem State.bitTo_crc (r : Reg) (b : Nat) (v : Bool) (i k : Nat) : (s.bitTo r b v i k).crc = s.crc := by
  cases v <;> rfl
@[simp] theorem State.bitTo_tch (r : Reg) (b : Nat) (v : Bool) (i k : Nat) : (s.bitTo r b v i k).tch = s.tch := by
  cases v <;> rfl
@[simp] theorem State.bitTo_latches (r : Reg) (b : Nat) (v : Bool) (i k : Nat) : (s.bitTo r b v i k).latches = s.latches := by
  cases v <;> rfl
@[simp] theorem State.bitTo_hap (r : Reg) (b : Nat) (v : Bool) (i k : Nat) : (s.bitTo r b v i k).hap = s.hap := by
  cases v <;> rfl
@[simp] theorem State.bitTo_sio (r : Reg) (b : Nat) (v : Bool) (i k : Nat) : (s.bitTo r b v i k).sio = s.sio := by
  cases v <;> rfl
@[simp] theorem State.bitTo_aud (r : Reg) (b : Nat) (v : Bool) (i k : Nat) : (s.bitTo r b v i k).aud = s.aud := by
  cases v <;> rfl
@[simp] theorem State.bitTo_evt (r : Reg) (b : Nat) (v : Bool) (i k : Nat) : (s.bitTo r b v i k).evt = s.evt := by
  cases v <;> rfl
@[simp] theorem State.bitTo_sent (r : Reg) (b : Nat) (v : Bool) (i k : Nat) : (s.bitTo r b v i k).sent = s.sent := by
  cases v <;> rfl
@[simp] theorem State.bitTo_raised (r : Reg) (b : Nat) (v : Bool) (i k : Nat) : (s.bitTo r b v i k).raised = s.raised := by
  cases v <;> rfl
@[simp] theorem State.bitTo_draws (r : Reg) (b : Nat) (v : Bool) (i k : Nat) : (s.bitTo r b v i k).draws = s.draws := by
  cases v <;> rfl
@[simp] theorem State.bitTo_pending (r : Reg) (b : Nat) (v : Bool) (i k : Nat) : (s.bitTo r b v i k).pending = s.pending := by
  cases v <;> rfl

end Sys2Proof.Machine
end

