-- ==== Sys2Proof/Laws/Tables.lean ====
section
/-! SUPPORT. The laws of sorted tables: a read after a write, and that a write keeps the canonical form. -/

namespace Sys2Proof.Machine

variable {κ α : Type} [DecidableEq κ] [DecidableEq α]

omit [DecidableEq α] in
theorem lookup_dropKey_same (m : List (κ × α)) (k : κ) : lookup (dropKey m k) k = none := by
  induction m with
  | nil => rfl
  | cons e t ih =>
    obtain ⟨a, v⟩ := e
    by_cases h : a = k <;> simp [dropKey, lookup, h, ih]

omit [DecidableEq α] in
theorem lookup_dropKey_other (m : List (κ × α)) {k k' : κ} (hk : k ≠ k') : lookup (dropKey m k) k' = lookup m k' := by
  induction m with
  | nil => rfl
  | cons e t ih =>
    obtain ⟨a, v⟩ := e
    by_cases h : a = k
    · subst h
      simp [dropKey, lookup, ih, hk]
    · simp [dropKey, lookup, h, ih]

omit [DecidableEq α] in
theorem lookup_place_same (rank : κ → Nat) (m : List (κ × α)) (k : κ) (v : α) (hm : lookup m k = none) :
    lookup (place rank m k v) k = some v := by
  induction m with
  | nil => simp [place, lookup]
  | cons e t ih =>
    obtain ⟨a, w⟩ := e
    by_cases hak : a = k
    · simp [lookup, hak] at hm
    · simp only [lookup, hak, if_false] at hm
      by_cases h : rank k < rank a <;> simp [place, lookup, h, hak, ih hm]

omit [DecidableEq α] in
theorem lookup_place_other (rank : κ → Nat) (m : List (κ × α)) {k k' : κ} (v : α) (hk : k ≠ k') :
    lookup (place rank m k v) k' = lookup m k' := by
  induction m with
  | nil => simp [place, lookup, hk]
  | cons e t ih =>
    obtain ⟨a, w⟩ := e
    by_cases h : rank k < rank a <;> simp [place, lookup, h, hk, ih]

/-- A read after a write to the same key. -/
theorem lookup_putKey_same (rank : κ → Nat) (u : α) (m : List (κ × α)) (k : κ) (v : α) :
    (lookup (putKey rank u m k v) k).getD u = v := by
  by_cases h : v = u
  · simp [putKey, h, lookup_dropKey_same]
  · simp [putKey, h, lookup_place_same _ _ _ _ (lookup_dropKey_same m k)]

/-- A write leaves every other key alone. -/
theorem lookup_putKey_other (rank : κ → Nat) (u : α) (m : List (κ × α)) {k k' : κ} (v : α) (hk : k ≠ k') :
    lookup (putKey rank u m k v) k' = lookup m k' := by
  by_cases h : v = u
  · simp [putKey, h, lookup_dropKey_other _ hk]
  · simp [putKey, h, lookup_place_other _ _ _ hk, lookup_dropKey_other _ hk]

/-! ### Tables of numbers -/

@[simp] theorem Tbl.get_set_same (u : α) (m : Tbl α) (i : Nat) (v : α) : Tbl.get u (Tbl.set u m i v) i = v :=
  lookup_putKey_same id u m i v

theorem Tbl.get_set_other (u : α) (m : Tbl α) {i j : Nat} (v : α) (h : i ≠ j) :
    Tbl.get u (Tbl.set u m i v) j = Tbl.get u m j := by
  simp [Tbl.get, Tbl.set, lookup_putKey_other id u m v h]

omit [DecidableEq α] in
@[simp] theorem Tbl.get_nil (u : α) (i : Nat) : Tbl.get u ([] : Tbl α) i = u := rfl

/-! ### The canonical form -/

/-- A rank that every key of the table exceeds. -/
def Above (rank : κ → Nat) (n : Nat) (m : List (κ × α)) : Prop := ∀ e ∈ m, n < rank e.1

omit [DecidableEq κ] in
theorem canonical_cons (rank : κ → Nat) (u : κ → α) (k : κ) (v : α) (t : List (κ × α)) :
    canonical rank u ((k, v) :: t) = true ↔ v ≠ u k ∧ Above rank (rank k) t ∧ canonical rank u t = true := by
  induction t generalizing k v with
  | nil => simp [canonical, Above]
  | cons e t ih =>
    obtain ⟨k', v'⟩ := e
    have hi := ih k' v'
    constructor
    · intro h
      simp only [canonical, Bool.and_eq_true, decide_eq_true_eq] at h
      obtain ⟨⟨hv, hk⟩, ht⟩ := h
      refine ⟨hv, ?_, ht⟩
      have ha := (hi.mp ht).2.1
      intro e he
      rcases List.mem_cons.mp he with rfl | he
      · exact hk
      · exact Nat.lt_trans hk (ha e he)
    · rintro ⟨hv, ha, ht⟩
      simp only [canonical, Bool.and_eq_true, decide_eq_true_eq]
      exact ⟨⟨hv, ha (k', v') (by simp)⟩, ht⟩

omit [DecidableEq α] in
theorem dropKey_mem {m : List (κ × α)} {k : κ} {e : κ × α} (h : e ∈ dropKey m k) : e ∈ m ∧ e.1 ≠ k := by
  induction m with
  | nil => simp [dropKey] at h
  | cons a t ih =>
    obtain ⟨a, v⟩ := a
    by_cases hk : a = k
    · simp only [dropKey, hk, if_true] at h
      exact ⟨List.mem_cons_of_mem _ (ih h).1, (ih h).2⟩
    · simp only [dropKey, hk, if_false] at h
      rcases List.mem_cons.mp h with rfl | h
      · exact ⟨by simp, hk⟩
      · exact ⟨List.mem_cons_of_mem _ (ih h).1, (ih h).2⟩

theorem canonical_dropKey (rank : κ → Nat) (u : κ → α) (m : List (κ × α)) (k : κ) (h : canonical rank u m = true) :
    canonical rank u (dropKey m k) = true := by
  induction m with
  | nil => rfl
  | cons e t ih =>
    obtain ⟨a, v⟩ := e
    obtain ⟨hv, ha, ht⟩ := (canonical_cons rank u a v t).mp h
    by_cases hk : a = k
    · simpa [dropKey, hk] using ih ht
    · simp only [dropKey, hk, if_false]
      exact (canonical_cons rank u a v _).mpr ⟨hv, fun e he => ha e (dropKey_mem he).1, ih ht⟩

omit [DecidableEq κ] [DecidableEq α] in
theorem place_mem {rank : κ → Nat} {m : List (κ × α)} {k : κ} {v : α} {e : κ × α} (h : e ∈ place rank m k v) :
    e = (k, v) ∨ e ∈ m := by
  induction m with
  | nil => simpa [place] using h
  | cons a t ih =>
    obtain ⟨a, w⟩ := a
    by_cases hr : rank k < rank a
    · simpa [place, hr] using h
    · simp only [place, hr, if_false] at h
      rcases List.mem_cons.mp h with rfl | h
      · exact Or.inr (by simp)
      · rcases ih h with h | h
        · exact Or.inl h
        · exact Or.inr (List.mem_cons_of_mem _ h)

omit [DecidableEq κ] in
theorem canonical_place (rank : κ → Nat) (u : κ → α) (m : List (κ × α)) (k : κ) (v : α)
    (h : canonical rank u m = true) (hv : v ≠ u k) (hk : ∀ e ∈ m, rank e.1 ≠ rank k) :
    canonical rank u (place rank m k v) = true := by
  induction m with
  | nil => simp [place, canonical, hv]
  | cons e t ih =>
    obtain ⟨a, w⟩ := e
    obtain ⟨hw, ha, ht⟩ := (canonical_cons rank u a w t).mp h
    by_cases hr : rank k < rank a
    · simp only [place, hr, if_true]
      refine (canonical_cons rank u k v _).mpr ⟨hv, ?_, h⟩
      intro e he
      rcases List.mem_cons.mp he with rfl | he
      · exact hr
      · exact Nat.lt_trans hr (ha e he)
    · simp only [place, hr, if_false]
      refine (canonical_cons rank u a w _).mpr ⟨hw, ?_, ih ht (fun e he => hk e (List.mem_cons_of_mem _ he))⟩
      intro e he
      rcases place_mem he with rfl | he
      · exact lt_of_le_of_ne (Nat.le_of_not_lt hr) (hk (a, w) (by simp))
      · exact ha e he

/-- A write keeps the canonical form, when no other listed key shares the rank of the key written. -/
theorem canonical_putKey (rank : κ → Nat) (u : κ → α) (m : List (κ × α)) (k : κ) (v : α) (h : canonical rank u m = true)
    (hk : ∀ e ∈ m, rank e.1 = rank k → e.1 = k) : canonical rank u (putKey rank (u k) m k v) = true := by
  by_cases hv : v = u k
  · simpa [putKey, hv] using canonical_dropKey rank u m k h
  · simp only [putKey, hv, if_false]
    exact canonical_place rank u _ k v (canonical_dropKey rank u m k h) hv
      (fun e he hr => (dropKey_mem he).2 (hk e (dropKey_mem he).1 hr))

end Sys2Proof.Machine
end

