-- ==== Sys2Proof/Laws/Registers.lean ====
section
/-! SUPPORT. The laws of registers and fields: a read after a write, of the same place and of another. -/

namespace Sys2Proof.Machine

variable (s : State)

@[simp] theorem State.get_put_same (r : Reg) (v : W32) (i k : Nat) : (s.put r v i k).get r i k = v :=
  lookup_putKey_same RegKey.rank r.initial s.regs ⟨r, i, k⟩ v

theorem State.get_put_other {r r' : Reg} (v : W32) {i k i' k' : Nat} (h : ¬(r = r' ∧ i = i' ∧ k = k')) :
    (s.put r v i k).get r' i' k' = s.get r' i' k' := by
  have hk : (⟨r, i, k⟩ : RegKey) ≠ ⟨r', i', k'⟩ := fun e => h (by simpa using e)
  simp only [State.get, State.put, lookup_putKey_other RegKey.rank r.initial s.regs v hk]

/-- A write to a register leaves every other register alone. -/
@[simp] theorem State.get_put_reg {r r' : Reg} (v : W32) (i k i' k' : Nat) (h : r ≠ r') :
    (s.put r v i k).get r' i' k' = s.get r' i' k' := State.get_put_other s v (fun e => h e.1)

/-- A write to a copy of a register leaves every other copy alone. -/
theorem State.get_put_copy (r : Reg) (v : W32) {i k i' k' : Nat} (h : i ≠ i' ∨ k ≠ k') :
    (s.put r v i k).get r i' k' = s.get r i' k' := State.get_put_other s v (fun e => by omega)

@[simp] theorem State.get_fset_reg (f : Fld) (v : Nat) {r : Reg} (i k i' k' : Nat) (h : f.reg ≠ r) :
    (s.fset f v i k).get r i' k' = s.get r i' k' := State.get_put_reg s _ i k i' k' h

theorem State.get_fset_copy (f : Fld) (v : Nat) {r : Reg} {i k i' k' : Nat} (h : ¬(f.reg = r ∧ i = i' ∧ k = k')) :
    (s.fset f v i k).get r i' k' = s.get r i' k' := State.get_put_other s _ h

@[simp] theorem State.get_raise (n : Nat) (r : Reg) (i k : Nat) : (s.raise n).get r i k = s.get r i k := rfl
@[simp] theorem State.get_emit (e : Emission) (r : Reg) (i k : Nat) : (s.emit e).get r i k = s.get r i k := rfl
@[simp] theorem State.get_drawn (r : Reg) (i k : Nat) : s.drawn.get r i k = s.get r i k := rfl
@[simp] theorem State.fget_raise (n : Nat) (f : Fld) (i k : Nat) : (s.raise n).fget f i k = s.fget f i k := rfl
@[simp] theorem State.fget_emit (e : Emission) (f : Fld) (i k : Nat) : (s.emit e).fget f i k = s.fget f i k := rfl
@[simp] theorem State.fget_drawn (f : Fld) (i k : Nat) : s.drawn.fget f i k = s.fget f i k := rfl
@[simp] theorem State.flag_raise (n : Nat) (f : Fld) (i k : Nat) : (s.raise n).flag f i k = s.flag f i k := rfl
@[simp] theorem State.flag_emit (e : Emission) (f : Fld) (i k : Nat) : (s.emit e).flag f i k = s.flag f i k := rfl
@[simp] theorem State.flag_drawn (f : Fld) (i k : Nat) : s.drawn.flag f i k = s.flag f i k := rfl

/-- A field of a register that was not written. -/
@[simp] theorem State.fget_put_reg {r : Reg} (v : W32) (f : Fld) (i k i' k' : Nat) (h : r ≠ f.reg) :
    (s.put r v i k).fget f i' k' = s.fget f i' k' := by
  simp [State.fget, h]

@[simp] theorem State.fget_fset_reg (f g : Fld) (v i k i' k' : Nat) (h : f.reg ≠ g.reg) :
    (s.fset f v i k).fget g i' k' = s.fget g i' k' := by
  simp [State.fget, h]

@[simp] theorem State.flag_put_reg {r : Reg} (v : W32) (f : Fld) (i k i' k' : Nat) (h : r ≠ f.reg) :
    (s.put r v i k).flag f i' k' = s.flag f i' k' := by
  simp [State.flag, h]

@[simp] theorem State.flag_fset_reg (f g : Fld) (v i k i' k' : Nat) (h : f.reg ≠ g.reg) :
    (s.fset f v i k).flag g i' k' = s.flag g i' k' := by
  simp [State.flag, h]

/-! ### A field within a word -/

/-- The value of a word with a field replaced. -/
theorem Fld.into_toNat (f : Fld) (v : Nat) (w : W32) (hf : f.lo + f.width ≤ 32) :
    (f.into v w).toNat = w.toNat - f.of w * 2 ^ f.lo + v % 2 ^ f.width * 2 ^ f.lo := by
  unfold Fld.into
  rw [BitVec.toNat_ofNat]
  apply Nat.mod_eq_of_lt
  have hw := w.isLt
  have h1 : f.of w < 2 ^ f.width := Nat.mod_lt _ (by positivity)
  have h2 : v % 2 ^ f.width < 2 ^ f.width := Nat.mod_lt _ (by positivity)
  have hp : (2:Nat) ^ f.lo * 2 ^ f.width = 2 ^ (f.lo + f.width) := (Nat.pow_add 2 f.lo f.width).symm
  have hq : (2:Nat) ^ (f.lo + f.width) ∣ 2 ^ 32 := Nat.pow_dvd_pow 2 hf
  -- split w around the field
  have e1 := Nat.div_add_mod w.toNat (2 ^ f.lo)
  have e2 := Nat.div_add_mod (w.toNat / 2 ^ f.lo) (2 ^ f.width)
  have hr : w.toNat % 2 ^ f.lo < 2 ^ f.lo := Nat.mod_lt _ (by positivity)
  have hof : f.of w = w.toNat / 2 ^ f.lo % 2 ^ f.width := rfl
  rw [← hof] at e2
  set q := w.toNat / 2 ^ f.lo / 2 ^ f.width
  set r := w.toNat % 2 ^ f.lo
  have ew : w.toNat = 2 ^ (f.lo + f.width) * q + 2 ^ f.lo * f.of w + r := by
    have h3 := congrArg (fun x => 2 ^ f.lo * x) e2
    simp only [Nat.mul_add] at h3
    rw [← hp, Nat.mul_assoc]
    linarith
  obtain ⟨d, hd⟩ := hq
  have hpos : 0 < (2:Nat) ^ (f.lo + f.width) := by positivity
  have hqd : q < d := by
    by_contra hcon
    have : 2 ^ (f.lo + f.width) * d ≤ 2 ^ (f.lo + f.width) * q := Nat.mul_le_mul_left _ (by omega)
    omega
  have hmul : 2 ^ (f.lo + f.width) * (q + 1) ≤ 2 ^ (f.lo + f.width) * d := Nat.mul_le_mul_left _ hqd
  have hv : v % 2 ^ f.width * 2 ^ f.lo + 2 ^ f.lo ≤ 2 ^ (f.lo + f.width) := by
    rw [← hp, Nat.mul_comm (2 ^ f.lo)]
    calc v % 2 ^ f.width * 2 ^ f.lo + 2 ^ f.lo = (v % 2 ^ f.width + 1) * 2 ^ f.lo := by ring
      _ ≤ 2 ^ f.width * 2 ^ f.lo := Nat.mul_le_mul_right _ h2
  have hc : f.of w * 2 ^ f.lo = 2 ^ f.lo * f.of w := Nat.mul_comm _ _
  rw [Nat.mul_add, Nat.mul_one] at hmul
  omega

/-- A field reads as what was written into it, cut to its width. -/
theorem Fld.of_into (f : Fld) (v : Nat) (w : W32) (hf : f.lo + f.width ≤ 32) : f.of (f.into v w) = v % 2 ^ f.width := by
  have e := f.into_toNat v w hf
  have e1 := Nat.div_add_mod w.toNat (2 ^ f.lo)
  have e2 := Nat.div_add_mod (w.toNat / 2 ^ f.lo) (2 ^ f.width)
  have hr : w.toNat % 2 ^ f.lo < 2 ^ f.lo := Nat.mod_lt _ (by positivity)
  have hof : f.of w = w.toNat / 2 ^ f.lo % 2 ^ f.width := rfl
  rw [← hof] at e2
  unfold Fld.of
  rw [e]
  have hx : w.toNat - f.of w * 2 ^ f.lo + v % 2 ^ f.width * 2 ^ f.lo
      = w.toNat % 2 ^ f.lo + 2 ^ f.lo * (2 ^ f.width * (w.toNat / 2 ^ f.lo / 2 ^ f.width) + v % 2 ^ f.width) := by
    have : w.toNat = 2 ^ f.lo * (2 ^ f.width * (w.toNat / 2 ^ f.lo / 2 ^ f.width)) + f.of w * 2 ^ f.lo
        + w.toNat % 2 ^ f.lo := by
      have h3 := congrArg (fun x => 2 ^ f.lo * x) e2
      simp only [Nat.mul_add] at h3
      linarith
    have hh : 2 ^ f.lo * (2 ^ f.width * (w.toNat / 2 ^ f.lo / 2 ^ f.width) + v % 2 ^ f.width)
        = 2 ^ f.lo * (2 ^ f.width * (w.toNat / 2 ^ f.lo / 2 ^ f.width)) + v % 2 ^ f.width * 2 ^ f.lo := by ring
    rw [hh]
    omega
  rw [hx, Nat.add_mul_div_left _ _ (by positivity), Nat.div_eq_of_lt hr, Nat.zero_add, Nat.mul_add_mod,
    Nat.mod_mod]

/-- A field that lies apart from the field written keeps its value. -/
theorem Fld.of_into_apart (f g : Fld) (v : Nat) (w : W32) (hf : f.lo + f.width ≤ 32)
    (h : f.lo + f.width ≤ g.lo ∨ g.lo + g.width ≤ f.lo) : g.of (f.into v w) = g.of w := by
  have e := f.into_toNat v w hf
  have e1 := Nat.div_add_mod w.toNat (2 ^ f.lo)
  have e2 := Nat.div_add_mod (w.toNat / 2 ^ f.lo) (2 ^ f.width)
  have hr : w.toNat % 2 ^ f.lo < 2 ^ f.lo := Nat.mod_lt _ (by positivity)
  have hof : f.of w = w.toNat / 2 ^ f.lo % 2 ^ f.width := rfl
  rw [← hof] at e2
  set q := w.toNat / 2 ^ f.lo / 2 ^ f.width with hq
  set r := w.toNat % 2 ^ f.lo with hrr
  have ew : w.toNat = 2 ^ f.lo * (2 ^ f.width * q) + f.of w * 2 ^ f.lo + r := by
    have h3 := congrArg (fun x => 2 ^ f.lo * x) e2
    simp only [Nat.mul_add] at h3
    linarith
  have ex : (f.into v w).toNat = 2 ^ f.lo * (2 ^ f.width * q) + v % 2 ^ f.width * 2 ^ f.lo + r := by omega
  have hv : v % 2 ^ f.width < 2 ^ f.width := Nat.mod_lt _ (by positivity)
  have hw : f.of w < 2 ^ f.width := Nat.mod_lt _ (by positivity)
  have key : ∀ x, x < 2 ^ f.width →
      (2 ^ f.lo * (2 ^ f.width * q) + x * 2 ^ f.lo + r) / 2 ^ g.lo % 2 ^ g.width
        = if f.lo + f.width ≤ g.lo then q / 2 ^ (g.lo - (f.lo + f.width)) % 2 ^ g.width
          else r / 2 ^ g.lo % 2 ^ g.width := by
    intro x hx
    have hsum : 2 ^ f.lo * (2 ^ f.width * q) + x * 2 ^ f.lo + r = 2 ^ (f.lo + f.width) * q + (x * 2 ^ f.lo + r) := by
      rw [Nat.pow_add]
      ring
    have hlt : x * 2 ^ f.lo + r < 2 ^ (f.lo + f.width) := by
      calc x * 2 ^ f.lo + r < x * 2 ^ f.lo + 2 ^ f.lo := by omega
        _ = (x + 1) * 2 ^ f.lo := by ring
        _ ≤ 2 ^ f.width * 2 ^ f.lo := Nat.mul_le_mul_right _ hx
        _ = 2 ^ (f.lo + f.width) := by rw [Nat.pow_add, Nat.mul_comm]
    by_cases hc : f.lo + f.width ≤ g.lo
    · rw [if_pos hc, hsum]
      have hp : (2:Nat) ^ g.lo = 2 ^ (f.lo + f.width) * 2 ^ (g.lo - (f.lo + f.width)) := by
        rw [← Nat.pow_add]
        congr 1
        omega
      rw [hp, ← Nat.div_div_eq_div_mul, Nat.mul_add_div (by positivity), Nat.div_eq_of_lt hlt, Nat.add_zero]
    · rw [if_neg hc]
      have hg : g.lo + g.width ≤ f.lo := by omega
      have hp : (2:Nat) ^ f.lo = 2 ^ g.lo * (2 ^ g.width * 2 ^ (f.lo - (g.lo + g.width))) := by
        rw [← Nat.pow_add, ← Nat.pow_add]
        congr 1
        omega
      have : 2 ^ f.lo * (2 ^ f.width * q) + x * 2 ^ f.lo + r
          = r + 2 ^ g.lo * (2 ^ g.width * (2 ^ (f.lo - (g.lo + g.width)) * (2 ^ f.width * q + x))) := by
        rw [hp]
        ring
      rw [this, Nat.add_mul_div_left _ _ (by positivity), Nat.add_mul_mod_self_left]
  unfold Fld.of at *
  rw [ex, ew, key _ hv, key _ hw]

/-- A field reads as what was stored, when that fits. -/
theorem State.fget_fset_same (f : Fld) (v i k : Nat) (hf : f.lo + f.width ≤ 32) :
    (s.fset f v i k).fget f i k = v % 2 ^ f.width := by
  simp only [State.fget, State.fset, State.get_put_same]
  exact f.of_into v _ hf

/-- A field of the same register that lies apart keeps its value. -/
theorem State.fget_fset_apart (f g : Fld) (v i k i' k' : Nat) (hf : f.lo + f.width ≤ 32)
    (h : f.lo + f.width ≤ g.lo ∨ g.lo + g.width ≤ f.lo) : (s.fset f v i k).fget g i' k' = s.fget g i' k' := by
  by_cases e : f.reg = g.reg ∧ i = i' ∧ k = k'
  · obtain ⟨hr, rfl, rfl⟩ := e
    have hg : (s.fset f v i k).get g.reg i k = f.into v (s.get g.reg i k) := by
      rw [← hr]
      exact State.get_put_same s f.reg _ i k
    rw [State.fget, hg]
    exact f.of_into_apart g v _ hf h
  · rw [State.fget, State.fget, State.get_fset_copy s f v e]

/-- A copy that was not written keeps its fields. -/
theorem State.fget_fset_copy (f g : Fld) (v : Nat) {i k i' k' : Nat} (h : i ≠ i' ∨ k ≠ k') :
    (s.fset f v i k).fget g i' k' = s.fget g i' k' := by
  rw [State.fget, State.fget, State.get_fset_copy s f v (fun e => by omega)]

/-! ### One bit of a register -/

@[simp] theorem State.hasBit_setBit_same (r : Reg) (b i k : Nat) (h : b < 32) : (s.setBit r b i k).hasBit r b i k = true := by
  simp [State.hasBit, State.setBit, h]

@[simp] theorem State.hasBit_clearBit_same (r : Reg) (b i k : Nat) : (s.clearBit r b i k).hasBit r b i k = false := by
  simp [State.hasBit, State.clearBit]

end Sys2Proof.Machine
end

