-- ==== Sys2Proof/Laws/Delivery.lean ====
section
/-! SUPPORT. What the delivery of events can change, said once: registers of event routing, of the consumers of an event, and
of the captures that a DMA descriptor read can make; nothing else. -/

namespace Sys2Proof.Machine

/-- What the delivery of an event leaves as it was. -/
structure Delivers (s t : State) : Prop where
  regs : ∀ r i k, r.delivered = false → t.get r i k = s.get r i k
  ram : t.ram = s.ram
  fuses : t.fuses = s.fuses
  dom : t.dom = s.dom
  rcp : t.rcp = s.rcp
  tim : t.tim = s.tim
  axes : t.axes = s.axes
  genlock : t.genlock = s.genlock
  shadows : t.shadows = s.shadows
  fab : t.fab = s.fab
  gfx : t.gfx = s.gfx
  cmp : t.cmp = s.cmp
  outs : t.outs = s.outs
  glaze : t.isl = { s.isl with pend := t.isl.pend, seen := t.isl.seen }
  mem : t.mem = s.mem
  cpx : t.cpx = s.cpx
  vir : t.vir = { s.vir with tlb := t.vir.tlb }
  tch : t.tch = s.tch
  latches : t.latches = s.latches
  sio : t.sio = s.sio
  aud : t.aud = s.aud
  evt : t.evt = s.evt
  pending : t.pending = s.pending

theorem Delivers.refl (s : State) : Delivers s s :=
  ⟨fun _ _ _ _ => rfl, rfl, rfl, rfl, rfl, rfl, rfl, rfl, rfl, rfl, rfl, rfl, rfl, rfl, rfl, rfl, rfl, rfl, rfl, rfl, rfl,
    rfl, rfl⟩

theorem Delivers.trans {s t u : State} (a : Delivers s t) (b : Delivers t u) : Delivers s u where
  regs r i k h := (b.regs r i k h).trans (a.regs r i k h)
  ram := b.ram.trans a.ram
  fuses := b.fuses.trans a.fuses
  dom := b.dom.trans a.dom
  rcp := b.rcp.trans a.rcp
  tim := b.tim.trans a.tim
  axes := b.axes.trans a.axes
  genlock := b.genlock.trans a.genlock
  shadows := b.shadows.trans a.shadows
  fab := b.fab.trans a.fab
  gfx := b.gfx.trans a.gfx
  cmp := b.cmp.trans a.cmp
  outs := b.outs.trans a.outs
  glaze := by rw [b.glaze, a.glaze]
  mem := b.mem.trans a.mem
  cpx := b.cpx.trans a.cpx
  vir := by rw [b.vir, a.vir]
  tch := b.tch.trans a.tch
  latches := b.latches.trans a.latches
  sio := b.sio.trans a.sio
  aud := b.aud.trans a.aud
  evt := b.evt.trans a.evt
  pending := b.pending.trans a.pending

/-- A change of nothing but what delivery may change beside registers. -/
theorem Delivers.of_free (s : State) (pwr : PowerState) (cue : CueState) (dma : DmaState) (crc : CrcState) (hap : Tbl HapCh)
    (sent : List Emission) (raised : List Nat) (draws : Nat) (pend seen : List Nat) (tlb : List TlbEntry) :
    Delivers s { s with
      pwr := pwr, cue := cue, dma := dma, crc := crc, hap := hap, sent := sent, raised := raised, draws := draws
      isl := { s.isl with pend := pend, seen := seen }, vir := { s.vir with tlb := tlb } } where
  regs _ _ _ _ := rfl
  ram := rfl
  fuses := rfl
  dom := rfl
  rcp := rfl
  tim := rfl
  axes := rfl
  genlock := rfl
  shadows := rfl
  fab := rfl
  gfx := rfl
  cmp := rfl
  outs := rfl
  glaze := rfl
  mem := rfl
  cpx := rfl
  vir := rfl
  tch := rfl
  latches := rfl
  sio := rfl
  aud := rfl
  evt := rfl
  pending := rfl

/-! ### The shared updates -/

theorem Delivers.put {s t : State} (a : Delivers s t) (r : Reg) (v : W32) (i k : Nat) (h : r.delivered = true) :
    Delivers s (t.put r v i k) :=
  a.trans
    { regs := fun r' i' k' h' => State.get_put_reg t v i k i' k' (fun e => by simp [← e, h] at h')
      ram := rfl, fuses := rfl, dom := rfl, rcp := rfl, tim := rfl, axes := rfl, genlock := rfl, shadows := rfl, fab := rfl
      gfx := rfl, cmp := rfl, outs := rfl, glaze := rfl, mem := rfl, cpx := rfl, vir := rfl, tch := rfl, latches := rfl
      sio := rfl, aud := rfl, evt := rfl, pending := rfl }

theorem Delivers.fset {s t : State} (a : Delivers s t) (f : Fld) (v i k : Nat) (h : f.reg.delivered = true) :
    Delivers s (t.fset f v i k) := a.put f.reg _ i k h

theorem Delivers.put64 {s t : State} (a : Delivers s t) (lo hi : Reg) (v : BitVec 64) (i k : Nat) (h : lo.delivered = true)
    (h' : hi.delivered = true) : Delivers s (t.put64 lo hi v i k) := (a.put lo _ i k h).put hi _ i k h'

theorem Delivers.setBit {s t : State} (a : Delivers s t) (r : Reg) (b i k : Nat) (h : r.delivered = true) :
    Delivers s (t.setBit r b i k) := a.put r _ i k h

theorem Delivers.bitTo {s t : State} (a : Delivers s t) (r : Reg) (b : Nat) (v : Bool) (i k : Nat) (h : r.delivered = true) :
    Delivers s (t.bitTo r b v i k) := by
  cases v
  · exact a.put r _ i k h
  · exact a.put r _ i k h

theorem Delivers.raise {s t : State} (a : Delivers s t) (n : Nat) : Delivers s (t.raise n) :=
  a.trans (.of_free t t.pwr t.cue t.dma t.crc t.hap t.sent _ t.draws t.isl.pend t.isl.seen t.vir.tlb)

theorem Delivers.emit {s t : State} (a : Delivers s t) (e : Emission) : Delivers s (t.emit e) :=
  a.trans (.of_free t t.pwr t.cue t.dma t.crc t.hap _ t.raised t.draws t.isl.pend t.isl.seen t.vir.tlb)

theorem Delivers.drawn {s t : State} (a : Delivers s t) : Delivers s t.drawn :=
  a.trans (.of_free t t.pwr t.cue t.dma t.crc t.hap t.sent t.raised _ t.isl.pend t.isl.seen t.vir.tlb)

theorem Delivers.forEach {α : Type} {l : List α} {f : α → State → State} (h : ∀ x t, Delivers t (f x t)) {s t : State}
    (a : Delivers s t) : Delivers s (forEach l f t) := by
  unfold Machine.forEach
  induction l generalizing t with
  | nil => exact a
  | cons x l ih => exact ih (a.trans (h x t))

theorem Delivers.onlyIf {c : Bool} {f : State → State} {s t : State} (h : Delivers t (f t)) (a : Delivers s t) :
    Delivers s (onlyIf c f t) := by
  cases c
  · exact a
  · exact a.trans h

/-! ### Reads of an engine -/

theorem fenceCapture_delivers (s : State) (q o a : Nat) (w f : Bool) : Delivers s (s.fenceCapture q o a w f) :=
  (((((((Delivers.refl s).put64 _ _ _ _ _ rfl rfl).fset _ _ _ _ rfl).fset _ _ _ _ rfl).fset _ _ _ _ rfl).fset _ _ _ _ rfl).fset
    _ _ _ _ rfl).raise 7

theorem memUe_delivers (s : State) (p o a t : Nat) : Delivers s (s.memUe p o a t) :=
  (((((((Delivers.refl s).put64 _ _ _ _ _ rfl rfl).fset _ _ _ _ rfl).fset _ _ _ _ rfl).fset _ _ _ _ rfl).fset _ _ _ _ rfl).fset
    _ _ _ _ rfl).raise 240

theorem msixGuest_delivers (s : State) (i v : Nat) : Delivers s (s.msixGuest i v) := by
  unfold State.msixGuest
  split
  · exact (Delivers.refl s).emit _
  · exact .refl s

theorem msixPf_delivers (s : State) (v : Nat) : Delivers s (s.msixPf v) := by
  unfold State.msixPf
  split
  · exact (Delivers.refl s).emit _
  · exact .refl s

theorem tfault_delivers (s : State) (i : Nat) (e : Engine) (va : Nat) (w : Bool) (r : Nat) : Delivers s (s.tfault i e va w r) :=
  (((((((((Delivers.refl s).put64 _ _ _ _ _ rfl rfl).fset _ _ _ _ rfl).fset _ _ _ _ rfl).fset _ _ _ _ rfl).fset _ _ _ _ rfl).fset
    _ _ _ _ rfl).raise 271)).trans (msixGuest_delivers _ _ _)

theorem landAs_delivers (s : State) (inner : Bool) (e : Engine) (o a : Nat) (w : Bool) :
    Delivers s (s.landAs inner e o a w).2 := by
  unfold State.landAs
  split
  · exact (Delivers.refl s).drawn.trans (fenceCapture_delivers _ _ _ _ _ _)
  · split
    · exact .refl s
    · split
      · exact (Delivers.refl s).drawn.trans (memUe_delivers _ _ _ _ _)
      · exact .refl s

theorem draws_delivers (s : State) (n : Nat) : Delivers s { s with draws := n } :=
  .of_free s s.pwr s.cue s.dma s.crc s.hap s.sent s.raised _ s.isl.pend s.isl.seen s.vir.tlb

theorem tlbFill_delivers (s : State) (o : Nat) (e : Engine) (va : Nat) (x : BitVec 64) (n : Nat) :
    Delivers s (s.tlbFill o e va x n) :=
  .of_free s s.pwr s.cue s.dma s.crc s.hap s.sent s.raised s.draws s.isl.pend s.isl.seen _

theorem landLeaf_delivers (s : State) (i : Nat) (e : Engine) (va : Nat) (w : Bool) (x : BitVec 64) (n : Nat) :
    Delivers s (s.landLeaf i e va w x n).2 := by
  unfold State.landLeaf
  split
  · exact tfault_delivers _ _ _ _ _ _
  · exact landAs_delivers _ _ _ _ _ _
  · exact .refl s

theorem landWalk_delivers (s : State) (i : Nat) (e : Engine) (va : Nat) (w : Bool) :
    Delivers s (s.landWalk i e va w).2 := by
  unfold State.landWalk
  split
  · exact (tlbFill_delivers s _ _ _ _ _).trans (landLeaf_delivers _ _ _ _ _ _ _)
  · exact tfault_delivers _ _ _ _ _ _

theorem land_delivers (s : State) (e : Engine) (o va : Nat) (w : Bool) : Delivers s (s.land e o va w).2 := by
  unfold State.land
  split
  · split
    · split
      · exact (Delivers.refl s).drawn.trans (landLeaf_delivers _ _ _ _ _ _ _)
      · exact (Delivers.refl s).drawn.trans (landWalk_delivers _ _ _ _ _)
    · exact landWalk_delivers _ _ _ _ _
  · exact landAs_delivers _ _ _ _ _ _

theorem fetchPiece_delivers (e : Engine) (o : Nat) (r : Fetched) (p : Nat × Nat) :
    Delivers r.s (fetchPiece e o r p).s := by
  have h := land_delivers r.s e o p.1 false
  unfold fetchPiece
  revert h
  rcases r.s.land e o p.1 false with ⟨l, t⟩
  intro h
  cases l
  · exact h
  · exact h.trans (draws_delivers _ _)
  · exact h.trans (draws_delivers _ _)
  · exact h

/-- A read of an engine changes translations held, captures and nothing else. -/
theorem engineRead_delivers (s : State) (e : Engine) (o va n : Nat) : Delivers s (s.engineRead e o va n).s := by
  unfold State.engineRead
  suffices h : ∀ (l : List (Nat × Nat)) (r : Fetched), Delivers s r.s → Delivers s (l.foldl (fetchPiece e o) r).s from
    h _ _ (.refl s)
  intro l
  induction l with
  | nil => exact fun r a => a
  | cons p l ih => exact fun r a => ih _ (a.trans (fetchPiece_delivers e o r p))

/-! ### DMA -/

theorem Delivers.setChan {s t : State} (a : Delivers s t) (c : Nat) (x : ChanState) : Delivers s (t.setChan c x) :=
  a.trans (.of_free t t.pwr t.cue _ t.crc t.hap t.sent t.raised t.draws t.isl.pend t.isl.seen t.vir.tlb)

theorem Delivers.setFeeder {s t : State} (a : Delivers s t) (n : Nat) (f : Option Nat) : Delivers s (t.setFeeder n f) :=
  Delivers.fset (a.trans (.of_free t t.pwr t.cue t.dma _ t.hap t.sent t.raised t.draws t.isl.pend t.isl.seen t.vir.tlb)) F.CRC_STATUS.busy f.isSome.toNat n 0 rfl

theorem Delivers.crcLoad {s t : State} (a : Delivers s t) (n : Nat) : Delivers s (t.crcLoad n) :=
  a.trans (.of_free t t.pwr t.cue t.dma _ t.hap t.sent t.raised t.draws t.isl.pend t.isl.seen t.vir.tlb)

theorem claimCrc_delivers (s : State) (c : Nat) : Delivers s (s.claimCrc c) := by
  unfold State.claimCrc
  dsimp only
  split
  · split
    · exact .onlyIf ((Delivers.refl _).crcLoad _) (((Delivers.refl s).setChan _ _).setFeeder _ _)
    · exact (Delivers.refl s).setChan _ _
  · exact .refl s

theorem dmaBegin_delivers (s : State) (c : Nat) : Delivers s (s.dmaBegin c).2 := by
  unfold State.dmaBegin
  have h := engineRead_delivers s (.dma c) (s.dmaHolder c) (s.chCur c) 64
  dsimp only
  split
  · exact h
  · exact (((h.setChan _ _).put _ _ _ _ rfl)).trans (claimCrc_delivers _ _)

theorem dmaRun_delivers (s : State) (c : Nat) : Delivers s (s.dmaRun c) := by
  unfold State.dmaRun
  have h : Delivers s (((s.fset F.CH_STATUS.state chRunning c).fset F.ENG_STATUS.channel (c % 16) (c / 16)).fset
      F.ENG_STATUS.busy 1 (c / 16)) :=
    (((Delivers.refl s).fset _ _ _ _ rfl).fset _ _ _ _ rfl).fset _ _ _ _ rfl
  dsimp only
  revert h
  generalize ((s.fset F.CH_STATUS.state chRunning c).fset F.ENG_STATUS.channel (c % 16) (c / 16)).fset
      F.ENG_STATUS.busy 1 (c / 16) = t
  intro h
  split
  · split
    · exact h.trans (claimCrc_delivers _ _)
    · exact h
  · have h2 : Delivers s (if (t.chan c).taken = 0 then
        (t.put64 .CH_CUR_LO .CH_CUR_HI (BitVec.ofNat 64 (t.chStartAddr c)) c).setChan c ChanState.initial else t) := by
      split
      · exact (h.put64 _ _ _ _ _ rfl rfl).setChan _ _
      · exact h
    revert h2
    generalize (if (t.chan c).taken = 0 then
        (t.put64 .CH_CUR_LO .CH_CUR_HI (BitVec.ofNat 64 (t.chStartAddr c)) c).setChan c ChanState.initial else t) = u
    intro h2
    have h3 := h2.trans (dmaBegin_delivers u c)
    revert h3
    rcases u.dmaBegin c with ⟨b, v⟩
    intro h3
    cases b
    · exact ((h3.fset _ _ _ _ rfl).setChan _ _).fset _ _ _ _ rfl
    · exact h3

theorem dmaPickN_delivers (s : State) (e n : Nat) : Delivers s (s.dmaPickN e n) := by
  induction n generalizing s with
  | zero => exact .refl s
  | succ n ih =>
    unfold State.dmaPickN
    split
    · exact .refl s
    · split
      · exact (dmaRun_delivers s _).trans (ih _)
      · exact .refl s

theorem dmaPick_delivers (s : State) (e : Nat) : Delivers s (s.dmaPick e) := by
  unfold State.dmaPick
  split
  · exact .refl s
  · exact dmaPickN_delivers _ _ _

theorem dmaMark_delivers (s : State) (c : Nat) : Delivers s (s.dmaMark c) := by
  unfold State.dmaMark
  split
  · exact ((Delivers.refl s).fset _ _ _ _ rfl).setChan _ _
  · exact (((Delivers.refl s).fset _ _ _ _ rfl).fset _ _ _ _ rfl).raise _

theorem dmaTriggerAll_delivers (s : State) (l : List Nat) : Delivers s (s.dmaTriggerAll l) := by
  unfold State.dmaTriggerAll
  refine .forEach (fun e t => ?_) (.forEach (fun c t => dmaMark_delivers t c) (.refl s))
  split
  · exact dmaPick_delivers t e
  · exact .refl t

theorem dmaFire_delivers (s : State) (kind source : Nat) : Delivers s (s.dmaFire kind source) := dmaTriggerAll_delivers s _

/-! ### Wakes -/

theorem refuseEntry_delivers (s : State) (r : Nat) : Delivers s (s.refuseEntry r) :=
  (Delivers.forEach (fun e t => dmaPick_delivers t e)
    ((((Delivers.refl s).fset _ _ _ _ rfl).fset _ _ _ _ rfl).fset _ _ _ _ rfl)).raise _

theorem wake_delivers (s : State) (b : Nat) : Delivers s (s.wake b) := by
  unfold State.wake
  split
  · split
    · split
      · exact refuseEntry_delivers s 2
      · exact .refl s
    · split
      · exact .of_free s _ s.cue s.dma s.crc s.hap s.sent s.raised s.draws s.isl.pend s.isl.seen s.vir.tlb
      · exact .refl s
  · exact .refl s

/-! ### Cue links and haptic links -/

theorem Delivers.countOwner {s t : State} (a : Delivers s t) (o : Nat) : Delivers s (t.countOwner o) :=
  (a.fset _ _ _ _ rfl).fset _ _ _ _ rfl

theorem Delivers.countCues {s t : State} (a : Delivers s t) (o : Nat) : Delivers s (t.countCues o) :=
  ((a.fset _ _ _ _ rfl).fset _ _ _ _ rfl).countOwner o

theorem putCue_delivers (s : State) (n : Nat) (c : CueSlot) : Delivers s (s.putCue n c) :=
  .of_free s s.pwr _ s.dma s.crc s.hap s.sent s.raised s.draws s.isl.pend s.isl.seen s.vir.tlb

theorem arm_delivers (s : State) (o : Nat) (e : CueEntry) : Delivers s (s.arm o e).2.2 := by
  unfold State.arm
  split
  · exact .refl s
  · split
    · exact .refl s
    · exact (putCue_delivers s _ _).countCues _

theorem cueLink_delivers (s : State) (j : Nat) : Delivers s (s.cueLink j) := by
  unfold State.cueLink
  dsimp only
  split
  · exact (arm_delivers s 0 _).fset F.EVT_CUE_STATUS.err 0 j 0 rfl
  · exact (((Delivers.refl s).fset F.EVT_CUE_STATUS.err _ j 0 rfl).fset F.EVT_CUE_STATUS.fail_count _ j 0 rfl).raise 6

theorem hapEnter_delivers (s : State) (n st : Nat) : Delivers s (s.hapEnter n st) :=
  ((((Delivers.refl s).fset _ _ _ _ rfl).bitTo _ _ _ _ _ rfl).bitTo _ _ _ _ _ rfl).emit _

theorem setHap_delivers (s : State) (n : Nat) (x : HapCh) : Delivers s (s.setHap n x) :=
  .of_free s s.pwr s.cue s.dma s.crc _ s.sent s.raised s.draws s.isl.pend s.isl.seen s.vir.tlb

theorem hapPlay_delivers (s : State) (n w a : Nat) (src : FireSource) : Delivers s (s.hapPlay n w a src) :=
  ((setHap_delivers s n _).fset _ _ _ _ rfl).trans (hapEnter_delivers _ _ _)

theorem hapDropped_delivers (s : State) (n : Nat) : Delivers s (s.hapDropped n) :=
  ((Delivers.refl s).fset _ _ _ _ rfl).raise _

theorem cueFailed_delivers (s : State) (n a o : Nat) : Delivers s (s.cueFailed n a o) :=
  ((Delivers.refl s).put _ _ _ _ rfl).raise _

theorem hapFire_delivers (s : State) (n w a : Nat) (src : FireSource) : Delivers s (s.hapFire n w a src) := by
  unfold State.hapFire
  split
  · exact (hapPlay_delivers s n w a src).fset _ _ _ _ rfl
  · split
    · have h := (hapPlay_delivers s n w a src).trans (hapDropped_delivers _ n)
      dsimp only
      split
      · exact h.trans (cueFailed_delivers _ _ _ _)
      · exact h
    · exact hapDropped_delivers s n

theorem hapLink_delivers (s : State) (j : Nat) : Delivers s (s.hapLink j) := by
  unfold State.hapLink
  dsimp only
  split
  · exact hapFire_delivers _ _ _ _ _
  · exact .refl s

/-! ### Counters -/

theorem pmcAdd_delivers (s : State) (n a : Nat) : Delivers s (s.pmcAdd n a) := by
  unfold State.pmcAdd
  dsimp only
  have h : Delivers s ((s.put .PMC_VAL_LO (BitVec.ofNat 32 (s.pmcValue n + a)) n).fset F.PMC_VAL_HI.count
      ((s.pmcValue n + a) / 2 ^ 32) n) := ((Delivers.refl s).put _ _ _ _ rfl).fset _ _ _ _ rfl
  revert h
  generalize ((s.put .PMC_VAL_LO (BitVec.ofNat 32 (s.pmcValue n + a)) n).fset F.PMC_VAL_HI.count
      ((s.pmcValue n + a) / 2 ^ 32) n) = t
  intro h
  have h2 : Delivers s (if s.pmcValue n / 2 ^ 32 < (s.pmcValue n + a) / 2 ^ 32 then t.setBit .PMC_MIRROR_OVF n else t) := by
    split
    · exact h.setBit .PMC_MIRROR_OVF n 0 0 rfl
    · exact h
  revert h2
  generalize (if s.pmcValue n / 2 ^ 32 < (s.pmcValue n + a) / 2 ^ 32 then t.setBit .PMC_MIRROR_OVF n else t) = u
  intro h2
  split
  · exact (h2.fset F.PMC_VAL_HI.ovf 1 n 0 rfl).raise 2
  · exact h2

theorem pmcCount_delivers (s : State) (c u a : Nat) : Delivers s (s.pmcCount c u a) :=
  .forEach (fun n t => pmcAdd_delivers t n a) (.refl s)

/-! ### Delivery -/

theorem toIsland_delivers (s : State) (n : Nat) (b : Bool) : Delivers s (s.toIsland n b) :=
  .of_free s s.pwr s.cue s.dma s.crc s.hap s.sent s.raised s.draws _ _ s.vir.tlb

theorem toAia_delivers (s : State) (n : Nat) : Delivers s (s.toAia n) := by
  unfold State.toAia
  split
  · exact .refl s
  · split
    · exact .refl s
    · exact (Delivers.refl s).emit _

theorem routeEvent_delivers (s : State) (n : Nat) : Delivers s (s.routeEvent n) := by
  unfold State.routeEvent
  exact .onlyIf (wake_delivers _ _) <| .onlyIf (msixPf_delivers _ _) <| .onlyIf (toAia_delivers _ _) <|
    .onlyIf ((Delivers.refl _).setBit _ _ _ _ rfl) <|
      ((Delivers.refl s).setBit .EVT_STICKY (n % 32) 0 (n / 32) rfl).trans (toIsland_delivers _ _ _)

theorem eventListeners_delivers (s : State) (n : Nat) : Delivers s (s.eventListeners n) := by
  unfold State.eventListeners
  exact (Delivers.forEach (fun j t => hapLink_delivers t j) <| .forEach (fun j t => cueLink_delivers t j) <|
    dmaFire_delivers s 3 n).trans (pmcCount_delivers _ _ _ _)

theorem deliverOne_delivers (s : State) (n : Nat) : Delivers s (s.deliverOne n) := by
  unfold State.deliverOne
  split
  · exact (routeEvent_delivers s n).trans (eventListeners_delivers _ n)
  · exact toIsland_delivers s n _

theorem raised_delivers (s : State) (l : List Nat) : Delivers s { s with raised := l } :=
  .of_free s s.pwr s.cue s.dma s.crc s.hap s.sent _ s.draws s.isl.pend s.isl.seen s.vir.tlb

theorem deliverN_delivers (s : State) (f : Nat) : Delivers s (s.deliverN f) := by
  induction f generalizing s with
  | zero => exact .refl s
  | succ f ih =>
    unfold State.deliverN
    split
    · exact .refl s
    · exact ((raised_delivers s _).trans (deliverOne_delivers _ _)).trans (ih _)

/-- The delivery of the events raised changes what `Delivers` leaves open, and nothing else. -/
theorem deliver_delivers (s : State) : Delivers s s.deliver := deliverN_delivers s _

/-- With nothing raised, delivery changes nothing. -/
theorem deliver_quiet (s : State) (h : s.raised = []) : s.deliver = s := by
  simp [State.deliver, State.deliverN, h]

end Sys2Proof.Machine
end

