-- ==== Sys2Proof/Laws/Memory.lean ====
section
/-! SUPPORT. The laws of memory: a read after a store, and that every memory operation keeps the canonical form. -/

namespace Sys2Proof.Machine

theorem Memory.read_write_same (m : List Host.Cell) (a : Nat) (v : Byte) : Memory.read (Memory.write m a v) a = v :=
  lookup_putKey_same id Memory.unlisted m a v

theorem Memory.read_write_other (m : List Host.Cell) {a b : Nat} (v : Byte) (h : a ≠ b) :
    Memory.read (Memory.write m a v) b = Memory.read m b := by
  simp [Memory.read, Memory.write, lookup_putKey_other id Memory.unlisted m v h]

theorem Memory.write_wf (m : List Host.Cell) (a : Nat) (v : Byte) (h : Memory.wf m = true) :
    Memory.wf (Memory.write m a v) = true :=
  canonical_putKey id (fun _ => Memory.unlisted) m a v h (fun _ _ hr => hr)

theorem Memory.writeBytes_wf (m : List Host.Cell) (a : Nat) (l : List Byte) (h : Memory.wf m = true) :
    Memory.wf (Memory.writeBytes m a l) = true := by
  induction l generalizing m a with
  | nil => exact h
  | cons b t ih => exact ih _ _ (Memory.write_wf m a b h)

/-- Bytes outside a store keep their value. -/
theorem Memory.read_writeBytes_outside (m : List Host.Cell) (a : Nat) (l : List Byte) (b : Nat)
    (h : b < a ∨ a + l.length ≤ b) : Memory.read (Memory.writeBytes m a l) b = Memory.read m b := by
  induction l generalizing m a with
  | nil => rfl
  | cons x t ih =>
    simp only [List.length_cons] at h
    rw [Memory.writeBytes, ih _ _ (by omega), Memory.read_write_other m x (by omega)]

/-- Bytes of a store read as they were stored. -/
theorem Memory.read_writeBytes_inside (m : List Host.Cell) (a : Nat) (l : List Byte) (i : Nat) (h : i < l.length) :
    Memory.read (Memory.writeBytes m a l) (a + i) = l[i] := by
  induction l generalizing m a i with
  | nil => simp at h
  | cons x t ih =>
    cases i with
    | zero =>
      rw [Memory.writeBytes, Memory.read_writeBytes_outside _ _ _ _ (by omega)]
      exact Memory.read_write_same m a x
    | succ j =>
      have hj := ih (Memory.write m a x) (a + 1) j (by simpa using h)
      have ha : a + (j + 1) = a + 1 + j := by omega
      rw [Memory.writeBytes, ha, hj]
      rfl

theorem Memory.storeAll_wf (m : List Host.Cell) (l : List Store) (h : Memory.wf m = true) :
    Memory.wf (Memory.storeAll m l) = true := by
  induction l generalizing m with
  | nil => exact h
  | cons w t ih => exact ih _ (Memory.writeBytes_wf m w.1 w.2 h)

/-- Bytes outside every store keep their value. -/
theorem Memory.read_storeAll_outside (m : List Host.Cell) (l : List Store) (b : Nat)
    (h : ∀ w ∈ l, b < w.1 ∨ w.1 + w.2.length ≤ b) : Memory.read (Memory.storeAll m l) b = Memory.read m b := by
  induction l generalizing m with
  | nil => rfl
  | cons w t ih =>
    rw [Memory.storeAll, ih _ (fun x hx => h x (List.mem_cons_of_mem _ hx)),
      Memory.read_writeBytes_outside _ _ _ _ (h w (by simp))]

end Sys2Proof.Machine
end

