-- ==== Sys2Proof/Laws/Ends.lean ====
section
/-! SUPPORT. What holds of the state in which a command ends, whatever it does: the queue and OTP stay, memory is as stored,
and what delivery cannot change is as the command's own effect left it. -/

namespace Sys2Proof.Machine

variable (s t : State)

theorem done_next (f : State → State) : done f s = .next (settled s (f s)) := rfl

theorem packetEnd_next (f : State → PacketEffect) : packetEnd f s = .next (settledMem s (f s).1 (f s).2) := rfl

/-- With nothing raised, the state settles at once. -/
theorem settled_quiet (h : t.raised = []) : settled s t = { keep s t with ram := s.ram } := by
  simp [settled, deliver_quiet t h]

/-! ### What delivery leaves of a command's effect -/

@[simp] theorem settled_get (r : Reg) (i k : Nat) (h : r.delivered = false) : (settled s t).get r i k = t.get r i k :=
  (deliver_delivers t).regs r i k h

@[simp] theorem settled_fget (f : Fld) (i k : Nat) (h : f.reg.delivered = false) :
    (settled s t).fget f i k = t.fget f i k := congrArg f.of (settled_get s t f.reg i k h)

@[simp] theorem settled_flag (f : Fld) (i k : Nat) (h : f.reg.delivered = false) :
    (settled s t).flag f i k = t.flag f i k := by
  simp [State.flag, h]

@[simp] theorem settled_ram : (settled s t).ram = s.ram := rfl
@[simp] theorem settled_pending : (settled s t).pending = s.pending := rfl
@[simp] theorem settled_fuses : (settled s t).fuses = s.fuses := rfl
@[simp] theorem settled_readByte (a : Nat) : (settled s t).readByte a = s.readByte a := rfl
@[simp] theorem settled_dom : (settled s t).dom = t.dom := (deliver_delivers t).dom
@[simp] theorem settled_rcp : (settled s t).rcp = t.rcp := (deliver_delivers t).rcp
@[simp] theorem settled_tim : (settled s t).tim = t.tim := (deliver_delivers t).tim
@[simp] theorem settled_axes : (settled s t).axes = t.axes := (deliver_delivers t).axes
@[simp] theorem settled_genlock : (settled s t).genlock = t.genlock := (deliver_delivers t).genlock
@[simp] theorem settled_shadows : (settled s t).shadows = t.shadows := (deliver_delivers t).shadows
@[simp] theorem settled_fab : (settled s t).fab = t.fab := (deliver_delivers t).fab
@[simp] theorem settled_gfx : (settled s t).gfx = t.gfx := (deliver_delivers t).gfx
@[simp] theorem settled_cmp : (settled s t).cmp = t.cmp := (deliver_delivers t).cmp
@[simp] theorem settled_outs : (settled s t).outs = t.outs := (deliver_delivers t).outs
@[simp] theorem settled_mem : (settled s t).mem = t.mem := (deliver_delivers t).mem
@[simp] theorem settled_cpx : (settled s t).cpx = t.cpx := (deliver_delivers t).cpx
@[simp] theorem settled_tch : (settled s t).tch = t.tch := (deliver_delivers t).tch
@[simp] theorem settled_latches : (settled s t).latches = t.latches := (deliver_delivers t).latches
@[simp] theorem settled_sio : (settled s t).sio = t.sio := (deliver_delivers t).sio
@[simp] theorem settled_aud : (settled s t).aud = t.aud := (deliver_delivers t).aud
@[simp] theorem settled_evt : (settled s t).evt = t.evt := (deliver_delivers t).evt

/-- The island but its pending bits and the levels it has seen. -/
theorem settled_isl : ({ (settled s t).isl with pend := [], seen := [] } : IslState) = { t.isl with pend := [], seen := [] } := by
  have h := (deliver_delivers t).glaze
  show ({ t.deliver.isl with pend := [], seen := [] } : IslState) = _
  rw [h]

/-- Virtual instances but the translations that engines hold. -/
theorem settled_vir : ({ (settled s t).vir with tlb := [] } : VirState) = { t.vir with tlb := [] } := by
  have h := (deliver_delivers t).vir
  show ({ t.deliver.vir with tlb := [] } : VirState) = _
  rw [h]

/-! ### The same for a command that stores in memory -/

variable (w : List Store)

@[simp] theorem settledMem_get (r : Reg) (i k : Nat) (h : r.delivered = false) :
    (settledMem s w t).get r i k = t.get r i k :=
  (deliver_delivers { t with ram := Memory.storeAll s.ram w }).regs r i k h

@[simp] theorem settledMem_fget (f : Fld) (i k : Nat) (h : f.reg.delivered = false) :
    (settledMem s w t).fget f i k = t.fget f i k := congrArg f.of (settledMem_get s t w f.reg i k h)

@[simp] theorem settledMem_flag (f : Fld) (i k : Nat) (h : f.reg.delivered = false) :
    (settledMem s w t).flag f i k = t.flag f i k := by
  simp [State.flag, h]

@[simp] theorem settledMem_ram : (settledMem s w t).ram = Memory.storeAll s.ram w := rfl
@[simp] theorem settledMem_pending : (settledMem s w t).pending = s.pending := rfl
@[simp] theorem settledMem_fuses : (settledMem s w t).fuses = s.fuses := rfl
@[simp] theorem settledMem_gfx : (settledMem s w t).gfx = t.gfx :=
  (deliver_delivers { t with ram := Memory.storeAll s.ram w }).gfx
@[simp] theorem settledMem_cmp : (settledMem s w t).cmp = t.cmp :=
  (deliver_delivers { t with ram := Memory.storeAll s.ram w }).cmp
@[simp] theorem settledMem_evt : (settledMem s w t).evt = t.evt :=
  (deliver_delivers { t with ram := Memory.storeAll s.ram w }).evt
@[simp] theorem settledMem_sio : (settledMem s w t).sio = t.sio :=
  (deliver_delivers { t with ram := Memory.storeAll s.ram w }).sio
@[simp] theorem settledMem_mem : (settledMem s w t).mem = t.mem :=
  (deliver_delivers { t with ram := Memory.storeAll s.ram w }).mem

/-! ### Memory keeps its canonical form -/

theorem settled_wf (h : Memory.wf s.ram = true) : Memory.wf (settled s t).ram = true := h

theorem settledMem_wf (h : Memory.wf s.ram = true) : Memory.wf (settledMem s w t).ram = true := Memory.storeAll_wf s.ram w h

/-- A meaning that stores nothing leaves memory as it was. -/
theorem done_ram {f : State → State} {t : State} (h : done f s = .next t) : t.ram = s.ram := by
  cases h
  rfl

/-- A meaning that stores keeps the canonical form. -/
theorem packetEnd_wf {f : State → PacketEffect} {t : State} (h : packetEnd f s = .next t) (hw : Memory.wf s.ram = true) :
    Memory.wf t.ram = true := by
  cases h
  exact settledMem_wf s _ _ hw

theorem doneMem_wf {w : State → List Store} {f : State → State} {t : State} (h : doneMem w f s = .next t)
    (hw : Memory.wf s.ram = true) : Memory.wf t.ram = true := by
  cases h
  exact settledMem_wf s _ _ hw

/-- A meaning that may lose memory loses all of it or none. -/
theorem doneLoss_ram {f : State → State} {t : State} (h : doneLoss f s = .next t) : t.ram = [] ∨ t.ram = s.ram := by
  cases h
  show (if (f s).ram.isEmpty then [] else s.ram) = [] ∨ (if (f s).ram.isEmpty then [] else s.ram) = s.ram
  split
  · exact Or.inl rfl
  · exact Or.inr rfl

end Sys2Proof.Machine
end

