-- ==== Sys2Proof/WellFormed.lean ====
section
/-! DEFINITION. Which operands a command can carry: what arrives from outside the device has the sizes and ranges that its
chapter gives. The machine gives every command a meaning, well-formed or not. -/

namespace Sys2Proof

/-- R34, R41, R60: interface numbers are bytes; keys and signatures are P-384. -/
def FwImage.wellFormed (f : FwImage) : Bool :=
  decide (f.key.length = 97) && decide (f.sig.length = 96) && decide (f.iface < 256) && decide (f.recipeMin < 256) && decide (f.recipeMax < 256) && decide (f.otherMin < 256)
    && decide (f.otherMax < 256)

/-- R86: the digits of a timecode. -/
def LtcFrame.wellFormed (f : LtcFrame) : Bool :=
  decide (f.hours < 24) && decide (f.minutes < 60) && decide (f.seconds < 60) && decide (f.frames < 30)

/-- R124: hop count of 8 bits, counter of 64 bits. -/
def FabHdr.wellFormed (h : FabHdr) : Bool := decide (h.hops < 256) && decide (h.ctr < 2 ^ 64)

/-- R137: a DATA payload is 64 bytes, 40 of them data. -/
def DataMsg.wellFormed (m : DataMsg) : Bool := decide (m.bytes.length ≤ 40)

/-- R137: the outcomes of a REPLY. -/
def ReplyMsg.wellFormed (m : ReplyMsg) : Bool := decide (1 ≤ m.outcome) && decide (m.outcome ≤ 3)

/-- R145: a TOPO frame names each port of its origin at most once. -/
def topoWellFormed (l : List TopoLink) : Bool := decide ((l.map (fun x => x.port)).Nodup)

/-- R324, R325: five groups of 16 TX at most, at least one run, at most 128 RX, and sixteen chips to each. -/
def CodeRuns.wellFormed (r : CodeRuns) : Bool :=
  decide (r.group < 5) && !r.runs.isEmpty
    && r.runs.all (fun run => decide (run.length ≤ 128) && run.all (fun rx => decide (rx.length = 16)))

/-- R363, R366: an input channel, a drifting port or a player is listed once in an instant, and a word has at most 32 bits. -/
def AudioObs.wellFormed (o : AudioObs) : Bool :=
  decide (o.inputs.map (·.1)).Nodup && decide (o.drifted.map (·.1)).Nodup && decide o.unfetched.Nodup
    && o.inputs.all (fun e => decide (-(2 ^ 31) ≤ e.2) && decide (e.2 < 2 ^ 31))

/-- R159, R163: a primitive touches a tile, and its fragments lie in 16 bits, with at most eight samples. -/
def PrimWork.wellFormed (w : PrimWork) : Bool :=
  decide (1 ≤ w.tiles) && w.frags.all (fun f => decide (f.x < 65536) && decide (f.y < 65536) && decide (f.sample.getD 0 < 8)
    && decide (f.cover < 256))

/-- The primitives of a draw. -/
def DrawWork.wellFormed (w : DrawWork) : Bool := w.prims.all PrimWork.wellFormed

/-- The operands of a command. -/
def Instr.wellFormed : Instr → Bool
  | .islandFirmwareCheck fw | .tartalCheck fw => fw.wellFormed
  -- sixteen sensors (R392)
  | .sensorRead temps => decide (temps.length = 16)
  -- 32 channels (R247)
  | .dramBootTraining chans => decide (chans.length = 32)
  | .ltcFrame _ f => f.wellFormed
  -- 48-bit addresses (R20)
  | .splitLowWordRead _ _ addr bytes | .registerWrite _ _ addr bytes _ => decide (addr < 2 ^ 48) && decide (1 ≤ bytes) && decide (bytes ≤ 8)
  | .hello _ h _ _ _ | .key _ h _ _ _ _ | .finish _ h _ | .rekey _ h | .enum _ h _ | .heartbeat _ h | .ringFault _ h _
  | .ringHealed _ h _ _ | .syncRx _ h _ | .pdelayMessage _ h _ => h.wellFormed
  | .topo _ h links => h.wellFormed && topoWellFormed links
  -- 62 bytes of state (R130)
  | .indication _ h _ _ _ body => h.wellFormed && decide (body.length ≤ 62)
  | .data _ h m => h.wellFormed && m.wellFormed
  | .reply _ h m => h.wellFormed && m.wellFormed
  -- frames of at most 1,518 bytes with 52 of overhead (R121, R124)
  | .bulkData _ h _ body => h.wellFormed && decide (body.length ≤ 1466)
  | .linkAck _ h ctr => h.wellFormed && decide (ctr < 2 ^ 64)
  | .linkRetryTimer _ ctr => decide (ctr < 2 ^ 64)
  | .announce _ h priority _ hopsToIt => h.wellFormed && decide (priority < 256) && decide (hopsToIt < 256)
  | .draw _ w | .drawIndexed _ w => w.wellFormed
  | .drawIndirect _ w | .drawIndexedIndirect _ w => w.all DrawWork.wellFormed
  -- the mailbox's argument fields (R244, R276)
  | .glzEdit _ _ _ out index offset bytes =>
    decide (out < 256) && decide (index < 65536) && decide (offset < 256) && decide (bytes.length < 256)
  | .glzRead _ _ out index => decide (out < 256) && decide (index < 65536)
  | .rngRead _ _ count => decide (count < 256)
  | .seal _ _ plain => decide (plain.length < 256)
  | .unseal _ _ sealed => decide (sealed.length < 256)
  | .dramRequest _ write _ len bytes _ => if write then decide (bytes.length = len) else bytes.isEmpty
  | .cacheError _ _ _ readers _ => decide readers.Nodup
  -- the length field of 32 bits (R299)
  | .restore _ _ container => decide (container.length < 2 ^ 32)
  -- eight frequencies (R323), up to 72 rows and 128 columns (R327)
  | .touchFrame _ noise codes rows cols =>
    decide (noise.length = 8) && codes.all CodeRuns.wellFormed && decide (rows.length ≤ 72) && decide (cols.length ≤ 128)
  | .wakeGestureScan rows cols => decide (rows.length ≤ 72) && decide (cols.length ≤ 128)
  -- 257 bytes on the wire (R348)
  | .rdmResponse _ bytes _ => decide (bytes.length ≤ 257)
  -- at most 64 bytes read (R358)
  | .busTransferDone _ _ bytes => decide (bytes.length ≤ 64)
  | .sampleInstant obs => obs.wellFormed
  -- 48 samples of at most 8 channels, 24 bits each (R367)
  | .aes67Packet _ _ _ _ payload => decide (payload.length ≤ 1152)
  | .islPornAssert | .islPornRelease _ | .sysResetnFall | .sysResetnFilterExpiry | .sysResetnRise | .stuckResetRelease
  | .releaseTimerExpiry | .perstAssert _ | .fullResetRequest _ _ | .resetToLoader _ | .supplyOutOfRange _ | .supplyInRange
  | .mainDomainRelease _ | .recipeImageFetch _ | .signatureCheck | .admission | .push _ | .powerStateEntry _ _ _
  | .coreWfiTimeout | .entryCommit | .wakeSource _ | .exitToDay _ _ _ _ | .alwaysOnTimerMatch | .cueLookaheadWake
  | .ptpMessageRx _ | .genlockHPulse _ | .genlockVPulse _ | .mainsZeroCrossing | .sourceLoss _
  | .lockConditionMet | .lockLost | .axisSampleInstant _ | .ssiReadEnd _ _ | .coastDeadline _ | .axisPosRead _ _
  | .ltcTcRead _ | .cueArm _ | .cueModify _ _ _ | .cueCancel _ _ _ | .cueRead _ _ _ | .cueClr _ | .staging
  | .axisCueEvaluation _ | .launchWindow | .blockLock _ | .verifyResend _ | .verifyResponse _
  | .certificateCheck _ | .rekeyStart _ | .rekeyStall _ | .oldPhaseAcceptEnd _ | .heartbeatSend
  | .heartbeatMissed _ | .blockLockLoss _ | .expressSendSlot | .messageRepeat _ | .senderTimeout _ | .peerRecordRelease _
  | .fabSlotSend _ _ | .fabPeerRelease _ _ | .pdelayTimer | .syncSend | .announceSend
  | .unsupportedFrame _ _ | .doorbell _ _ _ | .nop _ | .call _ | .stateBind _ | .passBegin _ | .passEnd _
  | .constWrite _ | .dispatch _ _ | .dispatchIndirect _ _ | .barrier _
  | .cacheOp _ | .fenceWaitSt _ | .fenceWaitStRelease _ | .waitValue _ | .waitValueSatisfied _
  | .writeValue _ | .signal _ | .layerSubmit _ | .gfxCtxAlloc _ _ _ | .ctxFreeze _ _ | .ctxResume _ _
  | .ctxDestroy _ _ | .sliceExpiry _ | .preemptionPoint _ | .yieldTimeout _ | .frameStart _ _ | .layerCommit _ _
  | .submission _ _ _ | .flush _ _ | .relPop _ _ | .warpBand _ _ | .cursorCopyDone _ | .outputEnable _ _ _
  | .applyTiming _ _ | .retrain _ _ | .hotPlug _ _ | .hotPlugLoss _ _ | .trainingDone _ _ | .trainingRetry _
  | .genlockReferenceLoss _ | .lineEnd _ _ | .outFrzClr _ _ | .checkpoint | .lockstepError | .pairSwitch
  | .pairSelfTest _ _ | .sramCorrectedError | .glzCommit _ _ _ | .mainAlive _ _ | .status _ _ | .dbgState _ _
  | .islMboxRxPop _ _ | .commitTakesEffect _ | .islandPass | .rendererReload _ _ | .mainAliveTimeout | .glazeStatusWord
  | .transactionComplete _ _ | .creditWindow | .rowIdleClose _ _ | .perBankRefresh _ _ _ | .retrainingPause _ _
  | .retrainRepeat _ _ | .version _ | .enter _ | .wcallReturn _ | .islCall _ | .dbgLower _ | .fenceQuery _
  | .partitionService _ _ | .mworldWrite _ _ _ | .lowerDebugEnable _ _ | .haltRequest _ | .ownershipRequest _ _ _
  | .ownershipRetry _ _ _ | .vfEnable _ _ | .virPortCfg _ _ _ | .create _ _ | .instFreeze _ _ | .instResume _ _ | .save _ _
  | .saveDone _ | .restoreDone _ | .destroy _ _ | .destroyDone _ | .flr _ | .flrDone _ | .guestMailboxGo _
  | .virMbRxPop _ _ | .virMbTxGo _ _ | .guestMailboxPop _ | .invalidation _ | .ttRootWrite _ _ _ | .invalidationDone _
  | .translatedRequest _ _ | .chStart _ _ | .dmaTimer _ _ | .dmaTrigPin _ _ | .descriptorComplete _ | .dmaPause _ _
  | .pauseDrained _ | .dmaResume _ _ | .crcData _ _ _ | .crcDataB _ _ _ | .crcInit _ _ | .crcCheck _ _ | .rebaseline _ _ | .touchFrameResult _
  | .controllerEnable _ _ _ | .tchReportHdrRead _ _ | .hapChFire _ _ _ _ | .hapStop _ _ | .clearFault _ _ | .driveSample _ _
  | .dmxCommitRegister _ _ | .dmxFetchDone _ | .dmxFrameEnd _ | .dmxRefresh _ | .dmxRxFrameEnd _ | .dmxRxInfoRead _ _
  | .rdmTransaction _ _ | .rdmDiscovery _ _ | .rdmStart _ | .rdmTimeout _ | .midiTx _ _ _ | .midiRxByte _ _ _ _
  | .midiRxRead _ _ | .ltcLoss _ _ | .ltcInTcRead _ _ | .ltcOutFrame _ | .faderConversion _ _ _ | .encoderTransition _ _ _ _
  | .encCountRead _ _ | .i2cTransfer _ _ | .spiTransfer _ _ | .gpioSetRegister _ _ _ | .gpioClr _ _ _ | .gpioEdge _ _ _ _
  | .usbOvercurrent _ | .silenceBlock _ | .gainWrite _ _ _ | .gainStepDeadline _ | .selectionWrite _ _ _ | .eqCommit _ _
  | .playerStart _ _ _ | .playerStop _ _ | .playerPrime _ _ _ | .counterWrap _ | .pmcResetAll _ | .preciseSample _ _
  | .bwWindowClose | .perstDeassert _ | .tdmBitClockStop _ | .tdmBitClockRuns _ | .dmxRxSlot _ _ _ _ => true

end Sys2Proof
end

