-- ==== Sys2Proof/Tests/Slice0.lean ====
section
/-! SUPPORT. Own tests: what WellFormed refuses, the spec's worked examples, single steps on small states, and for every statement
with hypotheses a theorem that they can be met together, one witness to each clause. -/

namespace Sys2Proof

set_option maxRecDepth 4000
set_option Elab.async false
set_option linter.unreachableTactic false
set_option linter.unusedTactic false
set_option linter.unnecessarySeqFocus false

open Machine

/-! ### Small states -/

/-- A section whose listed bytes are set and all others 0. -/
def bytesOf (l : List (Nat × Nat)) : List Byte :=
  (List.range ((l.map (·.1)).foldl max 0 + 1)).map (fun i => BitVec.ofNat 8 ((lookup l i).getD 0))

/-- A recipe of the sections listed. -/
def recipeOf (l : List (Nat × List (Nat × Nat))) : Recipe := ⟨0, l.map (fun e => (e.1, 0, bytesOf e.2))⟩

/-- The main domain runs in Day, and the island runs its firmware. -/
def day : State :=
  { State.reset with
    dom := { State.reset.dom with porn := true, island := .running, mainUp := true, bridgeOpen := true }
    isl := { State.reset.isl with firmware := true } }

/-- A recipe is admitted. -/
def admitted (l : List (Nat × List (Nat × Nat))) : State :=
  State.fset { day with rcp := { day.rcp with admitted := some (recipeOf l), signed := some (recipeOf l) } }
    F.SYS_RCP_STATUS.state rcpAdmitted

/-- In another power state. -/
def Machine.State.inPower (s : State) (n : Nat) : State := { s with pwr := { s.pwr with state := n } }

/-- A firmware image of interface 1, which accepts 0 to 9. -/
def fw : FwImage := ⟨0, [], [], [], 1, 0, 9, 0, 9⟩

/-- A recipe without partitions is loading, for interfaces up to hi. -/
def loading (hi : Nat) : State :=
  { day with
    dom := { day.dom with trained := true }
    rcp := { day.rcp with
      phase := .admitting, islandFw := some fw, tartalFw := some fw, loading := recipeOf [(2, [(0, 255), (3, hi), (5, 9)])] } }

/-- TIME follows a source of the recipe. -/
def timed (source state : Nat) : State :=
  (((admitted [(8, [(0, source), (2, 100), (4, 25), (8, 1), (12, 2), (14, 1), (15, 50)]), (10, [(280, 1)])]).fset
    F.TIME_STATUS.source source).fset F.TIME_STATUS.state state).fset F.TIME_STATUS.valid 1

/-- ST is valid and shows a value. -/
def Machine.State.atSt (s : State) (t : ST) : State :=
  State.fset { s with tim := { s.tim with st := t, islandCopy := t } } F.TIME_STATUS.valid 1

/-- Axis 0, read at SSI port 0, in a state. -/
def axisIn (state : Nat) (x : AxisState) : State :=
  (State.fset { admitted [(8, [(28, 1), (66, 25), (67, 2), (72, 1), (94, 1)]), (10, [(320, 1)])] with axes := [(0, x)] }
    F.AXIS_STATUS.state state)

/-- An LTC frame. -/
def ltcAt (h : Nat) (speed : Nat) : LtcFrame := ⟨h, 2, 3, 4, false, false, 7, speed, true⟩

/-- A cue entry of the manager: a key, an action, and flags. -/
def cueOf (key : BitVec 64) (action flags : Byte) : CueEntry := ⟨key, 0, 0, 10, action, 0, flags, 0, 3, 1⟩

/-- The entry written to the manager's window. -/
def Machine.State.asks (s : State) (e : CueEntry) : State :=
  (List.range 8).foldl (fun s k => s.put .CUE_ENTRY (wordAt e.words k) 0 k) s

/-- The entry written to window n. -/
def Machine.State.asksAt (s : State) (n : Nat) (e : CueEntry) : State :=
  (List.range 8).foldl (fun s k => s.put .CUE_ENTRY (wordAt e.words k) n k) s

/-- A cue in a slot. -/
def Machine.State.cueIn (s : State) (n : Nat) (e : CueEntry) : State := s.putCue n ⟨e, false, e.key, e.key, false, false, false⟩

/-- FAB runs with port 0 in a state, mode 1. -/
def fabAt (state : Nat) : State :=
  ((State.fset { admitted [(9, [(0, 5), (2, 1), (4, 1), (8, 1), (5, 0), (9, 0), (36, 9), (38, 255), (39, 255), (40, 255), (41, 255), (42, 255), (43, 255), (144, 1)])] with
      fab := { State.reset.fab with enabled := true } } F.FAB_PORT_STATUS.state state).fset F.FAB_STATUS.secure 1).put .FAB_CTRL 3

/-- FAB runs in mode 0, so that no tag is checked. -/
def fabOpen (state : Nat) : State :=
  State.fset { admitted [(9, [(0, 5), (2, 1), (4, 1), (8, 1), (5, 0), (9, 0), (36, 9), (38, 255), (39, 255), (40, 255), (41, 255),
      (42, 255), (43, 255), (144, 1), (13, 255), (17, 255), (21, 255), (25, 255), (29, 255), (33, 255)])] with
    fab := { State.reset.fab with enabled := true } } F.FAB_PORT_STATUS.state state 0 |>.put .FAB_CTRL 3

/-- A port's progress, changed. -/
def Machine.State.portIs (s : State) (f : PortState → PortState) : State := s.updPort 0 f

/-- A frame header from star 9 for star 5. -/
def hdr (ctr : Nat) (resent : Bool) : FabHdr := ⟨5, false, 9, false, 0, false, ctr, 0, resent⟩

/-- This star is number 5. -/
def Machine.State.isStar5 (s : State) : State := (s.fset F.FAB_STATUS.star 5).fset F.FAB_STATUS.numbered 1

/-- The bytes of 32-bit words from an address, those that are not 0. -/
def cells (a : Nat) (ws : List Nat) : List (Nat × Byte) :=
  ((List.range (4 * ws.length)).map (fun k => (a + k, BitVec.ofNat 8 (ws.getD (k / 4) 0 / 2 ^ (8 * (k % 4)) % 256)))).filter
    (fun e => e.2 != 0)

/-- The first address of DRAM. -/
abbrev D : Nat := 0x800000000

/-- 1 GiB of DRAM on every channel. -/
def Machine.State.withDram (s : State) : State :=
  ((s.fset F.MEM_CAPACITY.usable_mib 1024).put .MEM_CHAN_ACTIVE 0xFFFFFFFF).fset F.MEM_STATUS.map_set 0

/-- Raster context 2 of an owner in Day, the dwords listed in its ring at the start of DRAM, 4 cores of one cluster, free chunks. -/
def ring (owner state : Nat) (ws : List Nat) : State :=
  let s := ((admitted ([(6, [(0, 0)]), (3, [(8, 2)])] ++ (if 64 ≤ owner then [(4, [(4, 1), (20, 64), (25, owner - 64)])] else []))).fset
    F.CTX_CFG.owner owner 2).fset F.CTX_STATE.state state 2
  let s := (((s.fset F.CTX_TAIL.index ws.length 2).fset F.CTX_RING_SIZE.log2_dwords 10 2).put .CTX_RING_HI 8 2).withDram
  { (s.fset F.GFX_BIN_FREE.chunks 1000).fset F.CTX_CFG.max_cores 4 2 with
    ram := cells D ws
    gfx := ⟨[], [2], (List.range 4).map (fun k => (k, some ⟨2, false⟩)), []⟩ }

/-- The same, the context running. -/
abbrev rings (ws : List Nat) : State := ring 0 ctxRunning ws

/-- The hidden part of raster context 2, changed. -/
def Machine.State.ctxIs (s : State) (f : CtxState → CtxState) : State := s.setCtx 2 (f (s.ctx 2))

/-- Bytes of memory. -/
def Machine.State.holds (s : State) (l : List (Nat × Byte)) : State := { s with ram := s.ram ++ l }

/-- A pass descriptor of a 64 × 64 area without attachments, binned. -/
def descCells : List (Nat × Byte) := cells (D + 0x200) [0x10001, 0, 0x400040]

/-- A compute container of 80 bytes: 40 registers, 4 KiB of local memory, workgroups of 8 × 4. -/
def container : List Nat :=
  [0x48535644, 0x20001, 0x28, 0x1000, 0x40008, 0x10001, 0x50, 0x56c82cd8, 0, 0, 0, 0, 0, 0, 0, 0, 1, 0, 0x50]

/-- A compute pipeline at 0x200 with its container at 0x300. -/
def computeCells : List (Nat × Byte) := cells (D + 0x200) [0, 0, 0, 0, 0x300, 8, 0, 0, 0, 1] ++ cells (D + 0x300) container

/-- A pass in progress. -/
def passIn (d : List Byte) : PassState := ⟨d, false, 0, false, false, false, 3, 9, 0, 16, 16, 0, 1000, false, 0, [], []⟩

/-- A graphics pipeline of triangle lists, with a sample count. -/
def trianglePipe (samples : Nat) : List Byte := bytesOf [(1, 3), (4, 8), (24, 3), (36, samples)]

/-- A draw of three primitives without fragments. -/
def threePrims : DrawWork := ⟨List.replicate 3 ⟨1, []⟩, []⟩

/-- The body of the packet that raster context 2 is about to run, and the state after its fetch. -/
def bodyAt (s : State) : List W32 := ((packetAt s 2).map (·.2.1)).getD []
def fetched (s : State) : State := ((packetAt s 2).map (·.2.2)).getD s

/-- What raster context 2 reads in memory. -/
def rasterReads (s : State) (a n : Nat) : Fetched := (fetched s).gfxFetch 2 a n

/-- An OUT section with output 2 on: 1,000 × 700 in 1,200 × 750 at 54 MHz, locked to ST. -/
def outSec : List (Nat × Nat) :=
  [(160, 1), (162, 1), (163, 4), (164, 6), (167, 1), (176, 0xE8), (177, 3), (178, 50), (180, 50), (182, 100), (184, 0xBC), (185, 2),
   (186, 10), (188, 5), (190, 35), (192, 0xF0), (193, 0xD2), (200, 0xD0), (201, 7), (202, 0xD0), (203, 7), (204, 0xA0), (205, 0x86),
   (206, 1), (208, 0x61), (209, 0xEA)]

/-- A LAYER section: layer 9 on output 2, layer 10 on output 2 and axis 0. -/
def layerSec : List (Nat × Nat) := [(0, 2), (144, 2), (147, 255), (152, 1), (160, 2), (168, 1)]

/-- Output 2 in a lock and a link state, its timing in force. -/
def outAt (lock link : Nat) : State :=
  let s := admitted [(5, outSec), (6, layerSec), (8, [(28, 1), (66, 25), (67, 2), (72, 1), (94, 1)])]
  let s := ((s.loadTimingRegs s.tailRecipe 2).fset F.OUT_STATUS.lock lock 2).fset F.OUT_STATUS.link link 2
  s.setOut 2 { OutState.initial with timing := s.tailRecipe.bootTiming 2 }

/-- The hidden part of output 2, changed. -/
def Machine.State.outIs (s : State) (f : OutState → OutState) : State := s.setOut 2 (f (s.out 2))

/-- The hidden part of a layer, changed. -/
def Machine.State.layerIs (s : State) (n : Nat) (f : LayerState → LayerState) : State := s.setLayer n (f (s.layer n))

/-- A frame of a layer. -/
def frameOf (tag : BitVec 16) (nb da : ST) : QFrame := ⟨tag, 0x1000000, nb, da, true, none, false⟩

/-- The glaze of output 2, changed. -/
def Machine.State.glazeIs (s : State) (f : GlazeOut → GlazeOut) : State := s.setGlz 2 (f (s.glz 2))

/-- A display list of one record. -/
def oneRecord : List Byte := bytesOf [(0, 1), (16, 1), (17, 1), (19, 4), (31, 9)]

/-- Glaze is mixed on output 2, renderer A active and B standby. -/
def mixing : State :=
  (((outAt lockLocked lnkUp).fset F.ISL_GLAZE_STATUS.page 1 2).fset F.ISL_GLAZE_STATUS.a_state 1 2).fset F.ISL_GLAZE_STATUS.b_state 2 2

/-- DRAM of 1 GiB on every channel. -/
def dramUp : State :=
  (({ day with mem := day.mem }.fset F.MEM_CAPACITY.usable_mib 1024).put .MEM_CHAN_ACTIVE 0xFFFFFFFF).fset F.MEM_STATUS.map_set 0

/-- A request of a DMA engine for the manager. -/
def byDma : Requester := ⟨20, 0, false, false, 11, .m, 0, false⟩

/-- A DRAM request. -/
def reqOf (id : Nat) (write : Bool) : DramReq := ⟨id, byDma, write, 0x800000000, 4, [1, 2, 3, 4], 0, 0, 0, 0, 0, 0, 0⟩

/-- One request in flight, link ECC on its channel. -/
def flyingOf (write : Bool) : State :=
  { dramUp.put .MEM_LINK_ECC 1 with mem := { dramUp.mem with nextId := 9, inFlight := [reqOf 7 write] } }

/-- Partition 0 has 64 KiB of system SRAM. -/
def sramUp : State := (admitted [(3, [(0, 1), (17, 2), (18, 1), (22, 1)])]).withDram

/-- A request of a DMA engine for partition 0. -/
def byPart : Requester := ⟨20, 64, false, false, 11, .m, 0, false⟩

/-- A read of a management core. -/
def byManagement : Requester := ⟨8, 255, false, false, 11, .m, 0, false⟩

/-- Core 1 of partition 0 runs in a world. -/
def coreAt (inner : Bool) (x : CoreState) : State :=
  let s := admitted [(3, [(0, 1), (17, 2), (18, 1), (22, 1)])]
  { s.put .CPX_STATUS (if inner then 0x20002 else 0x20000) with cpx := { s.cpx with cores := [(1, x)] } }

/-- A core about to make a call with three arguments. -/
def callOf (a0 a1 a2 : BitVec 64) : CoreState := { CoreState.initial with a := [a0, a1, a2, 0, 0, 0], pc := 0x1000 }

/-- A recipe with a pool for instances: 16 instances, 16 cue slots, 32 channels, 4 contexts, 64 MiB. -/
def pool : State := admitted [(3, [(2, 16), (4, 16), (6, 32), (8, 4)]), (4, [(4, 1), (20, 64), (25, 255)])]

/-- Port 0 offers instances 1 to 4. -/
def offered : State :=
  ((pool.fset F.VIR_PORT_CFG.total_vfs 4).fset F.VIR_PORT_CFG.first_instance 1).fset F.VIR_PORT_CFG.ap_log2 24

/-- A small shape. -/
def shapeOf : Shape := ⟨1, 1, 0, 0, 0, 0, [], 0, 2, 24⟩

/-- Instance 1 in a state. -/
def instAt (st : Nat) : State :=
  { (offered.setInst 1 st) with vir := { offered.vir with shapes := [(1, some shapeOf)] } }

/-- A context of instance 1, in a state. -/
def Machine.State.withCtx (s : State) (st : Nat) : State := (s.fset F.CTX_CFG.owner 1 3).fset F.CTX_STATE.state st 3

/-- Instance 1 runs, its pages 0 and 1 at 0x20000 of its grant; raster context 2 is its own, the dwords listed in its ring from an
index on. -/
def guestRing (head : Nat) (ws : List Nat) : State :=
  let s := (((instAt instActive).withDram.fset F.TT_ROOT_LO.enable 1 1).fset F.TT_ROOT_LO.root 0x10 1)
  let s := ((s.fset F.CTX_CFG.owner 1 2).fset F.CTX_STATE.state ctxRunning 2).fset F.CTX_HEAD.index head 2
  let s := (s.fset F.CTX_TAIL.index (head + ws.length) 2).fset F.CTX_RING_SIZE.log2_dwords 11 2
  { (s.fset F.GFX_BIN_FREE.chunks 1000).fset F.CTX_CFG.max_cores 4 2 with
    ram := cells (D + 0x10000) [0x11001] ++ cells (D + 0x11000) [0x12001] ++ cells (D + 0x12000) [0x13001]
      ++ cells (D + 0x13000) [0x20017, 0, 0x21017] ++ cells (D + 0x20000 + 4 * head) ws
    gfx := ⟨[], [2], (List.range 4).map (fun k => (k, some ⟨2, false⟩)), []⟩ }

/-- DMA channel 70 in a state, its engine busy or not; its descriptors stand at the start of DRAM. -/
def chanAt (st busy : Nat) : State :=
  ((((admitted [(10, [(2, 1), (528, 0xD4), (529, 1), (530, 2)])]).withDram.fset F.CH_STATUS.state st 70).fset F.ENG_STATUS.busy busy 4).put
    .CH_BASE_LO 0 70).put .CH_BASE_HI 8 70

/-- A descriptor of one byte: ctrl, and where it comes from. -/
def descOf (ctrl0 ctrl1 srcHi : Nat) : List Byte :=
  bytesOf [(0, ctrl0), (1, ctrl1), (4, 1), (11, 1), (12, srcHi), (16, 16), (20, 8), (24, 1), (63, 0)]

/-- The descriptor of channel 70 in progress on engine 4. -/
def moving (d : List Byte) : State :=
  ((chanAt chRunning 1).fset F.ENG_STATUS.channel 6 4).setChan 70 ⟨1, true, false, d, true⟩

/-- Touch controller 0 of one node is enabled, its frame at 0 scanned with a finger, the baseline of its node 1,000, region 3
over it; the wake gesture is given. -/
def touchAs (gesture : Nat) : State :=
  let s := (admitted [(12, [(0, 1), (1, 0), (2, gesture), (3, 0), (4, 1), (6, 1), (7, 3), (32, 1), (33, 1), (34, 1), (40, 100), (224, 0),
    (225, 3), (230, 255), (232, 255)])]).atSt 4366666
  (s.fset F.TCH_CTRL.enable 1 0).setTc 0
    { TouchCtrl.initial with frames := 8, scans := [⟨0, 0, 0, 0, [], [⟨0, 0, 900⟩], [10], [10]⟩], baseM := [(0, 1000)] }

/-- The wake gesture is a swipe. -/
def touching : State := touchAs 2

/-- The hidden part of touch controller 0, changed. -/
def Machine.State.touchIs (s : State) (f : TouchCtrl → TouchCtrl) : State := s.setTc 0 (f (s.tc 0))

/-- The frame that was scanned. -/
def finger : TouchFrame := ⟨0, 0, 0, 0, [], [⟨0, 0, 900⟩], [10], [10]⟩

/-- In Night, at the moment of a self scan. -/
def asleep (gesture : Nat) : State := ((touchAs gesture).atSt 50000000).inPower 3

/-- Haptic channel 0 in a state: a waveform of 1 kHz, 3 cycles, 1 of overdrive and 1 of brake, a limit of 100 mA. -/
def hapAt (st : Nat) (x : HapCh) : State :=
  ((admitted [(13, [(0, 1), (2, 1), (16, 200), (18, 100), (272, 0xE8), (273, 3), (274, 3), (275, 1), (276, 64), (277, 1), (278, 64)])]).fset
    F.HAP_CH_STATUS.state st 0).setHap 0 x

/-- Show I/O: MIDI 0 on, LTC output 0 on at 25 fps, fader 0 and encoder 0 enabled, an I2C and an SPI bus, USB port 0, and
line 3 of GPIO bank 0 an input. -/
def ioSec : List (Nat × Nat) :=
  [(1, 1), (2, 1), (264, 1), (280, 1), (281, 1), (288, 1), (289, 1), (296, 1), (302, 192), (303, 15), (304, 100), (306, 1), (312, 1),
   (448, 1), (456, 2), (459, 1), (528, 3), (530, 1), (531, 0)]

/-- The I/O section, admitted. -/
def showIo : State := ((admitted [(10, ioSec)]).withDram).atSt 5000

/-- DMX port 0 in a mode and a state, a buffer of four slots at the start of DRAM. -/
def dmxAt (mode st : Nat) (x : DmxPort) : State :=
  ((((showIo.fset F.DMX_CFG.mode mode 0).fset F.DMX_CFG.slot_count 4 0).fset F.DMX_STATUS.state st 0).put .DMX_BUF_HI 8 0).setDmx
    0 x

/-- The clock stands at a tick. -/
def Machine.State.atTick (s : State) (t : Nat) : State := { s with tim := { s.tim with ticks := t } }

/-- DMX port 0 receives a frame that began at the ST 9, some bytes of it stored. -/
def dmxHears (l : List Byte) : State := dmxAt modeRx dmxIdle { DmxPort.initial with rxBreak := some 9, rxBytes := l }

/-- DMX port 0 in mode RDM, a request of 24 bytes. -/
def rdmAt (x : DmxPort) : State := ((dmxAt modeRdm dmxIdle x).fset F.DMX_RDM_LEN.msg_len 24 0).put .DMX_RDM_ADDR_HI 8 0

/-- A discovery response of the UID 0. -/
def discovered : List Byte :=
  0xAA :: (List.replicate 6 ([0xAA, 0x55] : List Byte)).flatten ++ [0xAF, 0x55, 0xFA, 0xFF]

/-- Audio runs at 48 kHz, 1 ms after the grid began: receive stream 0, port 0 an output of 8 channels with a quiet level,
bus 0 slot 0 may take source 1. -/
def hearing : State :=
  let s := (admitted [(11, [(1, 1), (16, 1), (18, 16), (19, 1), (80, 2)])]).withDram.atSt 1000000
  ((({ s with aud := { s.aud with running := true, instant := 47 } }.fset F.AES_CFG.enable 1 0).put .AES_LINK_OFFSET 1000000 0).fset
    F.CLIP_COUNT.entries 3).put .CLIP_TABLE_HI 8

/-- Player 0, changed. -/
def Machine.State.playerIs (s : State) (x : Player) : State := s.setPlayer 0 x

/-- A gain of a bus that waits until a moment. -/
def Machine.State.gainWaits (s : State) (g : BitVec 16) (t : ST) : State :=
  { s with aud := { s.aud with pendGains := [⟨.bus 2, g, t⟩] } }

/-- Counter 3 counts, at a value. -/
def counting (hi : Nat) (lo : W32) : State := ((day.fset F.PMC_SEL.enable 1 3).fset F.PMC_VAL_HI.count hi 3).put .PMC_VAL_LO lo 3

/-- Core 1 runs and is sampled into a ring of 16 records in DRAM, the next one w, read up to r. -/
def sampling (w r : Nat) : State :=
  let s := (coreAt false CoreState.initial).withDram
  (((((s.fset F.CPX_DBG_EN.outer_noninv 1).fset F.PSAMP_CTRL.enable 1).fset F.PSAMP_CTRL.core_mask 2).put .PSAMP_BASE_HI 8).fset
    F.PSAMP_WR.wr w).fset F.PSAMP_RD.rd r

/-- What one load shows to the sampling unit. -/
def loadRec : SampleRec := ⟨0x1000, 0x2008, 0x13, 7, true, false, false⟩

/-- The registers of SIO are an inner region. -/
def fencedOff : State := (day.put .CPX_FENCE_REGION_BASE 0x1800 0).put .CPX_FENCE_REGION_SIZE 64 0

/-- What a read before latched for the manager: the high word of ST. -/
def stLatched : State := { day with shadows := [⟨.manager, .TIME_ST_HI, 0, 7⟩] }

/-- Layer 10 of output 2, warped by axis 0. -/
def warping : State :=
  let s := (outAt lockLocked lnkUp).layerIs 10 (fun x =>
    { x with current := some (frameOf 1 5 9), live := [1, 5] ++ List.replicate 17 0 ++ [0x7FFFFFFF, 0, 0] })
  { s with axes := [(0, ⟨[(500, 3)], some 3, 0, none, 900, some 600, 0⟩)] }

/-- An access reaches its bytes when each of them does. -/
theorem reaches_of_all {s : State} {e : Engine} {o a n : Nat} {w : Bool}
    (h : (List.range n).all (fun k => decide (s.land e o (a + k) w = (.ram (a + k), s))) = true) : Reaches s e o a n w := by
  intro x h1 h2
  have h3 := List.all_eq_true.mp h (x - a) (List.mem_range.mpr (by omega))
  rw [Nat.add_sub_cancel' h1] at h3
  exact of_decide_eq_true h3

/-- An output with a cursor on layer 7. -/
def cursored : State :=
  let s := outAt lockLocked lnkUp
  { s with rcp := { s.rcp with admitted := some (recipeOf [(5, outSec), (6, (112, 2) :: (120, 1) :: layerSec), (8, [(28, 1)])]) } }

/-- Outputs 0 and 1 are a locked pair. -/
def paired : State :=
  let sec := [(0, 1), (2, 1), (3, 4), (4, 6), (6, 1), (7, 1), (80, 1), (82, 1), (83, 4), (84, 6), (86, 1), (87, 1)]
  let t := fun o => (outSec.filter (fun e => 176 ≤ e.1)).map (fun e => (e.1 - 160 + 80 * o, e.2))
  let s := admitted [(5, sec ++ t 0 ++ t 1), (6, [(0, 2)])]
  (s.loadTimingRegs s.tailRecipe 0).loadTimingRegs s.tailRecipe 1

/-- Output 2 is OpenLDI. -/
def ldi : State := admitted [(5, outSec.map (fun e => if e.1 = 162 then (162, 5) else e))]

/-- Output 2 with a list to edit and one to show in both renderers' copies. -/
def listed (back front : List Byte) : State :=
  mixing.glazeIs (fun x => x.onCopies (fun c => { c with back := ⟨back, []⟩, front := ⟨front, []⟩ }))

/-- A line of output 2 without faults. -/
def lineOf (n : Nat) : LineObs := ⟨n, [], false, false, [], [], []⟩

/-- A list of one rectangle over a whole page. -/
def opaqueRect : List Byte := bytesOf [(0, 1), (16, 1), (17, 1), (19, 1), (22, 0xBB), (23, 2), (26, 0xE7), (27, 3), (31, 0)]

/-- The same with opaque glaze everywhere, one column wide, the substitute background below. -/
def narrow : State := (((listed [] opaqueRect).fset F.OUT_STATUS.substitute 1 2).glazeIs (fun x => x.onCopies (fun c =>
  { c with assets := bytesOf [(4, 16), (4112, 255), (4113, 3), (4116, 255), (4119, 0)] }))).outIs (fun x => { x with timing := { x.timing with hActive := 1 } })

/-- Line 5 of slice 5 of the directory, as held. -/
def lineHeld (d : DirLine) : State := { day with cpx := { day.cpx with lines := [d], pointers := [(5, 5)] } }

/-- A block of port 0 has ended with a peak above both levels of silence; its amplifier is on or off. -/
def loudly (amp : Nat) : State :=
  let s := ((hearing.atSt 10000000).fset F.SIL_CFG.threshold 3 0).fset F.SIL_STATUS.amp_en amp 0
  { s with aud := { s.aud with peaks := [(0, gainFactor (-300) + 1)] } }

/-- A factor is not negative. -/
theorem gainFactor_nonneg (g : Int) : 0 ≤ gainFactor g := by
  unfold gainFactor
  split
  · exact zero_le_one
  · split
    · exact le_refl 0
    · exact div_nonneg (Nat.cast_nonneg _) (Nat.cast_nonneg _)

/-- A port is loud when its peak lies above both levels. -/
theorem loud_of {s : State} {p : Nat} {g : Rat} (h0 : s.silenceLevel p 0 = g) (h3 : s.silenceLevel p 3 = 1)
    (hp : s.portPeak p = g + 1) (hg : 0 ≤ g) : s.quietBlock p = false ∧ s.loudBlock p = true := by
  constructor
  · exact decide_eq_false (by rw [h0, hp]; exact not_lt.mpr (le_add_of_nonneg_right zero_le_one))
  · exact decide_eq_true (by rw [h3, hp]; exact le_add_of_nonneg_left hg)

theorem loudly_loud (amp : Nat) (ht : (loudly amp).fget F.SIL_CFG.threshold 0 = 3) :
    (loudly amp).quietBlock 0 = false ∧ (loudly amp).loudBlock 0 = true :=
  loud_of (by unfold State.silenceLevel; rw [ht]; rfl) (by unfold State.silenceLevel; rw [ht]; rfl) rfl (gainFactor_nonneg _)

/-! ### What WellFormed refuses: one ill-formed command for each check -/

theorem test_firmware_key : (Instr.islandFirmwareCheck ⟨0, [], List.replicate 96 0, List.replicate 96 0, 1, 0, 9, 0, 9⟩).wellFormed = false := by decide
theorem test_firmware_signature : (Instr.tartalCheck ⟨0, [], List.replicate 97 0, List.replicate 97 0, 1, 0, 9, 0, 9⟩).wellFormed = false := by decide
theorem test_firmware_iface : (Instr.islandFirmwareCheck ⟨0, [], List.replicate 97 0, List.replicate 96 0, 256, 0, 9, 0, 9⟩).wellFormed = false := by decide
theorem test_firmware_recipeMin : (Instr.islandFirmwareCheck ⟨0, [], List.replicate 97 0, List.replicate 96 0, 1, 256, 9, 0, 9⟩).wellFormed = false := by decide
theorem test_firmware_recipeMax : (Instr.islandFirmwareCheck ⟨0, [], List.replicate 97 0, List.replicate 96 0, 1, 0, 256, 0, 9⟩).wellFormed = false := by decide
theorem test_firmware_otherMin : (Instr.islandFirmwareCheck ⟨0, [], List.replicate 97 0, List.replicate 96 0, 1, 0, 9, 256, 9⟩).wellFormed = false := by decide
theorem test_firmware_otherMax : (Instr.islandFirmwareCheck ⟨0, [], List.replicate 97 0, List.replicate 96 0, 1, 0, 9, 0, 256⟩).wellFormed = false := by decide
theorem test_firmware_whole : (Instr.islandFirmwareCheck ⟨0, [], List.replicate 97 0, List.replicate 96 0, 1, 0, 9, 0, 9⟩).wellFormed = true := by decide
theorem test_fifteen_sensors : (Instr.sensorRead (List.replicate 15 40)).wellFormed = false := by decide
theorem test_no_channels : (Instr.dramBootTraining []).wellFormed = false := by decide
theorem test_ltc_hours : (Instr.ltcFrame 0 (ltcAt 24 100)).wellFormed = false := by decide
theorem test_ltc_minutes : (Instr.ltcFrame 0 { ltcAt 1 100 with minutes := 60 }).wellFormed = false := by decide
theorem test_ltc_seconds : (Instr.ltcFrame 0 { ltcAt 1 100 with seconds := 60 }).wellFormed = false := by decide
theorem test_ltc_frames : (Instr.ltcFrame 0 { ltcAt 1 100 with frames := 30 }).wellFormed = false := by decide
theorem test_read_beyond_48_bits : (Instr.splitLowWordRead .manager .main (2 ^ 48) 4).wellFormed = false := by decide
theorem test_write_of_no_bytes : (Instr.registerWrite .manager .main 0 0 0).wellFormed = false := by decide
theorem test_write_of_nine_bytes : (Instr.registerWrite .manager .main 0 9 0).wellFormed = false := by decide
theorem test_hops : (Instr.heartbeat 0 { hdr 1 false with hops := 256 }).wellFormed = false := by decide
theorem test_counter : (Instr.rekey 0 (hdr (2 ^ 64) false)).wellFormed = false := by decide
theorem test_topo_port_twice : (Instr.topo 0 (hdr 1 false) [⟨1, 9⟩, ⟨1, 10⟩]).wellFormed = false := by decide
theorem test_indication_body : (Instr.indication 0 (hdr 1 false) 1 1 0 (List.replicate 63 0)).wellFormed = false := by decide
theorem test_data_bytes : (Instr.data 0 (hdr 1 false) ⟨1, 1, false, .deliver, 0, 0, List.replicate 41 0⟩).wellFormed = false := by decide
theorem test_reply_outcome_0 : (Instr.reply 0 (hdr 1 false) ⟨1, 1, 0, 0, 0⟩).wellFormed = false := by decide
theorem test_reply_outcome_4 : (Instr.reply 0 (hdr 1 false) ⟨1, 1, 4, 0, 0⟩).wellFormed = false := by decide
theorem test_bulk_body : (Instr.bulkData 0 (hdr 1 false) 0 (List.replicate 1467 0)).wellFormed = false := by decide +kernel
theorem test_acked_counter : (Instr.linkAck 0 (hdr 1 false) (2 ^ 64)).wellFormed = false := by decide
theorem test_retried_counter : (Instr.linkRetryTimer 0 (2 ^ 64)).wellFormed = false := by decide
theorem test_announce_priority : (Instr.announce 0 (hdr 1 false) 256 9 0).wellFormed = false := by decide
theorem test_announce_hops : (Instr.announce 0 (hdr 1 false) 1 9 256).wellFormed = false := by decide
theorem test_primitive_without_tiles : (Instr.draw 0 ⟨[⟨0, []⟩], []⟩).wellFormed = false := by decide
theorem test_fragment_x : (Instr.drawIndexed 0 ⟨[⟨1, [⟨65536, 0, none, 1, none, []⟩]⟩], []⟩).wellFormed = false := by decide
theorem test_fragment_y : (Instr.drawIndirect 0 [⟨[⟨1, [⟨0, 65536, none, 1, none, []⟩]⟩], []⟩]).wellFormed = false := by decide
theorem test_fragment_sample : (Instr.draw 0 ⟨[⟨1, [⟨0, 0, some 8, 1, none, []⟩]⟩], []⟩).wellFormed = false := by decide
theorem test_fragment_cover : (Instr.draw 0 ⟨[⟨1, [⟨0, 0, none, 256, none, []⟩]⟩], []⟩).wellFormed = false := by decide
theorem test_glaze_edit_output : (Instr.glzEdit 0 1 false 256 0 0 []).wellFormed = false := by decide
theorem test_glaze_edit_index : (Instr.glzEdit 0 1 false 0 65536 0 []).wellFormed = false := by decide
theorem test_glaze_edit_offset : (Instr.glzEdit 0 1 false 0 0 256 []).wellFormed = false := by decide
theorem test_glaze_edit_length : (Instr.glzEdit 0 1 false 0 0 0 (List.replicate 256 0)).wellFormed = false := by decide
theorem test_glaze_read_output : (Instr.glzRead 0 1 256 0).wellFormed = false := by decide
theorem test_glaze_read_index : (Instr.glzRead 0 1 0 65536).wellFormed = false := by decide
theorem test_rng_count : (Instr.rngRead 0 1 256).wellFormed = false := by decide
theorem test_seal_length : (Instr.seal 0 1 (List.replicate 256 0)).wellFormed = false := by decide
theorem test_unseal_length : (Instr.unseal 0 1 (List.replicate 256 0)).wellFormed = false := by decide
theorem test_store_length : (Instr.dramRequest byDma true 0x800000000 4 [1] 0).wellFormed = false := by decide
theorem test_load_brings_bytes : (Instr.dramRequest byDma false 0x800000000 4 [1] 0).wellFormed = false := by decide
theorem test_readers_twice : (Instr.cacheError .l3 true 0x1000000 [1, 1] false).wellFormed = false := by decide
theorem test_eight_frequencies : (Instr.touchFrame 0 [1, 2, 3] [] [] []).wellFormed = false := by decide
theorem test_code_group : (Instr.touchFrame 0 (List.replicate 8 0) [⟨5, [[]]⟩] [] []).wellFormed = false := by decide
theorem test_code_without_run : (Instr.touchFrame 0 (List.replicate 8 0) [⟨0, []⟩] [] []).wellFormed = false := by decide
theorem test_code_receivers : (Instr.touchFrame 0 (List.replicate 8 0) [⟨0, [List.replicate 129 []]⟩] [] []).wellFormed = false := by decide
theorem test_code_chips : (Instr.touchFrame 0 (List.replicate 8 0) [⟨0, [[[(0, 0)]]]⟩] [] []).wellFormed = false := by decide
theorem test_self_rows : (Instr.touchFrame 0 (List.replicate 8 0) [] (List.replicate 73 0) []).wellFormed = false := by decide
theorem test_self_columns : (Instr.touchFrame 0 (List.replicate 8 0) [] [] (List.replicate 129 0)).wellFormed = false := by decide
theorem test_gesture_rows : (Instr.wakeGestureScan (List.replicate 73 0) []).wellFormed = false := by decide
theorem test_gesture_columns : (Instr.wakeGestureScan [] (List.replicate 129 0)).wellFormed = false := by decide
theorem test_rdm_length : (Instr.rdmResponse 0 (List.replicate 258 0) true).wellFormed = false := by decide
theorem test_bus_length : (Instr.busTransferDone 0 .complete (List.replicate 65 0)).wellFormed = false := by decide
theorem test_input_twice : (Instr.sampleInstant ⟨[(0, 1), (0, 2)], [], []⟩).wellFormed = false := by decide
theorem test_drift_twice : (Instr.sampleInstant ⟨[], [(0, true), (0, false)], []⟩).wellFormed = false := by decide
theorem test_player_twice : (Instr.sampleInstant ⟨[], [], [3, 3]⟩).wellFormed = false := by decide
theorem test_input_word : (Instr.sampleInstant ⟨[(0, 2 ^ 31)], [], []⟩).wellFormed = false := by decide
theorem test_input_word_negative : (Instr.sampleInstant ⟨[(0, -2 ^ 31 - 1)], [], []⟩).wellFormed = false := by decide
theorem test_packet_length : (Instr.aes67Packet 0 0 0 0 (List.replicate 1153 0)).wellFormed = false := by decide +kernel

/-! ### The spec's worked examples and tables -/

/-- The nine ASCII bytes "123456789". -/
def nineDigits : List Byte := [0x31, 0x32, 0x33, 0x34, 0x35, 0x36, 0x37, 0x38, 0x39]

/-- The check value of a parameter set: width, polynomial, initial value, reflection, final XOR. -/
def crcOf (w poly start : Nat) (refl : Bool) (xor : Nat) : Nat :=
  let r := nineDigits.foldl (crcFeedByte w poly refl) start
  (if refl then reflect w r else r) ^^^ xor

-- 14_dma_crc.md, the table of parameter sets
theorem test_crc_of_images : crc32 nineDigits = 0xCBF43926 := by decide +kernel
theorem test_crc32 : crcOf 32 0x04C11DB7 0xFFFFFFFF true 0xFFFFFFFF = 0xCBF43926 := by decide +kernel
theorem test_crc32c : crcOf 32 0x1EDC6F41 0xFFFFFFFF true 0xFFFFFFFF = 0xE3069283 := by decide +kernel
theorem test_crc16_ccitt_false : crcOf 16 0x1021 0xFFFF false 0 = 0x29B1 := by decide +kernel
theorem test_crc16_modbus : crcOf 16 0x8005 0xFFFF true 0 = 0x4B37 := by decide +kernel
theorem test_crc8_smbus : crcOf 8 0x07 0 false 0 = 0xF4 := by decide +kernel
theorem test_crc64_xz :
    crcOf 64 0x42F0E1EBA9EA3693 (2 ^ 64 - 1) true (2 ^ 64 - 1) = 0x995DC9BBDF1939FA := by decide +kernel

-- 11_memory.md, the example after R248
theorem test_spread : mapPlace 1 0x8D159A40 = ⟨13, 7, 2257⟩ := by decide +kernel
theorem test_linear : mapPlace 0 0x8D159A40 = ⟨26, 5, 2257⟩ := by decide +kernel

-- 07_raster.md, the example after R150
theorem test_resident_waves : residentWaves 90 = 10 := by decide +kernel

-- 08_composition.md, the example after R196: columns 16 to 44, bands 32 to 97
theorem test_skipped_segments : segRect (3840, 2160) (1000, 500, 2920, 1580) = some ⟨16, 44, 32, 97⟩ := by decide +kernel

-- 09_outputs.md, the example after R209: 16,666,666.67 ns
theorem test_frame_period :
    Timing.period32 ⟨3840, 176, 88, 296, 2160, 8, 10, 72, 594000, 0⟩ = 16666666 * 2 ^ 32 + 2 * 2 ^ 32 / 3 := by decide +kernel

-- 12_cores_worlds.md, the example after R273
theorem test_wcall_word : isWcall 0x0120000B = true ∧ isWcall 0x0120100B = false ∧ isCustom0 0x0120100B = true := by decide +kernel

/-- The axis entry of the revolving stage: 2^20 counts, 360 degrees. -/
def revolve : List Byte := bytesOf [(6, 0x10), (8, 0x00), (9, 0x80), (10, 0x16), (31, 0)]

-- 04_show_time.md, the revolving stage, step 1: raw 253,952 is 87.1875 degrees
theorem test_revolve_position : positionOf revolve (unwrap (axModulus revolve) none 253952) = 0x5730000000 := by decide +kernel
-- R93: across the wrap the shorter way
theorem test_revolve_wraps : unwrap (axModulus revolve) (some 1048570) 4 = 1048580 := by decide +kernel

-- 08_composition.md, the worked selection: frames B to E wait at FS1, E wins, B, C and D are skipped, A is displayed
def selecting : State :=
  ((outAt lockLocked lnkUp).atSt 4000020000000).layerIs 9 (fun x =>
    { x with
      current := some (frameOf 1 0 0)
      queue := [frameOf 2 4000015000000 4000021000000, frameOf 3 4000019000000 4000040000000, frameOf 4 4000045000000 0,
        frameOf 5 4000020000000 4000035000000] })

/-- What a command leaves, for a test that names its fields; the state itself where the command is refused. -/
def after (c : Instr) (s : State) : State :=
  match exec c s with
  | .next t => t
  | _ => s

theorem test_selection_shows_the_last :
    ((after (.frameStart 2 4000020000000) selecting).layer 9).current.map (·.tag) = some 5 := by decide +kernel
theorem test_selection_releases_four :
    (((after (.frameStart 2 4000020000000) selecting).layer 9).rel.map (fun r => (r.tag.toNat, r.status))
      = [(2, relSkipped), (3, relSkipped), (4, relSkipped), (1, relDisplayed)])
    ∧ (after (.frameStart 2 4000020000000) selecting).fget F.CNT_SKIPPED.count 9 = 3 := by decide +kernel

/-! ### Single steps -/

-- R6: a write that is not 32 bits wide gets an error response and stores nothing
theorem test_wide_write : (after (.registerWrite .manager .main 0x10000000 8 7) day).sent = [.busError .manager]
    ∧ (after (.registerWrite .manager .main 0x10000000 8 7) day).regs = day.regs := by decide +kernel

-- R321: a mismatch clears match and raises EV_CRC_MISMATCH of the channel, 312 + n
theorem test_crc_mismatch :
    (after (.crcCheck .manager 2) (day.put .CRC_EXPECT 1 2 0)).hasBit .EVT_STICKY (314 % 32) 0 (314 / 32) = true := by decide +kernel

-- R319, R320: after "12345678", the write of "9" to CRC_DATA_B gives the CRC-32 check value
def eightFed : State :=
  let s := (((day.fset F.CRC_CFG.w 31 2).fset F.CRC_CFG.refin 1 2).fset F.CRC_CFG.refout 1 2).put .CRC_POLY 0x04C11DB7 2
  let s := ((s.put .CRC_INIT 0xFFFFFFFF 2).put .CRC_XOR 0xFFFFFFFF 2).crcLoad 2
  s.crcFeed 2 (nineDigits.take 8)

theorem test_crc_by_registers : (after (.crcDataB .manager 2 0x39) eightFed).crcResult 2 = 0xCBF43926 := by decide +kernel
-- R320: a busy channel loses the feed and shows it
theorem test_crc_busy : (after (.crcDataB .manager 2 0x39) (eightFed.fset F.CRC_STATUS.busy 1 2)).fget F.CRC_STATUS.feed_lost 2 = 1 := by
  decide +kernel

-- R355: both lines change at once: ENC_ERR_COUNT, and ENC_COUNT stays
theorem test_encoder_both_lines :
    let t := after (.encoderTransition 0 true true 50) (showIo.put .ENC_COUNT 7 0)
    t.fget F.ENC_ERR_COUNT.count 0 = 1 ∧ t.get .ENC_COUNT 0 = 7 := by decide +kernel
-- R390: a main supply out of range holds the main domain in reset
theorem test_supply : (after (.supplyOutOfRange .vddCore) day).up = false := by decide +kernel
-- R54: ISL_PORn low holds everything in reset
theorem test_porn : (after .islPornAssert day).up = false := by decide +kernel
-- the step on an empty queue idles
theorem test_idle_queue : (match step day with | .next t => t.pending | _ => [.staging]) = [] := by decide +kernel
theorem test_queue_order : (match step { day with pending := [.mainsZeroCrossing, .staging] } with | .next t => t.pending | _ => [])
    = [.staging] := by decide +kernel

-- R392: one sensor at 115 degrees holds the main domain in reset and drives THERM_TRIPn low; 114 does not
theorem test_too_hot : (after (.sensorRead (115 :: List.replicate 15 40)) day).up = false := by decide +kernel
theorem test_hot : (after (.sensorRead (114 :: List.replicate 15 40)) day).up = true := by decide +kernel
-- R108: a cue that is due within 100,000 ns is staged
theorem test_staging :
    ((after .staging ((day.atSt 5000000).cueIn 9 (cueOf 5099000 0 0))).cueAt 9).map (·.staged) = some true := by decide +kernel
theorem test_no_staging_yet :
    ((after .staging ((day.atSt 5000000).cueIn 9 (cueOf 5101000 0 0))).cueAt 9).map (·.staged) = some false := by decide +kernel

/-! ### The hypotheses of the statements can be met -/

/-- The hypotheses of ResetsAndIslandBoot can be met. -/
theorem witness_ResetsAndIslandBoot :
    (∃ (s : State) (_ : BitVec 3), s.dom.porn = false)
    ∧ (∃ (s : State) (_ : BitVec 3), s.dom.porn = true)
    ∧ (∃ (s : State) (_ : FwImage), s.dom.island = .booting ∧ s.pwr.state = 0)
    ∧ (∃ (s : State) (_ : FwImage), s.dom.island ≠ .booting)
    ∧ (∃ (s : State), s.dom.ignoring = false ∧ s.dom.island ≠ .inReset)
    ∧ (∃ (s : State), s.dom.ignoring = true)
    ∧ (∃ (s : State), s.dom.stuckArmed = true ∧ s.dom.resetnLow = true ∧ s.dom.filterArmed = false)
    ∧ (∃ (s : State), s.dom.stuckArmed = false)
    ∧ (∃ (s : State), s.dom.releaseArmed = true ∧ s.dom.resetnLow = false)
    ∧ (∃ (s : State), (s.dom.releaseArmed = false ∨ s.dom.resetnLow = true)) :=
  ⟨⟨State.reset, 0, by decide +kernel⟩,
   ⟨day, 0, by decide +kernel⟩,
   ⟨{ day with dom := { day.dom with island := .booting } }, fw, by decide +kernel⟩,
   ⟨day, fw, by decide +kernel⟩,
   ⟨day, by decide +kernel⟩,
   ⟨{ day with dom := { day.dom with ignoring := true } }, by decide +kernel⟩,
   ⟨{ day with dom := { day.dom with stuckArmed := true, resetnLow := true } }, by decide +kernel⟩,
   ⟨day, by decide +kernel⟩,
   ⟨{ day with dom := { day.dom with releaseArmed := true, ignoring := true } }, by decide +kernel⟩,
   ⟨day, by decide +kernel⟩⟩

/-- The hypotheses of MainDomainResets can be met. -/
theorem witness_MainDomainResets :
    (∃ (s : State), s.dom.filterArmed = true ∧ s.dom.resetnLow = true)
    ∧ (∃ (s : State), s.dom.island ≠ .inReset)
    ∧ (∃ (s : State) (a : Agent) (v : W32), (a = .manager ∨ a = .inner) ∧ s.awake = true ∧ F.SYS_RESET_CTRL.full.of v = 1 ∧
    F.SYS_RESET_CTRL.key.of v = 0xA5)
    ∧ (∃ (s : State) (a : Agent) (v : W32), (a = .manager ∨ a = .inner) ∧ s.awake = true ∧ (F.SYS_RESET_CTRL.full.of v ≠ 1 ∨
    F.SYS_RESET_CTRL.key.of v ≠ 0xA5))
    ∧ (∃ (s : State), s.awake = true)
    ∧ (∃ (s : State) (a : Agent) (_ : W32), (s.awake = false ∨ (a ≠ .manager ∧ a ≠ .inner)))
    ∧ (∃ (s : State) (a : Agent), (s.awake = false ∨ a ≠ .manager))
    ∧ (∃ (s : State) (_ : Supply), s.dom.island ≠ .inReset)
    ∧ (∃ (s : State) (l : List Int), s.dom.island ≠ .inReset ∧ ((∃ x ∈ l, 115 ≤ x)))
    ∧ (∃ (s : State) (p : Fin 4), p ≠ 0 ∧ s.dom.mainUp = true ∧ s.dom.island ≠ .inReset)
    ∧ (∃ (s : State) (p : Fin 4), p ≠ 0 ∧ s.dom.mainUp = false)
    ∧ (∃ (s : State) (l : List Int), s.dom.island ≠ .inReset ∧ l ≠ [] ∧ ((∀ x ∈ l, x ≤ 95)))
    ∧ (∃ (s : State) (_ : Bool), s.dom.mainUp = false ∧ s.dom.island = .running ∧ s.dom.resetnLow = false ∧
    s.dom.perst.contains 0 = false ∧ s.dom.suppliesOut = [] ∧ s.dom.thermalTrip = false ∧ s.pwr.state = 0)
    ∧ (∃ (s : State) (_ : Bool), (s.dom.suppliesOut ≠ [] ∨ s.dom.thermalTrip = true ∨ s.dom.perst.contains 0 = true ∨
    (s.dom.resetnLow = true ∧ s.dom.ignoring = false))) :=
  ⟨⟨{ day with dom := { day.dom with filterArmed := true, resetnLow := true } }, by decide +kernel⟩,
   ⟨day, by decide +kernel⟩,
   ⟨day, .inner, 0xA501#32, by decide +kernel⟩,
   ⟨day, .inner, 0xA401#32, by decide +kernel⟩,
   ⟨day, by decide +kernel⟩,
   ⟨day, .management, 0xA501#32, by decide +kernel⟩,
   ⟨day, .inner, by decide +kernel⟩,
   ⟨day, .vddq, by decide +kernel⟩,
   ⟨day, [20, 115], by decide +kernel⟩,
   ⟨day, 3, by decide +kernel⟩,
   ⟨State.reset, 3, by decide +kernel⟩,
   ⟨day, [-40, 95], by decide +kernel⟩,
   ⟨{ day with dom := { day.dom with mainUp := false } }, false, by decide +kernel⟩,
   ⟨{ day with dom := { day.dom with mainUp := false, perst := [0] } }, true, by decide +kernel⟩⟩

/-- The hypotheses of BootOfTheMainDomain can be met. -/
theorem witness_BootOfTheMainDomain :
    (∃ (s : State) (_ : FwImage), s.dom.mainUp = true ∧ s.dom.tartalChecked = false)
    ∧ (∃ (s : State) (_ : List ChanReport), s.dom.mainUp = true ∧ s.dom.trained = false ∧ (strapRate s.dom.ddrSel.toNat).1 ≠
    0)
    ∧ (∃ (s : State) (_ : List ChanReport), s.dom.mainUp = true ∧ s.dom.trained = false ∧ (strapRate s.dom.ddrSel.toNat).1 =
    0)
    ∧ (∃ (s : State) (_ : FwImage) (_ : List ChanReport), (s.dom.mainUp = false ∨ (s.dom.tartalChecked = true ∧
    s.dom.trained = true))) :=
  ⟨⟨day, fw, by decide +kernel⟩,
   ⟨{ day with dom := { day.dom with ddrSel := 1 } }, [⟨true, 1024, false⟩], by decide +kernel⟩,
   ⟨{ day with dom := { day.dom with ddrSel := 7 } }, [⟨true, 1024, false⟩], by decide +kernel⟩,
   ⟨State.reset, fw, [], by decide +kernel⟩⟩

/-- The hypotheses of RecipeLoad can be met. -/
theorem witness_RecipeLoad :
    (∃ (s : State) (_ : List Byte), s.awake = true ∧ s.rcp.phase = .fetch)
    ∧ (∃ (s : State) (_ : List Byte), s.rcp.phase = .idle ∧ s.readsFlash = true)
    ∧ (∃ (s : State), s.awake = true ∧ s.rcpState = rcpLoader ∧ s.flag F.SYS_RCP_STATUS.busy = false)
    ∧ (∃ (s : State), s.awake = true ∧ (s.rcpState ≠ rcpLoader ∨ s.flag F.SYS_RCP_STATUS.busy = true))
    ∧ (∃ (s : State), s.awake = true)
    ∧ (∃ (s : State) (a : Agent), (s.awake = false ∨ (a ≠ .manager ∧ a ≠ .inner)))
    ∧ (∃ (s : State), s.dom.mainUp = true ∧ s.rcp.phase = .sign)
    ∧ (∃ (s : State), s.dom.mainUp = true ∧ s.rcp.phase = .admitting ∧ s.dom.trained = true ∧ compatError s.rcp.loading
    s.fitted = none ∧ s.verdict s.rcp.loading ≠ 3 ∧ structureError s.rcp.loading s.fitted = none)
    ∧ (∃ (s : State) (e : LoadError), s.dom.mainUp = true ∧ s.rcp.phase = .admitting ∧ s.dom.trained = true ∧ compatError
    s.rcp.loading s.fitted = some e)
    ∧ (∃ (s : State), s.dom.mainUp = true ∧ s.rcp.phase = .admitting ∧ s.dom.trained = true ∧ compatError s.rcp.loading
    s.fitted = none ∧ s.verdict s.rcp.loading = 3)
    ∧ (∃ (s : State) (e : LoadError), s.dom.mainUp = true ∧ s.rcp.phase = .admitting ∧ s.dom.trained = true ∧ compatError
    s.rcp.loading s.fitted = none ∧ s.verdict s.rcp.loading ≠ 3 ∧ structureError s.rcp.loading s.fitted = some e) :=
  ⟨⟨{ day with rcp := { day.rcp with phase := .fetch } }, [], by decide +kernel⟩,
   ⟨State.fset { day with rcp := { day.rcp with tartalFw := some fw } } F.SYS_RCP_STATUS.state rcpLoading, [],
    by decide +kernel⟩,
   ⟨day.fset F.SYS_RCP_STATUS.state rcpLoader, by decide +kernel⟩,
   ⟨day.fset F.SYS_RCP_STATUS.state rcpAdmitted, by decide +kernel⟩,
   ⟨day, by decide +kernel⟩,
   ⟨day, .management, by decide +kernel⟩,
   ⟨{ day with rcp := { day.rcp with phase := .sign } }, by decide +kernel⟩,
   ⟨loading 9, by decide +kernel⟩,
   ⟨{ loading 9 with rcp := { (loading 9).rcp with loading := recipeOf [] } }, ⟨3, 2, 0⟩, by decide +kernel⟩,
   ⟨loading 0, by decide +kernel⟩,
   ⟨{ loading 9 with rcp := { (loading 9).rcp with loading := recipeOf [(2, [(0, 255), (3, 9), (5, 9)]), (3, [(0, 9)])] } },
    ⟨5, 3, 16⟩, by decide +kernel⟩⟩

/-- The hypotheses of PowerLadder can be met. -/
theorem witness_PowerLadder :
    (∃ (s : State) (target : BitVec 3) (wakes : BitVec 11), s.day = true ∧ target.toNat ≠ 0 ∧ s.flag
    F.PMU_STATE_STATUS.entering = false ∧ s.entryRefusal target.toNat wakes = 0)
    ∧ (∃ (s : State) (target : BitVec 3) (wakes : BitVec 11), s.day = true ∧ target.toNat ≠ 0 ∧ s.flag
    F.PMU_STATE_STATUS.entering = false ∧ s.entryRefusal target.toNat wakes ≠ 0)
    ∧ (∃ (s : State), s.day = true ∧ s.flag F.PMU_STATE_STATUS.entering = true)
    ∧ (∃ (s : State), s.flag F.PMU_STATE_STATUS.entering = false)
    ∧ (∃ (s : State), s.day = true ∧ s.flag F.PMU_STATE_STATUS.entering = true ∧ s.entryWaits = false)
    ∧ (∃ (s : State) (b : Fin 11), s.wakeEnabled b.val = true ∧ s.pwr.state ≠ 0 ∧ wakeActs b.val s.pwr.state = true)
    ∧ (∃ (s : State) (b : Fin 11), (s.wakeEnabled b.val = false ∨ (s.pwr.state ≠ 0 ∧ wakeActs b.val s.pwr.state = false)))
    ∧ (∃ (s : State), s.pwr.aotArmed = true ∧ 1 ≤ s.pwr.state ∧ s.hasBit .PMU_WAKE_EN 4 = true)
    ∧ (∃ (s : State) (b : Fin 11), s.wakeEnabled b.val = true ∧ s.pwr.state = 0 ∧ s.flag F.PMU_STATE_STATUS.entering = true
    ∧ wakeActs b.val s.pwr.target = true)
    ∧ (∃ (s : State), s.pwr.lookAhead = true ∧ 2 ≤ s.pwr.state ∧ s.lookAheadDue = true)
    ∧ (∃ (s : State) (a b c d : Digest), s.pwr.exiting = true ∧ s.pwr.state ≠ 0 ∧ (¬(s.pwr.state = 4 ∧ [a, b, c, d] ≠
    s.rcp.stored)))
    ∧ (∃ (s : State) (a b c d : Digest), s.pwr.exiting = true ∧ s.pwr.state = 4 ∧ [a, b, c, d] ≠ s.rcp.stored) :=
  ⟨⟨admitted [(15, [(0, 255)])], 2, 0, by decide +kernel⟩,
   ⟨admitted [(15, [(0, 0)])], 2, 0, by decide +kernel⟩,
   ⟨day.fset F.PMU_STATE_STATUS.entering 1, by decide +kernel⟩,
   ⟨day, by decide +kernel⟩,
   ⟨State.fset { day with pwr := { day.pwr with target := 2 } } F.PMU_STATE_STATUS.entering 1, by decide +kernel⟩,
   ⟨((admitted [(15, [(2, 255), (3, 7)])]).put .PMU_WAKE_EN 0x7FF).inPower 2, 0, by decide +kernel⟩,
   ⟨day, 3, by decide +kernel⟩,
   ⟨(State.put { day with pwr := { day.pwr with aotArmed := true } } .PMU_WAKE_EN 16).inPower 3, by decide +kernel⟩,
   ⟨State.fset { (admitted [(15, [(2, 255), (3, 7)])]).put .PMU_WAKE_EN 0x7FF with pwr := { day.pwr with target := 2 } }
    F.PMU_STATE_STATUS.entering 1, 0, by decide +kernel⟩,
   ⟨(State.inPower { day with pwr := { day.pwr with lookAhead := true } } 4).cueIn 3 (cueOf 1 1 0), by decide +kernel⟩,
   ⟨State.inPower { day with pwr := { day.pwr with exiting := true } } 3, 0, 0, 0, 0, by decide +kernel⟩,
   ⟨State.inPower { day with pwr := { day.pwr with exiting := true } } 4, 1, 0, 0, 0, by decide +kernel⟩⟩

/-- The hypotheses of TimeDiscipline can be met. -/
theorem witness_TimeDiscipline :
    (∃ (s : State) (p : Fin 8) (h : FabHdr) (origin : ST), s.rxVerdict p.val h (.sync origin) = .accepted ∧ s.timeSource =
    srcFab ∧ s.flag F.FAB_PORT_STATUS.time_port p.val = true ∧ Following s)
    ∧ (∃ (s : State) (_ : ST), s.timeRuns = true ∧ s.timeSource = srcEth ∧ Following s)
    ∧ (∃ (s : State), s.timeRuns = true ∧ s.timeSource = srcMains ∧ Following s)
    ∧ (∃ (s : State) (i : Fin 2) (m : Nat), s.timeRuns = true ∧ s.timeSource = srcGenlock ∧ s.recipe.timePort = i.val ∧
    s.tim.genLine = some m ∧ s.tim.hOff < 7 ∧ Following s)
    ∧ (∃ (s : State) (_ : Fin 8) (_ : FabHdr) (_ _ : ST), s.timeRuns = false)
    ∧ (∃ (s : State) (i : Fin 2), (s.timeRuns = false ∨ s.timeSource ≠ srcGenlock ∨ s.recipe.timePort ≠ i.val ∨
    s.tim.genLine = none))
    ∧ (∃ (s : State) (_ : ST), s.timeSource ≠ srcEth)
    ∧ (∃ (s : State), s.timeSource ≠ srcMains)
    ∧ (∃ (s : State) (_ : ST), s.timeRuns = true ∧ s.timeSource = srcEth ∧ s.timeState = timeUnset)
    ∧ (∃ (s : State) (i : Fin 2) (f : LtcFrame), ltcValid f = true ∧ s.awake = true ∧ s.recipe.ltcEnabled i.val = true)
    ∧ (∃ (s : State) (i : Fin 2) (f : LtcFrame), (ltcValid f = false ∨ s.awake = false ∨ s.recipe.ltcEnabled i.val = false))
    ∧ (∃ (s : State) (_ : Bool), s.timeRuns = true ∧ s.timeSource ≠ srcFree ∧ Following s)
    ∧ (∃ (s : State) (_ : Bool), (s.timeRuns = false ∨ s.timeSource = srcFree))
    ∧ (∃ (s : State), s.timeRuns = true ∧ s.timeState = timeAcquiring ∧ s.phase.natAbs ≤ lockThreshold s.timeSource)
    ∧ (∃ (s : State), (s.timeRuns = false ∨ s.timeState ≠ timeAcquiring ∨ lockThreshold s.timeSource < s.phase.natAbs))
    ∧ (∃ (s : State), s.timeRuns = true ∧ s.timeState = timeLocked ∧ 4 * lockThreshold s.timeSource < s.phase.natAbs)
    ∧ (∃ (s : State), (s.timeRuns = false ∨ s.timeState ≠ timeLocked ∨ s.phase.natAbs ≤ 4 * lockThreshold s.timeSource)) :=
  ⟨⟨(((fabOpen portUp).fset F.TIME_STATUS.source 1).fset F.TIME_STATUS.state 1).fset F.FAB_PORT_STATUS.time_port 1 0, 0, hdr
    7 false, 1000, by unfold Following; decide +kernel⟩,
   ⟨timed 2 2, 500, by unfold Following; decide +kernel⟩,
   ⟨timed 5 1, by unfold Following; decide +kernel⟩,
   ⟨{ timed 3 1 with tim := { (timed 3 1).tim with genLine := some 2 } }, 0, 2, by unfold Following; decide +kernel⟩,
   ⟨day, 0, hdr 7 false, 0, 0, by decide +kernel⟩,
   ⟨timed 3 1, 0, by decide +kernel⟩,
   ⟨timed 3 1, 0, by decide +kernel⟩,
   ⟨timed 3 1, by decide +kernel⟩,
   ⟨(timed 2 0).fset F.TIME_STATUS.valid 0, 77, by decide +kernel⟩,
   ⟨timed 4 1, 0, ltcAt 23 110, by decide +kernel⟩,
   ⟨timed 4 1, 1, ltcAt 1 89, by decide +kernel⟩,
   ⟨timed 5 2, false, by unfold Following; decide +kernel⟩,
   ⟨timed 0 4, true, by decide +kernel⟩,
   ⟨timed 1 1, by decide +kernel⟩,
   ⟨timed 1 3, by decide +kernel⟩,
   ⟨(timed 3 2).put .TIME_PHASE_ERR 81, by decide +kernel⟩,
   ⟨(timed 3 2).put .TIME_PHASE_ERR 80, by decide +kernel⟩⟩

/-- The hypotheses of AxesAndTheirReads can be met. -/
theorem witness_AxesAndTheirReads :
    (∃ (s : State) (ax : Fin 8), s.awake = true ∧ s.axState ax.val ≠ axDisabled ∧ (s.axis ax.val).reading = none ∧
    s.sampleDue ax.val = true)
    ∧ (∃ (s : State) (ax : Fin 8), s.awake = true ∧ s.axState ax.val = axAcquiring ∧ (s.axis ax.val).reading.isSome = true ∧
    s.sampleDue ax.val = true)
    ∧ (∃ (s : State) (ax : Fin 8), (s.awake = false ∨ s.axState ax.val = axDisabled ∨ s.sampleDue ax.val = false))
    ∧ (∃ (s : State) (ax : Fin 8) (f : SsiFrame) (st : ST), s.awake = true ∧ s.axState ax.val = axTracking ∧ (s.axis
    ax.val).reading = some st ∧ f.lowAtStart = false ∧ f.monoflopOk = true ∧ u8 (s.recipe.ssi (axSsi (s.recipe.axis
    ax.val))) 4 = 0 ∧ u8 (s.recipe.ssi (axSsi (s.recipe.axis ax.val))) 3 = 0)
    ∧ (∃ (s : State) (ax : Fin 8) (f : SsiFrame) (st : ST), s.awake = true ∧ s.axState ax.val = axAcquiring ∧ (s.axis
    ax.val).reading = some st ∧ (f.lowAtStart = true ∨ f.monoflopOk = false))
    ∧ (∃ (s : State) (ax : Fin 8) (_ : SsiFrame), ((s.axis ax.val).reading = none ∨ s.awake = false ∨ s.axState ax.val =
    axDisabled))
    ∧ (∃ (s : State) (ax : Fin 8), s.awake = true ∧ s.axState ax.val = axCoasting ∧ notLater (s.axis ax.val).deadline
    s.gridTime = true)
    ∧ (∃ (s : State) (ax : Fin 8), (s.awake = false ∨ s.axState ax.val ≠ axCoasting ∨ notLater (s.axis ax.val).deadline
    s.gridTime = false))
    ∧ (∃ (s : State) (_ : Agent) (_ : Fin 8), s.dom.mainUp = true ∧ s.pwr.state ≤ 2)
    ∧ (∃ (s : State) (_ : Agent), s.dom.mainUp = true ∧ s.pwr.state ≤ 2)
    ∧ (∃ (s : State) (_ : Agent) (_ : Fin 8), (s.dom.mainUp = false ∨ 2 < s.pwr.state)) :=
  ⟨⟨(axisIn axLost AxisState.initial).atSt 1000000, 0, by decide +kernel⟩,
   ⟨(axisIn axAcquiring { AxisState.initial with window := [(500, 3)], count := 1, reading := some 600 }).atSt 1000000, 0,
    by decide +kernel⟩,
   ⟨axisIn axLost AxisState.initial, 0, by decide +kernel⟩,
   ⟨axisIn axTracking ⟨[(500, 3)], some 3, 0, none, 900, some 600, 0⟩, 0, ⟨false, 5, 0, false, true⟩, 600,
    by decide +kernel⟩,
   ⟨axisIn axAcquiring ⟨[(500, 3)], some 3, 1, none, 900, some 600, 0⟩, 0, ⟨true, 5, 0, false, true⟩, 600,
    by decide +kernel⟩,
   ⟨axisIn axTracking AxisState.initial, 0, ⟨false, 5, 0, false, true⟩, by decide +kernel⟩,
   ⟨(axisIn axCoasting ⟨[(500, 3)], some 3, 1, none, 900, none, 0⟩).atSt 900, 0, by decide +kernel⟩,
   ⟨(axisIn axCoasting ⟨[(500, 3)], some 3, 1, none, 900, none, 0⟩).atSt 899, 0, by decide +kernel⟩,
   ⟨(axisIn axTracking ⟨[(500, 3)], some 3, 1, none, 900, none, 0⟩).inPower 2, .guest 4, 0, by decide +kernel⟩,
   ⟨day, .inner, by decide +kernel⟩,
   ⟨State.inPower day 3, .manager, 7, by decide +kernel⟩⟩

/-- The hypotheses of CueTable can be met. -/
theorem witness_CueTable :
    (∃ (s : State) (w : CueWindow) (n : Nat), s.windowOpen w = true ∧ s.armError (windowOwner w) (s.windowEntry w) = 0 ∧
    s.takeSlot (windowOwner w) = some n ∧ n < 4096)
    ∧ (∃ (s : State) (w : CueWindow), s.windowOpen w = true ∧ s.armError (windowOwner w) (s.windowEntry w) ≠ 0)
    ∧ (∃ (s : State) (w : CueWindow), s.windowOpen w = true ∧ s.armError (windowOwner w) (s.windowEntry w) = 0 ∧ s.takeSlot
    (windowOwner w) = none)
    ∧ (∃ (s : State) (w : CueWindow) (n : Fin 4096) (win : BitVec 7), s.windowOpen w = true ∧ s.modifyError (windowOwner w)
    (addressed w win) n.val (s.windowEntry w) = 0)
    ∧ (∃ (s : State) (w : CueWindow) (n : Fin 4096) (win : BitVec 7), s.windowOpen w = true ∧ s.modifyError (windowOwner w)
    (addressed w win) n.val (s.windowEntry w) ≠ 0)
    ∧ (∃ (s : State) (w : CueWindow) (n : Fin 4096) (win : BitVec 7), s.windowOpen w = true ∧ s.cancelError (addressed w
    win) n.val = 0)
    ∧ (∃ (s : State) (w : CueWindow) (n : Fin 4096) (win : BitVec 7), s.windowOpen w = true ∧ s.cancelError (addressed w
    win) n.val ≠ 0)
    ∧ (∃ (s : State) (w : CueWindow) (n : Fin 4096) (win : BitVec 7) (c : CueSlot), s.windowOpen w = true ∧ s.slotError
    (addressed w win) n.val = 0 ∧ s.cueAt n.val = some c)
    ∧ (∃ (s : State) (w : CueWindow) (n : Fin 4096) (win : BitVec 7), s.windowOpen w = true ∧ s.slotError (addressed w win)
    n.val ≠ 0)
    ∧ (∃ (s : State) (w : CueWindow) (_ : Fin 4096) (_ : BitVec 7), s.windowOpen w = false ∧ s.awake = true)
    ∧ (∃ (s : State) (_ : CueWindow) (_ : Fin 4096) (_ : BitVec 7), s.awake = false)
    ∧ (∃ (s : State) (w : CueWindow) (n : Fin 4096) (win : BitVec 7) (c : CueSlot), s.windowOpen w = true ∧ s.cueAt n.val =
    some c ∧ c.entry.owner.toNat ≠ addressed w win)
    ∧ (∃ (s : State), s.awake = true)
    ∧ (∃ (s : State) (a : Agent), s.awake = true ∧ a ≠ .manager)
    ∧ (∃ (s : State) (_ : Agent), s.awake = false)
    ∧ (∃ (s : State), s.awake = true ∧ s.stValid = true)
    ∧ (∃ (s : State) (_ : Fin 8), (s.awake = false ∨ s.stValid = false))
    ∧ (∃ (s : State) (ax : Fin 8), s.awake = true ∧ s.stValid = true ∧ (s.axState ax.val = axTracking ∨ s.axState ax.val =
    axCoasting))
    ∧ (∃ (s : State) (ax : Fin 8), s.awake = true ∧ s.stValid = true ∧ (s.axState ax.val = axAcquiring ∨ s.axState ax.val =
    axLost)) :=
  ⟨⟨((admitted [(3, [(4, 1)])]).atSt 5000).asks (cueOf 7000 3 0), .manager, 1, by decide +kernel⟩,
   ⟨((admitted [(3, [(4, 1)])]).atSt 5000).asks (cueOf 6999 3 0), .manager, by decide +kernel⟩,
   ⟨((admitted [(3, [(0, 1), (17, 2), (18, 1)])]).atSt 5000).asksAt 1 (cueOf 7000 3 0), .partition 0, by decide +kernel⟩,
   ⟨(((admitted [(3, [(4, 1)])]).atSt 5000).asks (cueOf 7000 3 0)).cueIn 1 (cueOf 900000 3 0), .manager, 1, 0,
    by decide +kernel⟩,
   ⟨((admitted [(3, [(4, 1)])]).atSt 5000).asks (cueOf 7000 3 0), .manager, 1, 0, by decide +kernel⟩,
   ⟨(admitted [(3, [(4, 1)])]).cueIn 1 (cueOf 900000 3 0), .manager, 1, 0, by decide +kernel⟩,
   ⟨admitted [(3, [(4, 1)])], .manager, 1, 0, by decide +kernel⟩,
   ⟨(admitted [(3, [(4, 1)])]).cueIn 1 (cueOf 900000 3 0), .manager, 1, 0, ⟨cueOf 900000 3 0, false, 900000, 900000, false,
    false, false⟩, by decide +kernel⟩,
   ⟨admitted [(3, [(4, 1)])], .manager, 1, 0, by decide +kernel⟩,
   ⟨day, .guest 3, 1, 0, by decide +kernel⟩,
   ⟨State.inPower day 2, .island, 1, 0, by decide +kernel⟩,
   ⟨day.cueIn 1 (cueOf 900000 3 0), .island, 1, 0, ⟨cueOf 900000 3 0, false, 900000, 900000, false, false, false⟩,
    by decide +kernel⟩,
   ⟨day, by decide +kernel⟩,
   ⟨day, .guest 3, by decide +kernel⟩,
   ⟨State.inPower day 2, .manager, by decide +kernel⟩,
   ⟨(day.cueIn 1 (cueOf 105000 3 0)).atSt 5000, by decide +kernel⟩,
   ⟨day, 0, by decide +kernel⟩,
   ⟨(axisIn axTracking ⟨[(500, 3)], some 3, 1, none, 900, none, 0⟩).atSt 600, 0, by decide +kernel⟩,
   ⟨(axisIn axLost AxisState.initial).atSt 600, 0, by decide +kernel⟩⟩

/-- The hypotheses of CueLaunch can be met. -/
theorem witness_CueLaunch :
    (∃ (s : State), s.awake = true ∧ s.stValid = true ∧ s.dueCues (s.tim.st - BitVec.ofNat 64 (s.tim.st.toNat % 1000)) = [])
    ∧ (∃ (s : State) (n : Nat) (c : CueSlot), s.awake = true ∧ s.stValid = true ∧ s.dueCues (s.tim.st - BitVec.ofNat 64
    (s.tim.st.toNat % 1000)) = [(n, c)] ∧ s.cue.winStart ≠ s.tim.st - BitVec.ofNat 64 (s.tim.st.toNat % 1000) ∧
    c.entry.action = 3 ∧ c.entry.target.toNat < 16 ∧ c.voided = false ∧ c.entry.voidAfter = false ∧ c.late = false ∧
    c.deferred = false ∧ c.entry.repeats = false ∧ c.key = c.due ∧ earlier c.due (s.tim.st - BitVec.ofNat 64 (s.tim.st.toNat
    % 1000)) = false)
    ∧ (∃ (s : State) (n : Nat) (c : CueSlot), s.awake = true ∧ s.stValid = true ∧ s.dueCues (s.tim.st - BitVec.ofNat 64
    (s.tim.st.toNat % 1000)) = [(n, c)] ∧ s.cue.winStart ≠ s.tim.st - BitVec.ofNat 64 (s.tim.st.toNat % 1000) ∧ c.isVoid
    (launchSt (s.tim.st - BitVec.ofNat 64 (s.tim.st.toNat % 1000)) c) = true)
    ∧ (∃ (s : State), (s.awake = false ∨ s.stValid = false)) :=
  ⟨⟨day.atSt 5500, by decide +kernel⟩,
   ⟨{ (day.cueIn 1 (cueOf 5200 3 0)).atSt 5500 with cue := { (day.cueIn 1 (cueOf 5200 3 0)).cue with slots := [(1, ⟨cueOf 5200 3 0, true, 5200, 5200, false, false, false⟩)] } },
    1, ⟨cueOf 5200 3 0, true, 5200, 5200, false, false, false⟩, by decide +kernel⟩,
   ⟨{ (day.cueIn 1 (cueOf 2000 3 4)).atSt 500000 with cue := { (day.cueIn 1 (cueOf 2000 3 4)).cue with slots := [(1, ⟨cueOf 2000 3 4, true, 2000, 2000, false, false, false⟩)] } },
    1, ⟨cueOf 2000 3 4, true, 2000, 2000, false, false, false⟩, by decide +kernel⟩,
   ⟨day, by decide +kernel⟩⟩

/-- The hypotheses of LinksComeUp can be met. -/
theorem witness_LinksComeUp :
    (∃ (s : State) (p : Fin 8), s.fabRuns = true ∧ s.portEnabled p.val = true ∧ s.portState p.val = portDown)
    ∧ (∃ (s : State) (p : Fin 8), s.fabRuns = true ∧ s.portState p.val = portVerify ∧ (s.fport p.val).verifyTries < 3)
    ∧ (∃ (s : State) (p : Fin 8), s.fabRuns = true ∧ s.portState p.val = portVerify ∧ 3 ≤ (s.fport p.val).verifyTries)
    ∧ (∃ (s : State) (p : Fin 8), s.fabRuns = true ∧ s.portState p.val = portVerify ∧ (s.fport p.val).heldHello = none)
    ∧ (∃ (s : State) (p : Fin 8) (x : HeldHello), s.fabRuns = true ∧ s.portState p.val = portVerify ∧ (s.fport
    p.val).heldHello = some x ∧ s.helloRefusal p.val x.hdr x.version x.secure = 0)
    ∧ (∃ (s : State) (p : Fin 8), s.portState p.val ≠ portVerify)
    ∧ (∃ (s : State) (p : Fin 8) (_ : FabHdr) (version : Nat) (_ : Bool) (_ : Nat), s.fabRuns = true ∧ AwaitsHello s p.val ∧
    version ≠ 2)
    ∧ (∃ (s : State) (p : Fin 8) (_ : FabHdr) (secure : Bool) (_ : Nat), s.fabRuns = true ∧ AwaitsHello s p.val ∧ secure ≠
    s.secure)
    ∧ (∃ (s : State) (p : Fin 8) (h : FabHdr) (_ : Nat), s.fabRuns = true ∧ AwaitsHello s p.val ∧ h.unnumbered = false ∧
    s.numberTaken p.val h.src = true)
    ∧ (∃ (s : State) (p : Fin 8) (h : FabHdr) (_ : Nat), s.fabRuns = true ∧ AwaitsHello s p.val ∧ (h.unnumbered = true ∨
    s.numberTaken p.val h.src = false))
    ∧ (∃ (s : State) (p : Fin 8) (_ : FabHdr) (_ : Nat) (_ : Bool) (_ : Nat), s.fabRuns = true ∧ s.portState p.val =
    portVerify)
    ∧ (∃ (s : State) (p : Fin 8), s.dom.mainUp = true ∧ (s.fabRuns = false ∨ s.portEnabled p.val = false ∨ s.portState p.val
    ≠ portDown))
    ∧ (∃ (s : State) (p : Fin 8) (_ : FabHdr) (_ : Nat) (_ : Bool) (_ : Nat), (s.fabRuns = false ∨ (¬ AwaitsHello s p.val ∧
    s.portState p.val ≠ portVerify)))
    ∧ (∃ (s : State) (p : Fin 8) (_ : FabHdr) (_ : Nat) (_ : BitVec 128) (_ _ : BitVec 512), s.fabRuns = true ∧ s.portState
    p.val = portAuth)
    ∧ (∃ (s : State) (p : Fin 8), s.fabRuns = true ∧ s.portState p.val = portAuth ∧ (s.fport p.val).keyIn = true ∧ (s.fport
    p.val).keysOk = false ∧ (s.fport p.val).heldFinish = none)
    ∧ (∃ (s : State) (p : Fin 8), (s.portState p.val ≠ portAuth ∨ (s.fport p.val).keyIn = false))
    ∧ (∃ (s : State) (p : Fin 8) (h : FabHdr) (hash : Digest), s.fabRuns = true ∧ s.awaitsFinish p.val = true ∧ s.frameCheck
    p.val h (.finish hash) = .accepted)
    ∧ (∃ (s : State) (p : Fin 8) (_ : FabHdr) (_ : Digest), s.fabRuns = true ∧ s.portState p.val = portAuth ∧ (s.fport
    p.val).keysOk = false)
    ∧ (∃ (s : State) (p : Fin 8) (_ : FabHdr) (_ : Digest), s.awaitsFinish p.val = false ∧ s.portState p.val ≠ portAuth) :=
  ⟨⟨fabAt portDown, 0, by decide +kernel⟩,
   ⟨fabAt portVerify, 0, by decide +kernel⟩,
   ⟨(fabAt portVerify).portIs (fun x => { x with verifyTries := 3 }), 0, by decide +kernel⟩,
   ⟨fabAt portVerify, 0, by decide +kernel⟩,
   ⟨(fabAt portVerify).portIs (fun x => { x with heldHello := some ⟨hdr 1 false, 2, true, 1⟩ }), 0, ⟨hdr 1 false, 2, true,
    1⟩, by decide +kernel⟩,
   ⟨fabAt portUp, 0, by decide +kernel⟩,
   ⟨fabAt portHello, 0, hdr 1 false, 1, true, 1, by unfold AwaitsHello; decide +kernel⟩,
   ⟨fabAt portStall, 0, hdr 1 false, false, 1, by unfold AwaitsHello; decide +kernel⟩,
   ⟨{ (fabAt portHello).isStar5 with fab := { (fabAt portHello).fab with ports := [(0, PortState.initial)] } }, 0,
    { hdr 1 false with src := 5 }, 1, by unfold AwaitsHello; decide +kernel⟩,
   ⟨(fabAt portHello).isStar5, 0, hdr 1 false, 1, by unfold AwaitsHello; decide +kernel⟩,
   ⟨fabAt portVerify, 0, hdr 1 false, 2, true, 1, by decide +kernel⟩,
   ⟨fabAt portUp, 0, by decide +kernel⟩,
   ⟨fabAt portUp, 0, hdr 1 false, 2, true, 1, by unfold AwaitsHello; decide +kernel⟩,
   ⟨fabAt portAuth, 0, hdr 1 false, 0, 7, 8, 9, by decide +kernel⟩,
   ⟨(fabAt portAuth).portIs (fun x => { x with keyIn := true }), 0, by decide +kernel⟩,
   ⟨fabAt portAuth, 0, by decide +kernel⟩,
   ⟨(fabOpen portAuth).portIs (fun x => { x with keysOk := true }), 0, hdr 1 false, 7, by decide +kernel⟩,
   ⟨fabAt portAuth, 0, hdr 1 false, 7, by decide +kernel⟩,
   ⟨fabAt portUp, 0, hdr 1 false, 7, by decide +kernel⟩⟩

/-- The hypotheses of LinkRetryAndRekey can be met. -/
theorem witness_LinkRetryAndRekey :
    (∃ (s : State) (p : Fin 8) (h : FabHdr) (ctr : Nat), s.rxVerdict p.val h (.linkAck ctr) = .accepted)
    ∧ (∃ (s : State) (p : Fin 8) (ctr : Nat) (o : Outstanding), s.fabRuns = true ∧ s.linked p.val = true ∧ (s.fport
    p.val).outstanding.find? (fun o => o.ctr == ctr) = some o ∧ o.sends < 4)
    ∧ (∃ (s : State) (p : Fin 8) (ctr : Nat) (o : Outstanding), s.fabRuns = true ∧ s.linked p.val = true ∧ (s.fport
    p.val).outstanding.find? (fun o => o.ctr == ctr) = some o ∧ 4 ≤ o.sends)
    ∧ (∃ (s : State) (p : Fin 8) (ctr : Nat), (s.fport p.val).outstanding.find? (fun o => o.ctr == ctr) = none)
    ∧ (∃ (s : State) (p : Fin 8), s.fabRuns = true ∧ s.secure = true ∧ s.linked p.val = true ∧ (s.fport p.val).rekeying =
    false ∧ 2 ^ 40 ≤ s.txCtr p.val)
    ∧ (∃ (s : State) (p : Fin 8), s.txCtr p.val < 2 ^ 40 ∧ (s.fport p.val).window.high < 2 ^ 40)
    ∧ (∃ (s : State) (p : Fin 8) (_ : FabHdr), s.fabRuns = true ∧ s.linked p.val = true ∧ s.secure = true ∧ (s.fport
    p.val).rekeying = true ∧ (s.fport p.val).keyIn = true)
    ∧ (∃ (s : State) (p : Fin 8) (_ : FabHdr), s.fabRuns = true ∧ s.linked p.val = true ∧ s.secure = true ∧ (s.fport
    p.val).rekeying = false ∧ (s.fport p.val).keyIn = false)
    ∧ (∃ (s : State) (p : Fin 8) (h : FabHdr), s.rxVerdict p.val h .rekey = .accepted ∧ s.secure = false)
    ∧ (∃ (s : State) (p : Fin 8) (_ : FabHdr) (_ : Nat) (_ : BitVec 128) (_ _ : BitVec 512), s.fabRuns = true ∧ s.linked
    p.val = true ∧ s.secure = true ∧ (s.fport p.val).rekeying = false)
    ∧ (∃ (s : State) (p : Fin 8), s.fabRuns = true ∧ s.linked p.val = true ∧ (s.fport p.val).rekeying = true ∧ 2 ^ 41 ≤
    s.txCtr p.val)
    ∧ (∃ (s : State) (_ : Fin 8), s.fabRuns = true) :=
  ⟨⟨fabOpen portUp, 0, hdr 1 false, 3, by decide +kernel⟩,
   ⟨(fabAt portUp).portIs (fun x => { x with outstanding := [⟨3, 3, ⟨9, false, 5, false, 0, .pdelayResp⟩, [1]⟩] }), 0, 3,
    ⟨3, 3, ⟨9, false, 5, false, 0, .pdelayResp⟩, [1]⟩, by decide +kernel⟩,
   ⟨(fabAt portUp).portIs (fun x => { x with outstanding := [⟨3, 4, ⟨9, false, 5, false, 0, .pdelayResp⟩, [1]⟩] }), 0, 3,
    ⟨3, 4, ⟨9, false, 5, false, 0, .pdelayResp⟩, [1]⟩, by decide +kernel⟩,
   ⟨fabAt portUp, 0, 3, by decide +kernel⟩,
   ⟨(fabAt portUp).put .FAB_PORT_TXCTR_HI 256, 0, by decide +kernel⟩,
   ⟨(fabAt portUp).put .FAB_PORT_TXCTR_HI 255, 0, by decide +kernel⟩,
   ⟨(fabAt portUp).portIs (fun x => { x with rekeying := true, keyIn := true }), 0, hdr 1 false, by decide +kernel⟩,
   ⟨fabAt portUp, 0, hdr 1 false, by decide +kernel⟩,
   ⟨fabOpen portUp, 0, hdr 1 false, by decide +kernel⟩,
   ⟨fabAt portUp, 0, hdr 1 false, 0, 7, 8, 9, by decide +kernel⟩,
   ⟨((fabAt portUp).put .FAB_PORT_TXCTR_HI 512).portIs (fun x => { x with rekeying := true }), 0, by decide +kernel⟩,
   ⟨fabAt portUp, 0, by decide +kernel⟩⟩

/-- The hypotheses of LinkFrames can be met. -/
theorem witness_LinkFrames :
    (∃ (s : State) (p : Fin 8) (h : FabHdr) (n : BitVec 12), s.rxVerdict p.val h (.enum n) = .accepted ∧ s.numbered = false)
    ∧ (∃ (s : State) (p : Fin 8) (h : FabHdr) (n : BitVec 12), s.rxVerdict p.val h (.enum n) = .accepted ∧ s.numbered =
    true)
    ∧ (∃ (s : State) (p : Fin 8) (h : FabHdr) (links : List TopoLink), s.rxVerdict p.val h (.topo links) = .accepted ∧ h.src
    ≠ s.star ∧ (h.src, links) ∉ s.fab.topology)
    ∧ (∃ (s : State) (p : Fin 8) (h : FabHdr) (links : List TopoLink), s.rxVerdict p.val h (.topo links) = .accepted ∧
    s.numbered = true ∧ h.unnumbered = false ∧ h.src = s.star ∧ links ∉ s.fab.ownTopo)
    ∧ (∃ (s : State) (p : Fin 8) (h : FabHdr), s.rxVerdict p.val h .heartbeat = .accepted)
    ∧ (∃ (s : State) (p : Fin 8) (h : FabHdr) (id : BitVec 16) (n : W32) (st : ST) (body : List Byte), s.rxVerdict p.val h
    (.indication id n st body) = .accepted ∧ s.originListed h = true ∧ ((∀ y ∈ s.fab.accepted, y.origin = h.src → y.indId =
    id → advances y.change n = true)))
    ∧ (∃ (s : State) (p : Fin 8) (h : FabHdr) (id : BitVec 16) (n : W32) (st : ST) (body : List Byte), s.rxVerdict p.val h
    (.indication id n st body) = .accepted ∧ s.originListed h = false)
    ∧ (∃ (_ : State) (p : Fin 8) (h : FabHdr) (links : List TopoLink) (n : BitVec 12) (d : Nat) (st : ST) (ctr : Nat) (cf :
    Instr × Frame), cf ∈ [(Instr.heartbeat p h, Frame.heartbeat), (.topo p h links, .topo links), (.enum p h n, .enum n),
    (.linkAck p h ctr, .linkAck ctr), (.syncRx p h st, .sync st), (.pdelayMessage p h (some d), .pdelayResp)])
    ∧ (∃ (s : State) (p : Fin 8) (h : FabHdr) (a b : BitVec 12), s.rxVerdict p.val h (.ringHealed a b) = .badTag)
    ∧ (∃ (s : State) (p : Fin 8) (h : FabHdr) (m : ReplyMsg), s.fabCarries = true ∧ s.rxVerdict p.val h (.reply m) = .replay
    ∧ h.resent = true)
    ∧ (∃ (s : State) (p : Fin 8) (h : FabHdr) (m : ReplyMsg), s.rxVerdict p.val h (.reply m) = .replay ∧ h.resent = false)
    ∧ (∃ (s : State) (p : Nat) (h : FabHdr) (f : Frame), s.rxVerdict p h f = .accepted) :=
  ⟨⟨fabOpen portUp, 0, hdr 1 false, 5, by decide +kernel⟩,
   ⟨(fabOpen portUp).isStar5, 0, hdr 1 false, 7, by decide +kernel⟩,
   ⟨(fabOpen portUp).isStar5, 0, hdr 1 false, [⟨1, 5⟩], by decide +kernel⟩,
   ⟨(fabOpen portUp).isStar5, 0, { hdr 1 false with src := 5 }, [⟨1, 7⟩], by decide +kernel⟩,
   ⟨fabOpen portBlocked, 0, hdr 1 false, by decide +kernel⟩,
   ⟨fabOpen portUp, 0, hdr 1 false, 4, 5, 6, [1], by decide +kernel⟩,
   ⟨fabOpen portUp, 0, { hdr 1 false with src := 8 }, 4, 5, 6, [1], by decide +kernel⟩,
   ⟨fabOpen portUp, 0, hdr 1 false, [], 1, 2, 3, 4, (Instr.heartbeat 0 (hdr 1 false), Frame.heartbeat),
    by simp⟩,
   ⟨fabAt portUp, 0, { hdr 1 false with tag := BitVec.allOnes 128 }, 3, 4, by decide +kernel⟩,
   ⟨(fabOpen portUp).portIs (fun x => x.received false 1), 0, hdr 1 true, ⟨1, 2, 1, 0, 0⟩, by decide +kernel⟩,
   ⟨(fabOpen portUp).portIs (fun x => x.received false 300), 0, hdr 44 false, ⟨1, 2, 1, 0, 0⟩, by decide +kernel⟩,
   ⟨fabOpen portUp, 0, hdr 1 false, .heartbeat, by decide +kernel⟩⟩

/-- The hypotheses of PeriodicFramesAndRings can be met. -/
theorem witness_PeriodicFramesAndRings :
    (∃ (s : State), s.fabRuns = true)
    ∧ (∃ (s : State), s.fabRuns = true)
    ∧ (∃ (s : State), s.fabRuns = true ∧ s.stValid = true)
    ∧ (∃ (s : State), s.fabRuns = true ∧ s.isMaster = true ∧ s.recipe.masterPriority ≠ 0 ∧ ((∀ p, p < 8 → (s.fport p).heard
    = none)))
    ∧ (∃ (s : State), s.fabRuns = true ∧ s.joined = false ∧ s.isMaster = true)
    ∧ (∃ (s : State), s.fabRuns = false)
    ∧ (∃ (s : State) (p : Fin 8), s.fabRuns = true ∧ s.linked p.val = true ∧ (s.fport p.val).missed < 4)
    ∧ (∃ (s : State) (p : Fin 8), s.fabRuns = true ∧ s.linked p.val = true ∧ 4 ≤ (s.fport p.val).missed)
    ∧ (∃ (s : State) (p : Fin 8), s.fabRuns = true ∧ s.linked p.val = true)
    ∧ (∃ (s : State) (p : Fin 8), s.fabRuns = true ∧ s.portState p.val = portAuth)
    ∧ (∃ (s : State) (p : Fin 8) (h : FabHdr) (other : BitVec 12) (q : Nat), s.rxVerdict p.val h (.ringFault other) =
    .accepted ∧ s.recipe.portRing p.val ≠ 255 ∧ s.ringManager (s.recipe.portRing p.val) = true ∧ (s.recipe.ringPorts
    (s.recipe.portRing p.val)).find? (fun q => s.portState q == portBlocked) = some q ∧ h.src ≠ s.star ∧ other ≠ s.star)
    ∧ (∃ (s : State) (p : Fin 8) (h : FabHdr) (other : BitVec 12), s.rxVerdict p.val h (.ringFault other) = .accepted ∧
    s.recipe.portRing p.val ≠ 255 ∧ s.ringManager (s.recipe.portRing p.val) = false ∧ h.hops < 32)
    ∧ (∃ (s : State) (p : Fin 8) (h : FabHdr) (a b : BitVec 12), s.rxVerdict p.val h (.ringHealed a b) = .accepted ∧ a ≠ b)
    ∧ (∃ (s : State) (p : Fin 8) (h : FabHdr) (prio : Nat) (star : BitVec 12) (hops : Nat), s.rxVerdict p.val h (.announce
    prio star hops) = .accepted ∧ s.portState p.val = portUp ∧ s.isMaster = true ∧ prio ≠ 0 ∧ betterMaster prio star
    s.recipe.masterPriority s.star = true ∧ ((∀ q, q ≠ p.val → (s.fport q).heard = none)))
    ∧ (∃ (s : State) (p : Fin 8), (s.fabRuns = false ∨ s.linked p.val = false))
    ∧ (∃ (s : State) (p : Fin 8), s.fabRuns = true ∧ (s.portState p.val = portDown ∨ s.portState p.val = portRefused))
    ∧ (∃ (s : State) (c : IndCopy), s.fabRuns = true ∧ oldestCopy s.gridTime s.fab.copies = some c)
    ∧ (∃ (s : State) (x : Indication), s.fabRuns = true ∧ oldestCopy s.gridTime s.fab.copies = none ∧ oldestRepeat
    s.gridTime s.fab.origin = some x)
    ∧ (∃ (s : State) (p : Fin 8) (h : FabHdr) (_ : Nat), s.rxVerdict p.val h .pdelayResp = .accepted)
    ∧ (∃ (s : State) (p : Fin 8) (h : FabHdr), s.rxVerdict p.val h .pdelayReq = .accepted)
    ∧ (∃ (s : State) (_ : Fin 8) (_ : BadFrame), s.fabRuns = true)
    ∧ (∃ (s : State) (_ : BitVec 12), s.fabRuns = true)
    ∧ (∃ (s : State) (star : BitVec 12) (e : TxPeer), s.dozing = true ∧ s.fab.txPeer star = some e ∧ e.unanswered = [] ∧
    e.waiting = [])
    ∧ (∃ (s : State) (star : BitVec 12) (e : TxPeer), s.dozing = true ∧ s.fab.txPeer star = some e ∧ e.unanswered ≠ [])
    ∧ (∃ (s : State) (star : BitVec 12), s.dozing = true ∧ s.fab.txPeer star = none)
    ∧ (∃ (s : State) (_ : BitVec 12), s.dozing = true)
    ∧ (∃ (s : State) (a : Agent) (_ : BitVec 12), (s.dozing = false ∨ (a ≠ .manager ∧ a ≠ .inner))) :=
  ⟨⟨fabOpen portUp, by decide +kernel⟩,
   ⟨fabOpen portUp, by decide +kernel⟩,
   ⟨((fabOpen portUp).atSt 5).portIs (fun x => { x with delayKnown := true }), by decide +kernel⟩,
   ⟨(fabOpen portUp).fset F.FAB_STATUS.master 1, by decide +kernel⟩,
   ⟨{ (admitted [(9, [])]).fset F.FAB_STATUS.master 1 with fab := { State.reset.fab with enabled := true } },
    by decide +kernel⟩,
   ⟨day, by decide +kernel⟩,
   ⟨(fabAt portUp).portIs (fun x => { x with missed := 3 }), 0, by decide +kernel⟩,
   ⟨(fabAt portUp).portIs (fun x => { x with missed := 4 }), 0, by decide +kernel⟩,
   ⟨fabAt portUp, 0, by decide +kernel⟩,
   ⟨fabAt portAuth, 0, by decide +kernel⟩,
   ⟨(((fabOpen portUp).fset F.FAB_STATUS.master 1).fset F.FAB_PORT_STATUS.state portBlocked 1).isStar5, 0, hdr 1 false, 7,
    1, by decide +kernel⟩,
   ⟨((fabOpen portUp).fset F.FAB_PORT_STATUS.state portUp 1).fset F.FAB_PORT_STATUS.time_port 1 0, 0, hdr 1 false, 7,
    by decide +kernel⟩,
   ⟨fabOpen portUp, 0, hdr 1 false, 3, 4, by decide +kernel⟩,
   ⟨(fabOpen portUp).fset F.FAB_STATUS.master 1, 0, hdr 1 false, 2, 4094, 2,
    by and_intros <;> first | decide +kernel | exact fun q _ => rfl⟩,
   ⟨fabAt portDown, 0, by decide +kernel⟩,
   ⟨fabAt portDown, 0, by decide +kernel⟩,
   ⟨{ fabOpen portUp with fab := { (fabOpen portUp).fab with copies := [⟨1, 3, 0⟩, ⟨2, 1, 0⟩] } }, ⟨1, 3, 0⟩,
    by decide +kernel⟩,
   ⟨{ (fabOpen portUp).atSt 2000000000 with fab := { (fabOpen portUp).fab with origin := [⟨5, 1, 2, 3, [], 0⟩] } }, ⟨5, 1,
    2, 3, [], 0⟩, by decide +kernel⟩,
   ⟨fabOpen portUp, 0, hdr 1 false, 55, by decide +kernel⟩,
   ⟨fabOpen portUp, 0, hdr 1 false, by decide +kernel⟩,
   ⟨fabOpen portUp, 0, .vlan, by decide +kernel⟩,
   ⟨fabOpen portUp, 9, by decide +kernel⟩,
   ⟨{ fabAt portUp with fab := { (fabAt portUp).fab with txPeers := [⟨9, 1, 2, true, [], []⟩] } }, 9, ⟨9, 1, 2, true, [],
    []⟩, by decide +kernel⟩,
   ⟨{ fabAt portUp with fab := { (fabAt portUp).fab with txPeers := [⟨9, 1, 2, true, [3], []⟩] } }, 9, ⟨9, 1, 2, true, [3],
    []⟩, by decide +kernel⟩,
   ⟨fabAt portUp, 9, by decide +kernel⟩,
   ⟨fabAt portUp, 9, by decide +kernel⟩,
   ⟨fabAt portUp, .guest 3, 9, by decide +kernel⟩⟩

/-- The hypotheses of MessageDelivery can be met. -/
theorem witness_MessageDelivery :
    (∃ (s : State) (p : Fin 8) (h : FabHdr) (m : DataMsg), s.fabCarries = true ∧ s.rxVerdict p.val h (.data m) = .accepted ∧
    s.numbered = true ∧ h.dst = s.star ∧ s.fab.rxPeer h.src = none ∧ s.dataRow h.src m = 6 ∧ m.kind = .deliver ∧
    s.ringRefusal m.appPort.val = 0)
    ∧ (∃ (s : State) (p : Fin 8) (h : FabHdr) (m : DataMsg) (r : RxRecord), s.fabCarries = true ∧ s.rxVerdict p.val h (.data
    m) = .accepted ∧ s.numbered = true ∧ h.dst = s.star ∧ s.dataRow h.src m = 1 ∧ (s.fab.rxPeer h.src).bind (fun e =>
    e.outcome m.seq) = some r)
    ∧ (∃ (s : State) (p : Fin 8) (h : FabHdr) (m : DataMsg), s.fabCarries = true ∧ s.rxVerdict p.val h (.data m) = .accepted
    ∧ s.numbered = true ∧ h.dst ≠ s.star)
    ∧ (∃ (s : State) (p : Fin 8) (h : FabHdr) (q : Fin 32) (body : List Byte), s.fabCarries = true ∧ s.rxVerdict p.val h
    (.bulk q.val body) = .accepted ∧ s.forMe h = true ∧ s.bulkKept q.val = true)
    ∧ (∃ (s : State) (p : Fin 8) (h : FabHdr) (q : Fin 32) (body : List Byte), s.fabCarries = true ∧ s.rxVerdict p.val h
    (.bulk q.val body) = .accepted ∧ (s.forMe h = false ∨ s.bulkKept q.val = false))
    ∧ (∃ (s : State) (p : Fin 8) (h : FabHdr) (m : ReplyMsg) (n : Nat), s.fabCarries = true ∧ s.rxVerdict p.val h (.reply m)
    = .accepted ∧ s.numbered = true ∧ h.dst = s.star ∧ s.slotAnswered h.src m = some n ∧ s.slotState n = 2 ∧ NotQueued s
    h.src n)
    ∧ (∃ (s : State) (n : Fin 256) (m : DataMsg) (r : Nat × Nat), s.fabCarries = true ∧ s.slotState n.val = 2 ∧ notLater
    (s.slotOf n.val).nextRepeat s.gridTime = true ∧ (s.slotOf n.val).msg = some m ∧ s.ownRoute (s.slotOf n.val).dst = some r
    ∧ r.1 < 8)
    ∧ (∃ (s : State) (n : Fin 256), s.slotState n.val ≠ 2 ∧ s.slotState n.val ≠ 1)
    ∧ (∃ (s : State) (n : Fin 256), s.fabRuns = true ∧ notLater (s.slotOf n.val).timeout s.tim.st = true ∧ s.slotState n.val
    = 2 ∧ NotQueued s (s.slotOf n.val).dst n.val)
    ∧ (∃ (s : State) (n : Fin 256), s.fabRuns = true ∧ notLater (s.slotOf n.val).timeout s.tim.st = true ∧ s.slotState n.val
    = 1)
    ∧ (∃ (s : State) (a : Agent) (n : Fin 256), (a = .manager ∨ a = .inner) ∧ s.fabCarries = true ∧ s.fabSlotError n.val
    (s.slotVoid n.val s.tim.st) ≠ 0)
    ∧ (∃ (s : State) (a : Agent) (n : Fin 256), (a = .manager ∨ a = .inner) ∧ s.fabCarries = true ∧ s.fabSlotError n.val
    (s.slotVoid n.val s.tim.st) = 0 ∧ s.flag F.FAB_SLOT_CFG.bulk n.val = false)
    ∧ (∃ (s : State) (a : Agent) (n : Fin 256), (a = .manager ∨ a = .inner) ∧ s.fabCarries = true ∧ s.fabSlotError n.val
    (s.slotVoid n.val s.tim.st) = 0 ∧ s.flag F.FAB_SLOT_CFG.bulk n.val = true)
    ∧ (∃ (s : State) (a : Agent) (_ : Fin 256), (a = .manager ∨ a = .inner) ∧ s.dozing = true ∧ s.fabCarries = false)
    ∧ (∃ (s : State) (a : Agent) (_ : Fin 256), (s.dozing = false ∨ (a ≠ .manager ∧ a ≠ .inner))) :=
  ⟨⟨(((fabOpen portUp).isStar5).put .FAB_APP_RING_LO 0x1000000 3).fset F.FAB_APP_RING_CFG.log2 0 3, 0, hdr 1 false, ⟨1, 7,
    true, .deliver, 100, 3, [1]⟩, by decide +kernel⟩,
   ⟨{ (fabOpen portUp).isStar5 with fab := { (fabOpen portUp).fab with rxPeers := [⟨9, 7, [⟨1, 1, 0, 0⟩], 0⟩] } }, 0, hdr 1
    false, ⟨1, 7, true, .deliver, 100, 3, [1]⟩, ⟨1, 1, 0, 0⟩, by decide +kernel⟩,
   ⟨(fabOpen portUp).isStar5, 0, { hdr 1 false with dst := 6 }, ⟨1, 7, true, .deliver, 100, 3, [1]⟩, by decide +kernel⟩,
   ⟨(((fabOpen portUp).isStar5).put .FAB_APP_RING_LO 0x1000000 3).fset F.FAB_APP_RING_CFG.big 1 3, 0, hdr 1 false, 3, [1],
    by decide +kernel⟩,
   ⟨((fabOpen portUp).put .FAB_APP_RING_LO 0x1000000 3).fset F.FAB_APP_RING_CFG.big 1 3, 0, hdr 1 false, 3, [1],
    by decide +kernel⟩,
  
    ⟨{ (fabOpen portUp).isStar5.fset F.FAB_SLOT_STATUS.state 2 40 with fab := { (fabOpen portUp).fab with slots := [(40, ⟨9, some ⟨1, 7, true, .deliver, 100, 3, [1]⟩, 0, 0, 0⟩)] } },
    0, hdr 1 false, ⟨1, 7, 1, 0, 55⟩, 40,
    by and_intros <;> first | decide +kernel | exact fun e h => nomatch (show none = some e from h)⟩,
   ⟨{ (fabOpen portUp).isStar5.fset F.FAB_SLOT_STATUS.state 2 40 with fab := { (fabOpen portUp).fab with ports := [(0, { PortState.initial with neighbour := some 9 })], slots := [(40, ⟨9, some ⟨1, 7, true, .deliver, 100, 3, [1]⟩, 0, 0, 0⟩)] } },
    40, ⟨1, 7, true, .deliver, 100, 3, [1]⟩, (0, 1), by decide +kernel⟩,
   ⟨fabOpen portUp, 40, by decide +kernel⟩,
  
    ⟨{ (fabOpen portUp).fset F.FAB_SLOT_STATUS.state 2 255 with fab := { (fabOpen portUp).fab with slots := [(255, ⟨9, some ⟨1, 7, true, .deliver, 0, 3, [1]⟩, 0, 0, 0⟩)] } },
    255,
    by and_intros <;> first | decide +kernel | exact fun e h => nomatch (show none = some e from h)⟩,
   ⟨{ (fabOpen portUp).fset F.FAB_SLOT_STATUS.state 1 255 with fab := { (fabOpen portUp).fab with slots := [(255, ⟨9, some ⟨1, 7, true, .deliver, 0, 3, [1]⟩, 0, 0, 0⟩)], txPeers := [⟨9, 1, 2, true, [3], [255]⟩] } },
    255, by decide +kernel⟩,
   ⟨fabOpen portUp, .manager, 40, by decide +kernel⟩,
   ⟨{ (fabOpen portUp).isStar5.put .FAB_SLOT_CFG 9 40 with fab := { (fabOpen portUp).fab with ports := [(0, { PortState.initial with neighbour := some 9 })] } },
    .inner, 40, by decide +kernel⟩,
   ⟨{ ((fabOpen portUp).isStar5.put .FAB_SLOT_CFG 9 40).fset F.FAB_SLOT_CFG.bulk 1 40 with fab := { (fabOpen portUp).fab with ports := [(0, { PortState.initial with neighbour := some 9 })] } },
    .inner, 40, by decide +kernel⟩,
   ⟨day, .manager, 40, by decide +kernel⟩,
   ⟨day, .guest 3, 40, by decide +kernel⟩⟩

/-- The hypotheses of RasterPackets can be met. -/
theorem witness_RasterPackets :
    (∃ (s : State) (c : Fin 64) (b : List W32) (r : State), packetAt s c = some (0, b, r) ∧ (WorkAfter s c (1 + b.length) ∨
    NothingAsked s c))
    ∧ (∃ (s : State) (c : Fin 64) (b : List W32) (r : State), packetAt s c = some (64, b, r) ∧ (WorkAfter s c 2 ∨
    NothingAsked s c))
    ∧ (∃ (s : State) (c : Fin 64) (b : List W32) (r : State) (rng : List (Nat × Nat) × Option Nat × State), packetAt s c =
    some (65, b, r) ∧ (WorkAfter s c 5 ∨ NothingAsked s c) ∧ rng = r.gfxRanges c (dword2 b 1 / 64 * 64) ((dword2 b 1 + dword
    b 3 + 63) / 64 * 64 - dword2 b 1 / 64 * 64) ∧ rng.2.1 = none)
    ∧ (∃ (s : State) (c : Fin 64) (b : List W32) (r : State), packetAt s c = some (17, b, r) ∧ (WorkAfter s c (1 + b.length)
    ∨ NothingAsked s c))
    ∧ (∃ (s : State) (c : Fin 64) (b : List W32) (r : State), packetAt s c = some (1, b, r) ∧ (s.ctx c).calls.length < 2 ∧
    dword b 2 ≠ 0)
    ∧ (∃ (s : State) (c : Fin 64) (b : List W32) (r : State), packetAt s c = some (83, b, r) ∧ (WorkAfter s c 4 ∨
    NothingAsked s c))
    ∧ (∃ (s : State) (c : Fin 64) (b : List W32) (r : State), packetAt s c = some (97, b, r) ∧ (WorkAfter s c 9 ∨
    NothingAsked s c) ∧ s.layerHolder (dword b 0 % 64) = some (s.ctxOwner c))
    ∧ (∃ (s : State) (c : Fin 64) (w : DrawWork) (l : List DrawWork) (x : List ShaderOp) (e : Nat × Instr) (q : Fetched),
    s.ctxCanRun c = true ∧ e ∈ packetCommands c w l x ∧ q = s.gfxFetch c (s.fetchAddr c) 4 ∧ q.fault = none ∧ ((headerOk
    (BitVec.ofNat 32 (u32 q.bytes 0)) (s.inPass c) = false ∨ s.packetFits c (1 + packetLength (BitVec.ofNat 32 (u32 q.bytes
    0))) = false)))
    ∧ (∃ (s : State) (c : Fin 64) (w : DrawWork) (l : List DrawWork) (x : List ShaderOp) (e : Nat × Instr) (a : Nat),
    s.ctxCanRun c = true ∧ e ∈ packetCommands c w l x ∧ (s.gfxFetch c (s.fetchAddr c) 4).fault = some a)
    ∧ (∃ (s : State) (c : Fin 64) (w : DrawWork) (l : List DrawWork) (x : List ShaderOp) (e : Nat × Instr), s.ctxCanRun c =
    false ∧ e ∈ packetCommands c w l x)
    ∧ (∃ (s : State) (c : Fin 64) (w : DrawWork) (l : List DrawWork) (x : List ShaderOp) (e : Nat × Instr) (op : Nat) (b :
    List W32) (r : State), packetAt s c = some (op, b, r) ∧ e ∈ packetCommands c w l x ∧ op ≠ e.1)
    ∧ (∃ (s : State) (c : Fin 64) (b : List W32) (r : State), packetAt s c = some (1, b, r) ∧ 2 ≤ (s.ctx c).calls.length)
    ∧ (∃ (s : State) (c : Fin 64) (b : List W32) (r : State), packetAt s c = some (97, b, r) ∧ s.layerHolder (dword b 0 %
    64) ≠ some (s.ctxOwner c))
    ∧ (∃ (s : State) (c : Fin 64) (b : List W32) (r : State) (a : Nat), packetAt s c = some (65, b, r) ∧ (r.gfxRanges c
    (dword2 b 1 / 64 * 64) ((dword2 b 1 + dword b 3 + 63) / 64 * 64 - dword2 b 1 / 64 * 64)).2.1 = some a)
    ∧ (∃ (s : State) (c : Fin 64) (b : List W32) (r : State) (f : Nat × Nat × Nat), packetAt s c = some (0, b, r) ∧ (¬
    WorkAfter s c (1 + b.length)) ∧ (s.ctx c).pendFault = some f)
    ∧ (∃ (s : State) (c : Fin 64) (b : List W32) (r : State), packetAt s c = some (0, b, r) ∧ (¬ WorkAfter s c (1 +
    b.length)) ∧ (s.ctx c).pendFault = none ∧ (s.ctx c).destroy = true)
    ∧ (∃ (s : State) (c : Fin 64) (b : List W32) (r : State), packetAt s c = some (0, b, r) ∧ (¬ WorkAfter s c (1 +
    b.length)) ∧ (s.ctx c).pendFault = none ∧ (s.ctx c).destroy = false ∧ s.flag F.CTX_STATE.destroy_pending c = false ∧
    (s.ctx c).freeze = true) :=
  ⟨⟨rings [0x300, 7, 8, 9, 0], 2, bodyAt (rings [0x300, 7, 8, 9, 0]), fetched (rings [0x300, 7, 8, 9, 0]),
    by unfold WorkAfter NothingAsked; decide +kernel⟩,
   ⟨rings [0x140, 15], 2, bodyAt (rings [0x140, 15]), fetched (rings [0x140, 15]),
    by unfold WorkAfter NothingAsked; decide +kernel⟩,
   ⟨rings [0x441, 3, 0x100, 8, 64], 2, bodyAt (rings [0x441, 3, 0x100, 8, 64]), fetched (rings [0x441, 3, 0x100, 8, 64]),
    (fetched (rings [0x441, 3, 0x100, 8, 64])).gfxRanges 2 0x800000100 64,
    by unfold WorkAfter NothingAsked; decide +kernel⟩,
   ⟨rings [0x311, 62, 7, 8, 0], 2, bodyAt (rings [0x311, 62, 7, 8, 0]), fetched (rings [0x311, 62, 7, 8, 0]),
    by unfold WorkAfter NothingAsked; decide +kernel⟩,
   ⟨rings [0x301, 0x1000, 8, 5], 2, bodyAt (rings [0x301, 0x1000, 8, 5]), fetched (rings [0x301, 0x1000, 8, 5]),
    by decide +kernel⟩,
   ⟨ring 65 ctxRunning [0x353, 9, 0, 254], 2, bodyAt (ring 65 ctxRunning [0x353, 9, 0, 254]), fetched (ring 65 ctxRunning
    [0x353, 9, 0, 254]), by unfold WorkAfter NothingAsked; decide +kernel⟩,
   ⟨rings [0x861, 0x100, 7, 0, 1, 2, 0, 0, 0], 2, bodyAt (rings [0x861, 0x100, 7, 0, 1, 2, 0, 0, 0]), fetched (rings [0x861,
    0x100, 7, 0, 1, 2, 0, 0, 0]), by unfold WorkAfter NothingAsked; decide +kernel⟩,
   ⟨rings [0x201, 0, 0], 2, ⟨[], []⟩, [], [], (33, .passEnd 2), Machine.State.gfxFetch (rings [0x201, 0, 0]) 2 D 4,
    by and_intros <;> first | decide +kernel | rfl⟩,
   ⟨ring 5 ctxRunning [0x300], 2, ⟨[], []⟩, [], [], (0, .nop 2), D, by decide +kernel⟩,
   ⟨ring 0 ctxReady [0x300], 2, ⟨[], []⟩, [], [], (97, .layerSubmit 2), by decide +kernel⟩,
   ⟨rings [0x300, 7, 8, 9, 0], 2, ⟨[], []⟩, [], [], (97, .layerSubmit 2), 0, bodyAt (rings [0x300, 7, 8, 9, 0]), fetched
    (rings [0x300, 7, 8, 9, 0]), by decide +kernel⟩,
   ⟨(rings [0x301, 0x1000, 8, 5]).ctxIs (fun x => { x with calls := [(D, 4), (D + 64, 3)] }), 2, bodyAt ((rings [0x301,
    0x1000, 8, 5]).ctxIs (fun x => { x with calls := [(D, 4), (D + 64, 3)] })), fetched ((rings [0x301, 0x1000, 8, 5]).ctxIs
    (fun x => { x with calls := [(D, 4), (D + 64, 3)] })), by decide +kernel⟩,
   ⟨ring 65 ctxRunning [0x861, 0x100, 7, 0, 1, 2, 0, 0, 0], 2, bodyAt (ring 65 ctxRunning [0x861, 0x100, 7, 0, 1, 2, 0, 0,
    0]), fetched (ring 65 ctxRunning [0x861, 0x100, 7, 0, 1, 2, 0, 0, 0]), by decide +kernel⟩,
   ⟨guestRing 1023 [0x441, 3, 0x8000, 0, 64], 2, bodyAt (guestRing 1023 [0x441, 3, 0x8000, 0, 64]), fetched (guestRing 1023
    [0x441, 3, 0x8000, 0, 64]), 0x8000, by decide +kernel⟩,
   ⟨(rings [0x100, 0]).ctxIs (fun x => { x with pendFault := some (4, 9, 0) }), 2, bodyAt ((rings [0x100, 0]).ctxIs (fun x
    => { x with pendFault := some (4, 9, 0) })), fetched ((rings [0x100, 0]).ctxIs (fun x =>
    { x with pendFault := some (4, 9, 0) })), (4, 9, 0), by unfold WorkAfter; decide +kernel⟩,
   ⟨(rings [0x100, 0]).ctxIs (fun x => { x with destroy := true }), 2, bodyAt ((rings [0x100, 0]).ctxIs (fun x =>
    { x with destroy := true })), fetched ((rings [0x100, 0]).ctxIs (fun x => { x with destroy := true })),
    by unfold WorkAfter; decide +kernel⟩,
   ⟨(rings [0x100, 0]).ctxIs (fun x => { x with freeze := true }), 2, bodyAt ((rings [0x100, 0]).ctxIs (fun x =>
    { x with freeze := true })), fetched ((rings [0x100, 0]).ctxIs (fun x => { x with freeze := true })),
    by unfold WorkAfter; decide +kernel⟩⟩

/-- The hypotheses of RasterWaitsAndWrites can be met. -/
theorem witness_RasterWaitsAndWrites :
    (∃ (s : State) (c : Fin 64) (b : List W32) (r : State), packetAt s c = some (80, b, r) ∧ (WorkAfter s c 3 ∨ NothingAsked
    s c) ∧ s.fencePassed (BitVec.ofNat 64 (dword2 b 0)) = true)
    ∧ (∃ (s : State) (c : Fin 64) (b : List W32) (r : State), packetAt s c = some (80, b, r) ∧ NothingAsked s c ∧
    s.fencePassed (BitVec.ofNat 64 (dword2 b 0)) = false)
    ∧ (∃ (s : State) (c : Fin 64) (st : ST), s.day = true ∧ s.ctxState c = ctxWaiting ∧ (s.ctx c).wait = some (.untilSt st)
    ∧ (WorkAfter s c 3 ∨ NothingAsked s c) ∧ s.fencePassed st = true)
    ∧ (∃ (s : State) (c : Fin 64) (st : ST), (s.ctx c).wait = some (.untilSt st) ∧ s.fencePassed st = false)
    ∧ (∃ (s : State) (c : Fin 64) (b : List W32) (r : State) (q : Fetched), packetAt s c = some (81, b, r) ∧ (WorkAfter s c
    6 ∨ NothingAsked s c) ∧ q = r.gfxFetch c (dword2 b 0) 8 ∧ q.fault = none ∧ waitCompare (dword b 4) (BitVec.ofNat 64 (u64
    q.bytes 0)) (BitVec.ofNat 64 (dword2 b 2)) = true)
    ∧ (∃ (s : State) (c : Fin 64) (b : List W32) (r : State) (q : Fetched), packetAt s c = some (81, b, r) ∧ NothingAsked s
    c ∧ q = r.gfxFetch c (dword2 b 0) 8 ∧ q.fault = none ∧ waitCompare (dword b 4) (BitVec.ofNat 64 (u64 q.bytes 0))
    (BitVec.ofNat 64 (dword2 b 2)) = false)
    ∧ (∃ (s : State) (c : Fin 64) (b : List W32) (r : State) (a : Nat), packetAt s c = some (81, b, r) ∧ (r.gfxFetch c
    (dword2 b 0) 8).fault = some a)
    ∧ (∃ (s : State) (c : Fin 64) (addr : Nat) (value : BitVec 64) (cmp : Nat) (q : Fetched), s.day = true ∧ s.ctxState c =
    ctxWaiting ∧ (s.ctx c).wait = some (.onValue addr value cmp) ∧ (WorkAfter s c 6 ∨ NothingAsked s c) ∧ q = s.gfxFetch c
    addr 8 ∧ q.fault = none ∧ waitCompare cmp (BitVec.ofNat 64 (u64 q.bytes 0)) value = true)
    ∧ (∃ (s : State) (c : Fin 64) (addr : Nat) (value : BitVec 64) (cmp : Nat), (s.ctx c).wait = some (.onValue addr value
    cmp) ∧ (s.gfxFetch c addr 8).fault = none ∧ waitCompare cmp (BitVec.ofNat 64 (u64 (s.gfxFetch c addr 8).bytes 0)) value
    = false)
    ∧ (∃ (s : State) (c : Fin 64) (b : List W32) (r : State) (w : Written), packetAt s c = some (82, b, r) ∧ (WorkAfter s c
    6 ∨ NothingAsked s c) ∧ w = (r.l2Release c).2.gfxStore c (dword2 b 0) (leBytes 8 (dword2 b 2) ++ (if dword b 4 = 1 then
    leBytes 8 s.tim.st.toNat else [])) ∧ w.fault = none)
    ∧ (∃ (s : State) (c : Fin 64) (b : List W32) (r : State) (w : Written) (a : Nat), packetAt s c = some (82, b, r) ∧ w =
    (r.l2Release c).2.gfxStore c (dword2 b 0) (leBytes 8 (dword2 b 2) ++ (if dword b 4 = 1 then leBytes 8 s.tim.st.toNat
    else [])) ∧ w.fault = some a) :=
  ⟨⟨(rings [0x250, 5, 0]).atSt 5, 2, bodyAt ((rings [0x250, 5, 0]).atSt 5), fetched ((rings [0x250, 5, 0]).atSt 5),
    by unfold WorkAfter NothingAsked; decide +kernel⟩,
   ⟨(rings [0x250, 6, 0]).atSt 5, 2, bodyAt ((rings [0x250, 6, 0]).atSt 5), fetched ((rings [0x250, 6, 0]).atSt 5),
    by unfold NothingAsked; decide +kernel⟩,
   ⟨((ring 0 ctxWaiting [0x250, 5, 0]).ctxIs (fun x => { x with wait := some (.untilSt 5) })).atSt 5, 2, 5,
    by unfold WorkAfter NothingAsked; decide +kernel⟩,
   ⟨((ring 0 ctxWaiting [0x250, 6, 0]).ctxIs (fun x => { x with wait := some (.untilSt 6) })).atSt 5, 2, 6,
    by decide +kernel⟩,
   ⟨(rings [0x551, 0x200, 8, 7, 1, 1]).holds (cells (D + 0x200) [7, 1]), 2, bodyAt ((rings [0x551, 0x200, 8, 7, 1, 1]).holds
    (cells (D + 0x200) [7, 1])), fetched ((rings [0x551, 0x200, 8, 7, 1, 1]).holds (cells (D + 0x200) [7, 1])), rasterReads
    ((rings [0x551, 0x200, 8, 7, 1, 1]).holds (cells (D + 0x200) [7, 1])) (D + 0x200) 8,
    by unfold WorkAfter NothingAsked; and_intros <;> first | decide +kernel | rfl⟩,
   ⟨(rings [0x551, 0x200, 8, 8, 1, 0]).holds (cells (D + 0x200) [7, 1]), 2, bodyAt ((rings [0x551, 0x200, 8, 8, 1, 0]).holds
    (cells (D + 0x200) [7, 1])), fetched ((rings [0x551, 0x200, 8, 8, 1, 0]).holds (cells (D + 0x200) [7, 1])), rasterReads
    ((rings [0x551, 0x200, 8, 8, 1, 0]).holds (cells (D + 0x200) [7, 1])) (D + 0x200) 8,
    by unfold NothingAsked; and_intros <;> first | decide +kernel | rfl⟩,
   ⟨guestRing 1023 [0x551, 0x8000, 0, 7, 0, 0], 2, bodyAt (guestRing 1023 [0x551, 0x8000, 0, 7, 0, 0]), fetched (guestRing
    1023 [0x551, 0x8000, 0, 7, 0, 0]), 0x8000, by decide +kernel⟩,
   ⟨(((ring 0 ctxWaiting [0x551, 0x200, 8, 7, 0, 2]).holds (cells (D + 0x200) [7, 1])).ctxIs (fun x =>
    { x with wait := some (.onValue (D + 0x200) 7 2) })), 2, D + 0x200, 7, 2, Machine.State.gfxFetch ((((ring 0 ctxWaiting
    [0x551, 0x200, 8, 7, 0, 2]).holds (cells (D + 0x200) [7, 1])).ctxIs (fun x =>
    { x with wait := some (.onValue (D + 0x200) 7 2) }))) 2 (D + 0x200) 8,
    by unfold WorkAfter NothingAsked; and_intros <;> first | decide +kernel | rfl⟩,
   ⟨(((ring 0 ctxWaiting [0x551, 0x200, 8, 7, 0, 0]).holds (cells (D + 0x200) [7, 1])).ctxIs (fun x =>
    { x with wait := some (.onValue (D + 0x200) 0x100000008 0) })), 2, D + 0x200, 0x100000008, 0, by decide +kernel⟩,
   ⟨(rings [0x552, 0x200, 8, 9, 0, 1]).atSt 5, 2, bodyAt ((rings [0x552, 0x200, 8, 9, 0, 1]).atSt 5), fetched ((rings
    [0x552, 0x200, 8, 9, 0, 1]).atSt 5), ((fetched ((rings [0x552, 0x200, 8, 9, 0, 1]).atSt 5)).l2Release 2).2.gfxStore 2 (D
    + 0x200) (leBytes 8 9 ++ leBytes 8 5),
    by unfold WorkAfter NothingAsked; and_intros <;> first | decide +kernel | rfl⟩,
   ⟨guestRing 1023 [0x552, 0x8000, 0, 9, 0, 0], 2, bodyAt (guestRing 1023 [0x552, 0x8000, 0, 9, 0, 0]), fetched (guestRing
    1023 [0x552, 0x8000, 0, 9, 0, 0]), ((fetched (guestRing 1023 [0x552, 0x8000, 0, 9, 0, 0])).l2Release 2).2.gfxStore 2
    0x8000 (leBytes 8 9), 0x8000,
    by and_intros <;> first | decide +kernel | rfl⟩⟩

/-- The hypotheses of RasterObjectsAndPasses can be met. -/
theorem witness_RasterObjectsAndPasses :
    (∃ (s : State) (c : Fin 64) (b : List W32) (r : State), packetAt s c = some (16, b, r) ∧ (bindSlotOk (dword b 0 % 256)
    (dword b 0 / 256) = false ∨ dword2 b 1 % 64 ≠ 0))
    ∧ (∃ (s : State) (c : Fin 64) (b : List W32) (r : State) (q : Fetched), packetAt s c = some (16, b, r) ∧ (WorkAfter s c
    4 ∨ NothingAsked s c) ∧ (dword b 0 = 3 ∨ dword b 0 = 4) ∧ dword2 b 1 % 64 = 0 ∧ q = r.gfxFetch c (dword2 b 1)
    (objectBytes (dword b 0)) ∧ q.fault = none ∧ objectOk (dword b 0) q.bytes = true)
    ∧ (∃ (s : State) (c : Fin 64) (b : List W32) (r : State) (q d : Fetched), packetAt s c = some (16, b, r) ∧ (WorkAfter s
    c 4 ∨ NothingAsked s c) ∧ dword b 0 % 256 = 2 ∧ dword b 0 / 256 < 8 ∧ dword2 b 1 % 64 = 0 ∧ q = r.gfxFetch c (dword2 b
    1) 64 ∧ q.fault = none ∧ objectOk 2 q.bytes = true ∧ d = q.s.gfxRead c (tableAddr q.bytes) (32 * u32 q.bytes 0) ∧
    d.fault = none ∧ tableOk d.bytes (u32 q.bytes 0) = true)
    ∧ (∃ (s : State) (c : Fin 64) (b : List W32) (r : State) (q h k : Fetched) (x : List Byte), packetAt s c = some (16, b,
    r) ∧ (WorkAfter s c 4 ∨ NothingAsked s c) ∧ dword b 0 = 1 ∧ dword2 b 1 % 64 = 0 ∧ q = r.gfxFetch c (dword2 b 1) 128 ∧
    q.fault = none ∧ pipelineOk q.bytes = true ∧ u64 q.bytes 16 ≠ 0 ∧ u64 q.bytes 16 % 256 = 0 ∧ h = q.s.gfxFetch c (u64
    q.bytes 16) 64 ∧ h.fault = none ∧ k = h.s.gfxFetch c (u64 q.bytes 16) (max 64 (u32 h.bytes 24)) ∧ k.fault = none ∧ x =
    slice k.bytes 0 (u32 h.bytes 24) ∧ containerOk x 2 (s.fget F.GFX_STATUS.isa_rev) = true)
    ∧ (∃ (s : State) (c : Fin 64) (b : List W32) (r : State) (q : Fetched), packetAt s c = some (16, b, r) ∧ (WorkAfter s c
    4 ∨ NothingAsked s c) ∧ dword b 0 = 1 ∧ dword2 b 1 % 64 = 0 ∧ q = r.gfxFetch c (dword2 b 1) 128 ∧ q.fault = none ∧
    pipelineOk q.bytes = true)
    ∧ (∃ (s : State) (c : Fin 64) (b : List W32) (r : State), packetAt s c = some (32, b, r) ∧ dword2 b 0 % 64 ≠ 0)
    ∧ (∃ (s : State) (c : Fin 64) (b : List W32) (r : State) (q : Fetched), packetAt s c = some (32, b, r) ∧ dword2 b 0 % 64
    = 0 ∧ q = r.gfxFetch c (dword2 b 0) 320 ∧ q.fault = none ∧ passOk q.bytes = false)
    ∧ (∃ (s : State) (c : Fin 64) (b : List W32) (r : State) (q : Fetched), packetAt s c = some (32, b, r) ∧ dword2 b 0 % 64
    = 0 ∧ q = r.gfxFetch c (dword2 b 0) 320 ∧ q.fault = none ∧ passOk q.bytes = true ∧ passFlags q.bytes % 2 = 0 ∧ ((s.ctx
    c).pipe.map (·.interlock)).getD false = true)
    ∧ (∃ (s : State) (c : Fin 64) (b : List W32) (r : State) (q : Fetched), packetAt s c = some (32, b, r) ∧ WorkAfter s c 3
    ∧ dword2 b 0 % 64 = 0 ∧ q = r.gfxFetch c (dword2 b 0) 320 ∧ q.fault = none ∧ passOk q.bytes = true ∧ ((passFlags q.bytes
    % 2 = 1 ∨ ((s.ctx c).pipe.map (·.interlock)).getD false = false)) ∧ (s.claimClusters c).coresOf c ≠ [])
    ∧ (∃ (s : State) (c : Fin 64) (b : List W32) (r : State) (q : Fetched), packetAt s c = some (32, b, r) ∧ NothingAsked s
    c ∧ dword2 b 0 % 64 = 0 ∧ q = r.gfxFetch c (dword2 b 0) 320 ∧ q.fault = none ∧ passOk q.bytes = true ∧ ((passFlags
    q.bytes % 2 = 1 ∨ ((s.ctx c).pipe.map (·.interlock)).getD false = false)) ∧ (s.claimClusters c).coresOf c = [])
    ∧ (∃ (s : State) (c : Fin 64) (b : List W32) (r : State) (p : PassState), packetAt s c = some (33, b, r) ∧ (s.ctx
    c).pass = some p ∧ PhysicalOwner s c ∧ NothingAsked s c ∧ s.binFree + p.chunks < 32768)
    ∧ (∃ (s : State) (c : Fin 64) (b : List W32) (r : State), packetAt s c = some (33, b, r) ∧ NothingAsked s c) :=
  ⟨⟨rings [0x310, 2, 0x220, 8], 2, bodyAt (rings [0x310, 2, 0x220, 8]), fetched (rings [0x310, 2, 0x220, 8]),
    by decide +kernel⟩,
   ⟨rings [0x310, 3, 0x200, 8], 2, bodyAt (rings [0x310, 3, 0x200, 8]), fetched (rings [0x310, 3, 0x200, 8]), rasterReads
    (rings [0x310, 3, 0x200, 8]) (D + 0x200) 13,
    by unfold WorkAfter NothingAsked; and_intros <;> first | decide +kernel | rfl⟩,
   ⟨(rings [0x310, 0x702, 0x200, 8]).holds (cells (D + 0x200) [1, 0x300, 8] ++ cells (D + 0x300) [1]), 2, bodyAt ((rings
    [0x310, 0x702, 0x200, 8]).holds (cells (D + 0x200) [1, 0x300, 8] ++ cells (D + 0x300) [1])), fetched ((rings [0x310,
    0x702, 0x200, 8]).holds (cells (D + 0x200) [1, 0x300, 8] ++ cells (D + 0x300) [1])), rasterReads ((rings [0x310, 0x702,
    0x200, 8]).holds (cells (D + 0x200) [1, 0x300, 8] ++ cells (D + 0x300) [1])) (D + 0x200) 64, (rasterReads ((rings
    [0x310, 0x702, 0x200, 8]).holds (cells (D + 0x200) [1, 0x300, 8] ++ cells (D + 0x300) [1])) (D + 0x200) 64).s.gfxRead 2
    (D + 0x300) 32,
    by unfold WorkAfter NothingAsked; and_intros <;> first | decide +kernel | rfl⟩,
   ⟨(rings [0x310, 1, 0x200, 8]).holds computeCells, 2, bodyAt ((rings [0x310, 1, 0x200, 8]).holds computeCells), fetched
    ((rings [0x310, 1, 0x200, 8]).holds computeCells), rasterReads ((rings [0x310, 1, 0x200, 8]).holds computeCells) (D +
    0x200) 128, (rasterReads ((rings [0x310, 1, 0x200, 8]).holds computeCells) (D + 0x200) 128).s.gfxFetch 2 (D + 0x300) 64,
    ((rasterReads ((rings [0x310, 1, 0x200, 8]).holds computeCells) (D + 0x200) 128).s.gfxFetch 2 (D + 0x300) 64).s.gfxFetch
    2 (D + 0x300) 80, slice (((rasterReads ((rings [0x310, 1, 0x200, 8]).holds computeCells) (D + 0x200) 128).s.gfxFetch 2
    (D + 0x300) 64).s.gfxFetch 2 (D + 0x300) 80).bytes 0 80,
    by unfold WorkAfter NothingAsked; and_intros <;> first | decide +kernel | rfl⟩,
   ⟨(rings [0x310, 1, 0x200, 8, 0]).holds (cells (D + 0x200) [0x300, 8, 0, 0, 0, 0, 0, 0, 0, 1]), 2, bodyAt ((rings [0x310,
    1, 0x200, 8, 0]).holds (cells (D + 0x200) [0x300, 8, 0, 0, 0, 0, 0, 0, 0, 1])), fetched ((rings [0x310, 1, 0x200, 8,
    0]).holds (cells (D + 0x200) [0x300, 8, 0, 0, 0, 0, 0, 0, 0, 1])), rasterReads ((rings [0x310, 1, 0x200, 8, 0]).holds
    (cells (D + 0x200) [0x300, 8, 0, 0, 0, 0, 0, 0, 0, 1])) (D + 0x200) 128,
    by unfold WorkAfter NothingAsked; and_intros <;> first | decide +kernel | rfl⟩,
   ⟨rings [0x220, 0x210, 8], 2, bodyAt (rings [0x220, 0x210, 8]), fetched (rings [0x220, 0x210, 8]), by decide +kernel⟩,
   ⟨(rings [0x220, 0x200, 8]).holds (cells (D + 0x200) [3]), 2, bodyAt ((rings [0x220, 0x200, 8]).holds (cells (D + 0x200)
    [3])), fetched ((rings [0x220, 0x200, 8]).holds (cells (D + 0x200) [3])), rasterReads ((rings [0x220, 0x200, 8]).holds
    (cells (D + 0x200) [3])) (D + 0x200) 320,
    by and_intros <;> first | decide +kernel | rfl⟩,
   ⟨((rings [0x220, 0x200, 8]).holds descCells).ctxIs (fun x => { x with pipe := some ⟨true, 8, 0, 0⟩ }), 2, bodyAt (((rings
    [0x220, 0x200, 8]).holds descCells).ctxIs (fun x => { x with pipe := some ⟨true, 8, 0, 0⟩ })), fetched (((rings [0x220,
    0x200, 8]).holds descCells).ctxIs (fun x => { x with pipe := some ⟨true, 8, 0, 0⟩ })), rasterReads (((rings [0x220,
    0x200, 8]).holds descCells).ctxIs (fun x => { x with pipe := some ⟨true, 8, 0, 0⟩ })) (D + 0x200) 320,
    by and_intros <;> first | decide +kernel | rfl⟩,
   ⟨(rings [0x220, 0x200, 8, 0]).holds descCells, 2, bodyAt ((rings [0x220, 0x200, 8, 0]).holds descCells), fetched ((rings
    [0x220, 0x200, 8, 0]).holds descCells), rasterReads ((rings [0x220, 0x200, 8, 0]).holds descCells) (D + 0x200) 320,
    by unfold WorkAfter; and_intros <;> first | decide +kernel | rfl⟩,
   ⟨((((rings [0x220, 0x200, 8, 0]).holds descCells).setCtx 3 { CtxState.initial with pass := some (passIn []) }).setGfxCore
    0 (some ⟨3, true⟩)), 2, bodyAt (((((rings [0x220, 0x200, 8, 0]).holds descCells).setCtx 3
    { CtxState.initial with pass := some (passIn []) }).setGfxCore 0 (some ⟨3, true⟩))), fetched (((((rings [0x220, 0x200,
    8, 0]).holds descCells).setCtx 3 { CtxState.initial with pass := some (passIn []) }).setGfxCore 0 (some ⟨3, true⟩))),
    rasterReads (((((rings [0x220, 0x200, 8, 0]).holds descCells).setCtx 3
    { CtxState.initial with pass := some (passIn []) }).setGfxCore 0 (some ⟨3, true⟩))) (D + 0x200) 320,
    by unfold NothingAsked; and_intros <;> first | decide +kernel | rfl⟩,
   ⟨(rings [0x21]).ctxIs (fun x => { x with pass := some (passIn []) }), 2, bodyAt ((rings [0x21]).ctxIs (fun x =>
    { x with pass := some (passIn []) })), fetched ((rings [0x21]).ctxIs (fun x => { x with pass := some (passIn []) })),
    passIn [], by unfold PhysicalOwner NothingAsked; decide +kernel⟩,
   ⟨(rings [0x21]).ctxIs (fun x => { x with pass := some { passIn [] with binned := true } }), 2, bodyAt ((rings
    [0x21]).ctxIs (fun x => { x with pass := some { passIn [] with binned := true } })), fetched ((rings [0x21]).ctxIs (fun
    x => { x with pass := some { passIn [] with binned := true } })), by unfold NothingAsked; decide +kernel⟩⟩

/-- The hypotheses of RasterDraws can be met. -/
theorem witness_RasterDraws :
    (∃ (s : State) (c : Fin 64) (b : List W32) (r : State) (p : PassState) (w : DrawWork) (tp m : Nat), packetAt s c = some
    (34, b, r) ∧ (s.ctx c).pass = some p ∧ s.samplesMatch c = true ∧ WorkAfter s c 5 ∧ Draws s c tp ∧ m = min w.prims.length
    (primitives tp (dword b 0) * dword b 1))
    ∧ (∃ (s : State) (c : Fin 64) (b : List W32) (r : State) (p : PassState) (w : DrawWork) (tp m : Nat), packetAt s c =
    some (35, b, r) ∧ (s.ctx c).pass = some p ∧ s.samplesMatch c = true ∧ WorkAfter s c 6 ∧ Draws s c tp ∧ ((∃ e ∈ (s.ctx
    c).bindings, e.type = 3)) ∧ m = min w.prims.length (primitives tp (dword b 0) * dword b 1))
    ∧ (∃ (s : State) (c : Fin 64) (b : List W32) (r : State) (p : PassState) (_ : List DrawWork) (tp : Nat), packetAt s c =
    some (36, b, r) ∧ (s.ctx c).pass = some p ∧ s.samplesMatch c = true ∧ WorkAfter s c 5 ∧ Draws s c tp ∧ PhysicalOwner s
    c)
    ∧ (∃ (s : State) (c : Fin 64) (b : List W32) (r : State) (p : PassState) (_ : List DrawWork) (tp : Nat), packetAt s c =
    some (37, b, r) ∧ (s.ctx c).pass = some p ∧ s.samplesMatch c = true ∧ WorkAfter s c 5 ∧ Draws s c tp ∧ ((∃ e ∈ (s.ctx
    c).bindings, e.type = 3)) ∧ PhysicalOwner s c)
    ∧ (∃ (s : State) (c : Fin 64) (b : List W32) (r : State) (_ : DrawWork), packetAt s c = some (34, b, r) ∧ (WorkAfter s c
    5 ∨ NothingAsked s c) ∧ s.samplesMatch c = true ∧ ((∀ x, s.boundPipeline c = some x → u64 x 16 ≠ 0)))
    ∧ (∃ (s : State) (c : Fin 64) (b : List W32) (r : State) (_ : DrawWork), packetAt s c = some (35, b, r) ∧ (WorkAfter s c
    6 ∨ NothingAsked s c) ∧ s.samplesMatch c = true ∧ ((∀ e ∈ (s.ctx c).bindings, e.type ≠ 3)))
    ∧ (∃ (s : State) (c : Fin 64) (w : DrawWork) (l : List DrawWork) (x : List ShaderOp) (e : Nat × Instr) (op : Nat) (b :
    List W32) (r : State), packetAt s c = some (op, b, r) ∧ 34 ≤ op ∧ op ≤ 37 ∧ s.samplesMatch c = false ∧ e ∈
    packetCommands c w l x ∧ e.1 = op)
    ∧ (∃ (s : State) (c : Fin 64) (b : List W32) (r : State) (y : List Byte) (p : PipeInfo) (w : List ShaderOp) (q :
    PacketEffect), packetAt s c = some (48, b, r) ∧ WorkAfter s c 4 ∧ s.boundPipeline c = some y ∧ u64 y 16 ≠ 0 ∧ (s.ctx
    c).pipe = some p ∧ dword b 0 * dword b 1 * dword b 2 ≠ 0 ∧ q = (r.launch c b [] (residentGroups p)).shaderWork c w)
    ∧ (∃ (s : State) (c : Fin 64) (b : List W32) (r : State) (_ : List ShaderOp), packetAt s c = some (48, b, r) ∧
    (WorkAfter s c 4 ∨ NothingAsked s c) ∧ (((∀ y, s.boundPipeline c = some y → u64 y 16 = 0) ∨ dword b 0 * dword b 1 *
    dword b 2 = 0)))
    ∧ (∃ (s : State) (c : Fin 64) (b : List W32) (r : State) (v : Fetched) (y : List Byte) (p : PipeInfo) (w : List
    ShaderOp) (q : PacketEffect), packetAt s c = some (49, b, r) ∧ WorkAfter s c 3 ∧ v = r.gfxRead c (dword2 b 0) 12 ∧
    v.fault = none ∧ s.boundPipeline c = some y ∧ u64 y 16 ≠ 0 ∧ (s.ctx c).pipe = some p ∧ dword (dwordsOf v.bytes) 0 *
    dword (dwordsOf v.bytes) 1 * dword (dwordsOf v.bytes) 2 ≠ 0 ∧ q = (v.s.launch c (dwordsOf v.bytes) [] (residentGroups
    p)).shaderWork c w)
    ∧ (∃ (s : State) (c : Fin 64) (b : List W32) (r : State) (a : Nat) (_ : List ShaderOp), packetAt s c = some (49, b, r) ∧
    (r.gfxRead c (dword2 b 0) 12).fault = some a) :=
  ⟨⟨((rings [0x422, 7, 2, 0, 0, 0]).ctxIs (fun x =>
    { x with pass := some (passIn [0, 0, 2]), bindings := [⟨1, 0, trianglePipe 2⟩] })), 2, bodyAt (((rings [0x422, 7, 2, 0,
    0, 0]).ctxIs (fun x => { x with pass := some (passIn [0, 0, 2]), bindings := [⟨1, 0, trianglePipe 2⟩] }))), fetched
    (((rings [0x422, 7, 2, 0, 0, 0]).ctxIs (fun x =>
    { x with pass := some (passIn [0, 0, 2]), bindings := [⟨1, 0, trianglePipe 2⟩] }))), passIn [0, 0, 2], threePrims, 3, 3,
    by unfold WorkAfter Draws; decide +kernel⟩,
   ⟨((rings [0x523, 7, 2, 0, 0, 0, 0]).ctxIs (fun x =>
    { x with pass := some (passIn [0, 0, 2]), bindings := [⟨1, 0, trianglePipe 2⟩, ⟨3, 0, bytesOf [(1, 6), (4, 8), (8, 64),
        (12, 1)]⟩] })), 2, bodyAt (((rings [0x523, 7, 2, 0, 0, 0, 0]).ctxIs (fun x =>
    { x with pass := some (passIn [0, 0, 2]), bindings := [⟨1, 0, trianglePipe 2⟩, ⟨3, 0, bytesOf [(1, 6), (4, 8), (8, 64),
        (12, 1)]⟩] }))), fetched (((rings [0x523, 7, 2, 0, 0, 0, 0]).ctxIs (fun x =>
    { x with pass := some (passIn [0, 0, 2]), bindings := [⟨1, 0, trianglePipe 2⟩, ⟨3, 0, bytesOf [(1, 6), (4, 8), (8, 64),
        (12, 1)]⟩] }))), passIn [0, 0, 2], threePrims, 3, 3, by unfold WorkAfter Draws; decide +kernel⟩,
   ⟨((rings [0x424, 0x200, 8, 2, 16, 0]).holds (cells (D + 0x200) [3, 1, 0, 0, 6, 1])).ctxIs (fun x =>
    { x with pass := some (passIn [0, 0, 2]), bindings := [⟨1, 0, trianglePipe 2⟩] }), 2, bodyAt (((rings [0x424, 0x200, 8,
    2, 16, 0]).holds (cells (D + 0x200) [3, 1, 0, 0, 6, 1])).ctxIs (fun x =>
    { x with pass := some (passIn [0, 0, 2]), bindings := [⟨1, 0, trianglePipe 2⟩] })), fetched (((rings [0x424, 0x200, 8,
    2, 16, 0]).holds (cells (D + 0x200) [3, 1, 0, 0, 6, 1])).ctxIs (fun x =>
    { x with pass := some (passIn [0, 0, 2]), bindings := [⟨1, 0, trianglePipe 2⟩] })), passIn [0, 0, 2], [threePrims,
    threePrims], 3, by unfold WorkAfter Draws PhysicalOwner; decide +kernel⟩,
   ⟨((rings [0x425, 0x200, 8, 2, 20, 0]).holds (cells (D + 0x200) [3, 1, 0, 0, 0, 6, 1])).ctxIs (fun x =>
    { x with pass := some (passIn [0, 0, 2]), bindings := [⟨1, 0, trianglePipe 2⟩, ⟨3, 0, bytesOf [(1, 6), (4, 8), (8, 64),
        (12, 1)]⟩] }), 2, bodyAt (((rings [0x425, 0x200, 8, 2, 20, 0]).holds (cells (D + 0x200) [3, 1, 0, 0, 0, 6,
    1])).ctxIs (fun x =>
    { x with pass := some (passIn [0, 0, 2]), bindings := [⟨1, 0, trianglePipe 2⟩, ⟨3, 0, bytesOf [(1, 6), (4, 8), (8, 64),
        (12, 1)]⟩] })), fetched (((rings [0x425, 0x200, 8, 2, 20, 0]).holds (cells (D + 0x200) [3, 1, 0, 0, 0, 6, 1])).ctxIs
    (fun x =>
    { x with pass := some (passIn [0, 0, 2]), bindings := [⟨1, 0, trianglePipe 2⟩, ⟨3, 0, bytesOf [(1, 6), (4, 8), (8, 64),
        (12, 1)]⟩] })), passIn [0, 0, 2], [threePrims, threePrims], 3,
    by unfold WorkAfter Draws PhysicalOwner; decide +kernel⟩,
   ⟨(rings [0x422, 7, 2, 0, 0]).ctxIs (fun x => { x with pass := some (passIn [0, 0, 2]) }), 2, bodyAt ((rings [0x422, 7, 2,
    0, 0]).ctxIs (fun x => { x with pass := some (passIn [0, 0, 2]) })), fetched ((rings [0x422, 7, 2, 0, 0]).ctxIs (fun x
    => { x with pass := some (passIn [0, 0, 2]) })), threePrims, by unfold WorkAfter NothingAsked; decide +kernel⟩,
   ⟨(rings [0x523, 7, 2, 0, 0, 0]).ctxIs (fun x =>
    { x with pass := some (passIn [0, 0, 2]), bindings := [⟨1, 0, trianglePipe 2⟩] }), 2, bodyAt ((rings [0x523, 7, 2, 0, 0,
    0]).ctxIs (fun x => { x with pass := some (passIn [0, 0, 2]), bindings := [⟨1, 0, trianglePipe 2⟩] })), fetched ((rings
    [0x523, 7, 2, 0, 0, 0]).ctxIs (fun x =>
    { x with pass := some (passIn [0, 0, 2]), bindings := [⟨1, 0, trianglePipe 2⟩] })), threePrims,
    by unfold WorkAfter NothingAsked; decide +kernel⟩,
   ⟨(rings [0x422, 7, 2, 0, 0]).ctxIs (fun x =>
    { x with pass := some (passIn [0, 0, 2]), bindings := [⟨1, 0, trianglePipe 4⟩] }), 2, threePrims, [], [], (34, .draw 2
    threePrims), 34, bodyAt ((rings [0x422, 7, 2, 0, 0]).ctxIs (fun x =>
    { x with pass := some (passIn [0, 0, 2]), bindings := [⟨1, 0, trianglePipe 4⟩] })), fetched ((rings [0x422, 7, 2, 0,
    0]).ctxIs (fun x => { x with pass := some (passIn [0, 0, 2]), bindings := [⟨1, 0, trianglePipe 4⟩] })),
    by decide +kernel⟩,
   ⟨(rings [0x330, 2, 1, 1, 0]).ctxIs (fun x =>
    { x with bindings := [⟨1, 0, bytesOf [(17, 3), (20, 8)]⟩], pipe := some ⟨false, 40, 4096, 32⟩ }), 2, bodyAt ((rings
    [0x330, 2, 1, 1, 0]).ctxIs (fun x =>
    { x with bindings := [⟨1, 0, bytesOf [(17, 3), (20, 8)]⟩], pipe := some ⟨false, 40, 4096, 32⟩ })), fetched ((rings
    [0x330, 2, 1, 1, 0]).ctxIs (fun x =>
    { x with bindings := [⟨1, 0, bytesOf [(17, 3), (20, 8)]⟩], pipe := some ⟨false, 40, 4096, 32⟩ })), bytesOf [(17, 3),
    (20, 8)], ⟨false, 40, 4096, 32⟩, [.store 0 (D + 0x200) [7]], ((fetched ((rings [0x330, 2, 1, 1, 0]).ctxIs (fun x =>
    { x with bindings := [⟨1, 0, bytesOf [(17, 3), (20, 8)]⟩], pipe := some ⟨false, 40, 4096, 32⟩ }))).launch 2 (bodyAt
    ((rings [0x330, 2, 1, 1, 0]).ctxIs (fun x =>
    { x with bindings := [⟨1, 0, bytesOf [(17, 3), (20, 8)]⟩], pipe := some ⟨false, 40, 4096, 32⟩ }))) [] 32).shaderWork 2
    ([.store 0 (D + 0x200) [7]]),
    by unfold WorkAfter; and_intros <;> first | decide +kernel | rfl⟩,
   ⟨(rings [0x330, 2, 0, 1]).ctxIs (fun x =>
    { x with bindings := [⟨1, 0, bytesOf [(17, 3), (20, 8)]⟩], pipe := some ⟨false, 40, 4096, 32⟩ }), 2, bodyAt ((rings
    [0x330, 2, 0, 1]).ctxIs (fun x =>
    { x with bindings := [⟨1, 0, bytesOf [(17, 3), (20, 8)]⟩], pipe := some ⟨false, 40, 4096, 32⟩ })), fetched ((rings
    [0x330, 2, 0, 1]).ctxIs (fun x =>
    { x with bindings := [⟨1, 0, bytesOf [(17, 3), (20, 8)]⟩], pipe := some ⟨false, 40, 4096, 32⟩ })), [.store 0 (D + 0x200)
    [7]], by unfold WorkAfter NothingAsked; decide +kernel⟩,
   ⟨((rings [0x231, 0x200, 8, 0]).holds (cells (D + 0x200) [2, 1, 1])).ctxIs (fun x =>
    { x with bindings := [⟨1, 0, bytesOf [(17, 3), (20, 8)]⟩], pipe := some ⟨false, 40, 4096, 32⟩ }), 2, bodyAt (((rings
    [0x231, 0x200, 8, 0]).holds (cells (D + 0x200) [2, 1, 1])).ctxIs (fun x =>
    { x with bindings := [⟨1, 0, bytesOf [(17, 3), (20, 8)]⟩], pipe := some ⟨false, 40, 4096, 32⟩ })), fetched (((rings
    [0x231, 0x200, 8, 0]).holds (cells (D + 0x200) [2, 1, 1])).ctxIs (fun x =>
    { x with bindings := [⟨1, 0, bytesOf [(17, 3), (20, 8)]⟩], pipe := some ⟨false, 40, 4096, 32⟩ })), (fetched (((rings
    [0x231, 0x200, 8, 0]).holds (cells (D + 0x200) [2, 1, 1])).ctxIs (fun x =>
    { x with bindings := [⟨1, 0, bytesOf [(17, 3), (20, 8)]⟩], pipe := some ⟨false, 40, 4096, 32⟩ }))).gfxRead 2 (D + 0x200)
    12, bytesOf [(17, 3), (20, 8)], ⟨false, 40, 4096, 32⟩, [.store 0 (D + 0x200) [7]], (((fetched (((rings [0x231, 0x200, 8,
    0]).holds (cells (D + 0x200) [2, 1, 1])).ctxIs (fun x =>
    { x with bindings := [⟨1, 0, bytesOf [(17, 3), (20, 8)]⟩], pipe := some ⟨false, 40, 4096, 32⟩ }))).gfxRead 2 (D + 0x200)
    12).s.launch 2 (dwordsOf ((fetched (((rings [0x231, 0x200, 8, 0]).holds (cells (D + 0x200) [2, 1, 1])).ctxIs (fun x =>
    { x with bindings := [⟨1, 0, bytesOf [(17, 3), (20, 8)]⟩], pipe := some ⟨false, 40, 4096, 32⟩ }))).gfxRead 2 (D + 0x200)
    12).bytes) [] 32).shaderWork 2 ([.store 0 (D + 0x200) [7]]),
    by unfold WorkAfter; and_intros <;> first | decide +kernel | rfl⟩,
   ⟨guestRing 1023 [0x231, 0x8000, 0], 2, bodyAt (guestRing 1023 [0x231, 0x8000, 0]), fetched (guestRing 1023 [0x231,
    0x8000, 0]), 0x8000, [], by decide +kernel⟩⟩

/-- The hypotheses of RasterContexts can be met. -/
theorem witness_RasterContexts :
    (∃ (s : State) (owner : Fin 72) (q : Fin 16) (tail : BitVec 32) (c : Nat), s.day = true ∧ s.boundCtx owner q = some c ∧
    s.pagesOpen owner = true ∧ tail.toNat % 2 ^ 22 < s.ringSize c ∧ s.ctxState c ≠ ctxIdle)
    ∧ (∃ (s : State) (owner : Fin 72) (q : Fin 16) (tail : BitVec 32) (c : Nat), s.day = true ∧ s.boundCtx owner q = some c
    ∧ s.pagesOpen owner = true ∧ tail.toNat % 2 ^ 22 < s.ringSize c ∧ s.ctxState c = ctxIdle ∧ tail.toNat % 2 ^ 22 ≠ s.fget
    F.CTX_HEAD.index c ∧ s.fget F.CTX_HEAD.index c < s.ringSize c)
    ∧ (∃ (s : State) (owner : Fin 72) (q : Fin 16) (tail : BitVec 32) (c : Nat), s.day = true ∧ s.boundCtx owner q = some c
    ∧ s.pagesOpen owner = true ∧ s.ringSize c ≤ tail.toNat % 2 ^ 22 ∧ s.ctxState c ≠ ctxFaulted ∧ s.ctxState c ≠ ctxHung)
    ∧ (∃ (s : State) (owner : Fin 72) (q : Fin 16) (tail : BitVec 32) (c : Nat), s.day = true ∧ s.boundCtx owner q = some c
    ∧ s.pagesOpen owner = true ∧ s.ringSize c ≤ tail.toNat % 2 ^ 22 ∧ s.ctxState c = ctxHung ∧ (s.ctx c).pendFault = none)
    ∧ (∃ (s : State) (owner : Fin 72) (q : Fin 16) (_ : BitVec 32), s.day = true ∧ ((s.boundCtx owner q = none ∨ s.pagesOpen
    owner = false)))
    ∧ (∃ (s : State) (_ : Fin 72) (_ : Fin 16) (_ : BitVec 32), s.day = false)
    ∧ (∃ (s : State) (owner : BitVec 8) (q : Fin 16) (c : Nat), s.day = true ∧ s.ctxAllocError owner.toNat q = 0 ∧
    s.freeSlot = some c)
    ∧ (∃ (s : State) (owner : BitVec 8) (q : Fin 16), s.day = true ∧ s.ctxAllocError owner.toNat q ≠ 0)
    ∧ (∃ (s : State) (c : Fin 64), s.day = true ∧ (s.ctxState c = ctxIdle ∨ s.ctxState c = ctxReady ∨ s.ctxState c =
    ctxWaiting))
    ∧ (∃ (s : State) (c : Fin 64), s.day = true ∧ s.ctxState c = ctxRunning)
    ∧ (∃ (s : State) (c : Fin 64), s.day = true ∧ s.ctxState c = ctxHung)
    ∧ (∃ (s : State) (c : Fin 64), s.day = true ∧ (s.ctxState c = ctxFree ∨ s.ctxState c = ctxFrozen ∨ s.ctxState c =
    ctxFaulted))
    ∧ (∃ (s : State) (c : Fin 64), s.day = true ∧ s.ctxState c = ctxFrozen)
    ∧ (∃ (s : State) (c : Fin 64), s.day = true ∧ s.ctxState c ≠ ctxFrozen)
    ∧ (∃ (s : State) (c : Fin 64), s.day = true ∧ s.ctxState c ≠ ctxFree ∧ s.ctxState c ≠ ctxHung ∧ s.ctxState c ≠
    ctxRunning)
    ∧ (∃ (s : State) (c : Fin 64), s.day = true ∧ s.ctxState c = ctxRunning)
    ∧ (∃ (s : State) (c : Fin 64), s.day = true ∧ s.ctxState c = ctxHung)
    ∧ (∃ (s : State) (a : Agent) (_ : Fin 64) (_ : BitVec 8) (_ : Fin 16), (a ≠ .manager ∨ s.day = false))
    ∧ (∃ (s : State) (c : Fin 64) (d : Nat), s.day = true ∧ s.ctxState c = ctxRunning ∧ d ∈ s.gfx.order ∧ s.ctxState d =
    ctxReady ∧ s.fget F.CTX_CFG.priority d = s.fget F.CTX_CFG.priority c ∧ 0 < s.fget F.CTX_CFG.max_cores d)
    ∧ (∃ (s : State) (c : Fin 64), s.ctxState c ≠ ctxRunning)
    ∧ (∃ (s : State) (c : Fin 64), s.day = true ∧ s.ctxState c = ctxRunning ∧ (s.ctx c).preempt = true ∧ NothingAsked s c ∧
    (PhysicalOwner s c ∨ ((s.saveArea c).2.ctx c).pendFault = none))
    ∧ (∃ (s : State) (c : Fin 64), s.day = true ∧ (s.ctxState c = ctxRunning ∨ s.ctxState c = ctxHung) ∧ (s.ctx c).pendFault
    = none ∧ (((s.ctx c).destroy = true ∨ s.flag F.CTX_STATE.destroy_pending c = true)))
    ∧ (∃ (s : State) (c : Fin 64), s.day = true ∧ (s.ctxState c = ctxRunning ∨ s.ctxState c = ctxHung) ∧ (s.ctx c).pendFault
    = none ∧ (s.ctx c).destroy = false ∧ s.flag F.CTX_STATE.destroy_pending c = false ∧ (s.ctx c).freeze = true)
    ∧ (∃ (s : State) (c : Fin 64) (f : Nat × Nat × Nat), s.day = true ∧ (s.ctxState c = ctxRunning ∨ s.ctxState c = ctxHung)
    ∧ (s.ctx c).pendFault = some f)
    ∧ (∃ (s : State) (c : Fin 64), s.stopAsked c = false)
    ∧ (∃ (s : State) (c : Fin 64), s.day = true ∧ s.ctxState c = ctxRunning ∧ (((s.ctx c).preempt = true ∨ (s.ctx c).freeze
    = true ∨ (s.ctx c).destroy = true)))
    ∧ (∃ (s : State) (c : Fin 64), (s.ctxState c ≠ ctxRunning ∨ NothingAsked s c ∧ (s.ctx c).preempt = false)) :=
  ⟨⟨ring 65 ctxRunning [0], 65, 0, 30, 2, by decide +kernel⟩,
   ⟨ring 0 ctxIdle [], 0, 0, 1023, 2, by decide +kernel⟩,
   ⟨ring 0 ctxFrozen [0], 0, 0, 1024, 2, by decide +kernel⟩,
   ⟨ring 0 ctxHung [0], 0, 0, 1024, 2, by decide +kernel⟩,
   ⟨ring 0 ctxIdle [], 0, 1, 0, by decide +kernel⟩,
   ⟨(ring 0 ctxIdle []).inPower 1, 5, 1, 0, by decide +kernel⟩,
   ⟨ring 0 ctxIdle [], 0, 1, 0, by decide +kernel⟩,
   ⟨ring 0 ctxIdle [], 72, 1, by decide +kernel⟩,
   ⟨(ring 0 ctxWaiting [0]).ctxIs (fun x => { x with wait := some (.untilSt 6) }), 2, by decide +kernel⟩,
   ⟨rings [0], 2, by decide +kernel⟩,
   ⟨ring 0 ctxHung [0], 2, by decide +kernel⟩,
   ⟨ring 0 ctxFaulted [0], 2, by decide +kernel⟩,
   ⟨ring 0 ctxFrozen [0], 2, by decide +kernel⟩,
   ⟨ring 0 ctxFaulted [0], 2, by decide +kernel⟩,
   ⟨ring 0 ctxFaulted [0], 2, by decide +kernel⟩,
   ⟨rings [0], 2, by decide +kernel⟩,
   ⟨ring 0 ctxHung [0], 2, by decide +kernel⟩,
   ⟨ring 0 ctxFrozen [0], .inner, 2, 0, 1, by decide +kernel⟩,
   ⟨let s := (rings [0]).fset F.CTX_STATE.state ctxReady 3; { s.fset F.CTX_CFG.max_cores 4 3 with gfx := { s.gfx with order := [2, 3] } }, 2, 3, by decide +kernel⟩,
   ⟨ring 0 ctxReady [0], 2, by decide +kernel⟩,
   ⟨(rings [0]).ctxIs (fun x => { x with preempt := true }), 2, by unfold PhysicalOwner NothingAsked; decide +kernel⟩,
   ⟨(ring 0 ctxHung [0]).ctxIs (fun x => { x with destroy := true }), 2, by decide +kernel⟩,
   ⟨(rings [0]).ctxIs (fun x => { x with freeze := true }), 2, by decide +kernel⟩,
   ⟨(rings [0]).ctxIs (fun x => { x with pendFault := some (4, 9, 0) }), 2, (4, 9, 0), by decide +kernel⟩,
   ⟨rings [0], 2, by decide +kernel⟩,
   ⟨(rings [0]).ctxIs (fun x => { x with destroy := true }), 2, by decide +kernel⟩,
   ⟨rings [0], 2, by unfold NothingAsked; decide +kernel⟩⟩

/-- The hypotheses of LayersAndWarp can be met. -/
theorem witness_LayersAndWarp :
    (∃ (s : State) (a : Agent) (n : Fin 48), LayerReach s a n ∧ s.commitOk n (s.shadowSet n) = true)
    ∧ (∃ (s : State) (a : Agent) (n : Fin 48), LayerReach s a n ∧ s.commitOk n (s.shadowSet n) = false)
    ∧ (∃ (s : State) (a : Agent) (n : Fin 48) (ctrl : W32) (f : QFrame), LayerReach s a n ∧ ctrl.getLsbD 18 = false ∧ f =
    s.stagedFrame n ctrl ∧ s.submitError n f.addr.toNat f.nb f.da f.ref = 0)
    ∧ (∃ (s : State) (a : Agent) (n : Fin 48) (ctrl : W32) (f : QFrame), LayerReach s a n ∧ ctrl.getLsbD 18 = false ∧ f =
    s.stagedFrame n ctrl ∧ s.submitError n f.addr.toNat f.nb f.da f.ref ≠ 0)
    ∧ (∃ (s : State) (a : Agent) (n : Fin 48) (ctrl : W32), LayerReach s a n ∧ ctrl.getLsbD 18 = true)
    ∧ (∃ (s : State) (a : Agent) (n : Fin 48), LayerReach s a n ∧ (s.layer n).rel.length + (s.layer n).queue.length ≤ 16)
    ∧ (∃ (s : State) (a : Agent) (n : Fin 48) (f : QFrame), LayerReach s a n ∧ (s.layer n).queue = [f] ∧ 16 ≤ (s.layer
    n).rel.length)
    ∧ (∃ (s : State) (a : Agent) (n : Fin 48), LayerReach s a n)
    ∧ (∃ (s : State) (a : Agent) (n : Fin 48) (_ : W32), s.awake = true ∧ (((∃ i, a = .guest i) ∨ (∃ p, a = .partition p)))
    ∧ s.pageSeven a n = false)
    ∧ (∃ (s : State) (a : Agent) (_ : Fin 48) (_ : W32), (s.awake = false ∨ (a ≠ .manager ∧ (∀ i, a ≠ .guest i) ∧ (∀ p, a ≠
    .partition p))))
    ∧ (∃ (s : State) (n : Fin 48) (bandSt : ST) (x : Int × Int × Int) (st : Nat), s.awake = true ∧ s.axisLocked n = true ∧
    s.contributes n = true ∧ st = s.axState (s.recipe.layerAxis n) ∧ x = warpTerms (s.layer n).live ((s.axisAt
    (s.recipe.layerAxis n) bandSt).1 - (s.layer n).pRef))
    ∧ (∃ (s : State) (n : Fin 48) (_ : ST), (s.awake = false ∨ s.axisLocked n = false ∨ s.contributes n = false))
    ∧ (∃ (s : State) (n : Fin 48) (f : QFrame), s.awake = true ∧ n.val < 8 ∧ s.recipe.layerUsed n = true ∧ (s.layer
    n).current = some f ∧ (s.layer n).copying = true ∧ s.inBlanking (s.recipe.layerOut n) = true)
    ∧ (∃ (s : State) (n : Fin 48) (f : QFrame), s.awake = true ∧ n.val < 8 ∧ s.recipe.layerUsed n = true ∧ (s.layer
    n).current = some f ∧ (s.layer n).copying = true ∧ s.inBlanking (s.recipe.layerOut n) = false)
    ∧ (∃ (s : State) (n : Fin 48), (8 ≤ n.val ∨ (s.layer n).copying = false)) :=
  ⟨⟨outAt lockLocked lnkUp, .manager, 9, by unfold LayerReach; decide +kernel⟩,
   ⟨(outAt lockLocked lnkUp).put .WARP_K 1 9, .manager, 9, by unfold LayerReach; decide +kernel⟩,
   ⟨(outAt lockLocked lnkUp).put .SUB_ADDR_LO 256 9, .manager, 9, 0x10007, ((outAt lockLocked lnkUp).put .SUB_ADDR_LO 256
    9).stagedFrame 9 0x10007, by unfold LayerReach; decide +kernel⟩,
   ⟨(outAt lockLocked lnkUp).put .SUB_ADDR_LO 255 9, .manager, 9, 7, ((outAt lockLocked lnkUp).put .SUB_ADDR_LO 255
    9).stagedFrame 9 7, by unfold LayerReach; decide +kernel⟩,
   ⟨(outAt lockLocked lnkUp).layerIs 9 (fun x => { x with queue := List.replicate 8 (frameOf 1 5 9) }), .manager, 9,
    0x40007, by unfold LayerReach; decide +kernel⟩,
   ⟨(outAt lockLocked lnkUp).layerIs 9 (fun x =>
    { x with queue := [frameOf 1 5 9, frameOf 2 5 9], rel := List.replicate 14 ⟨3, 1, 4⟩ }), .manager, 9,
    by unfold LayerReach; decide +kernel⟩,
   ⟨(outAt lockLocked lnkUp).layerIs 9 (fun x => { x with queue := [frameOf 1 5 9], rel := List.replicate 16 ⟨3, 1, 4⟩ }),
    .manager, 9, frameOf 1 5 9, by unfold LayerReach; decide +kernel⟩,
   ⟨(outAt lockLocked lnkUp).layerIs 9 (fun x => { x with rel := [⟨3, 1, 4⟩, ⟨4, 1, 9⟩] }), .manager, 9,
    by unfold LayerReach; decide +kernel⟩,
   ⟨outAt lockLocked lnkUp, .partition 2, 9, 7,
    by and_intros <;> first | decide +kernel | exact .inr ⟨2, rfl⟩⟩,
   ⟨(outAt lockLocked lnkUp), .inner, 9, 7,
    by and_intros; exact .inr (by and_intros <;> first | decide | nofun)⟩,
   ⟨warping, 10, 700, warpTerms ((warping).layer 10).live (((warping).axisAt 0 700).1 - ((warping).layer 10).pRef),
    (warping).axState 0, by decide +kernel⟩,
   ⟨outAt lockLocked lnkUp, 9, 700, by decide +kernel⟩,
   ⟨((cursored.layerIs 7 (fun x =>
    { x with current := some (frameOf 1 5 9), copying := true, old := [frameOf 3 5 9] })).put64 .CMP_OUT_FS_LO
    .CMP_OUT_FS_HI 4000 2).atSt 5000, 7, frameOf 1 5 9, by decide +kernel⟩,
   ⟨((cursored.layerIs 7 (fun x =>
    { x with current := some (frameOf 1 5 9), copying := true, old := [frameOf 3 5 9] })).put64 .CMP_OUT_FS_LO
    .CMP_OUT_FS_HI 4000 2).atSt 50000000, 7, frameOf 1 5 9, by decide +kernel⟩,
   ⟨cursored.layerIs 7 (fun x => { x with current := some (frameOf 1 5 9) }), 7, by decide +kernel⟩⟩

/-- The hypotheses of FrameStarts can be met. -/
theorem witness_FrameStarts :
    (∃ (s : State) (o : Fin 8) (_ : ST), s.scans o = true ∧ s.composing = true)
    ∧ (∃ (s : State) (o : Fin 8) (fs : ST) (n : Nat) (f g : QFrame), s.scans o = true ∧ s.composing = true ∧ n ∈
    s.recipe.layersOf o ∧ 8 ≤ n ∧ (s.layer n).leaving = false ∧ (s.layer n).shedding = false ∧ (s.layer n).pending = none ∧
    LayerSet.ctrl (s.layer n).live 1 = false ∧ (s.layer n).current = some g ∧ (s.layer n).queue = [f] ∧ s.eligible false f
    fs = true ∧ (s.layer n).rel.length < 16)
    ∧ (∃ (s : State) (o : Fin 8) (fs : ST) (n : Nat) (f g : QFrame), s.scans o = true ∧ s.composing = true ∧ n ∈
    s.recipe.layersOf o ∧ n < 8 ∧ (s.layer n).leaving = false ∧ (s.layer n).shedding = false ∧ (s.layer n).pending = none ∧
    LayerSet.ctrl (s.layer n).live 1 = false ∧ (s.layer n).current = some g ∧ (s.layer n).queue = [f] ∧ s.eligible false f
    fs = true)
    ∧ (∃ (s : State) (o : Fin 8) (fs : ST) (n : Nat) (f : QFrame), s.scans o = true ∧ s.composing = true ∧ n ∈
    s.recipe.layersOf o ∧ 8 ≤ n ∧ (s.layer n).leaving = false ∧ (s.layer n).shedding = false ∧ (s.layer n).queue = [f] ∧
    s.staleAt f fs = true ∧ (s.layer n).rel.length < 16)
    ∧ (∃ (s : State) (o : Fin 8) (_ : ST) (n : Nat), s.scans o = true ∧ s.composing = true ∧ n ∈ s.recipe.layersOf o ∧
    (s.layer n).leaving = false ∧ (s.layer n).shedding = true)
    ∧ (∃ (s : State) (o : Fin 8) (_ : ST) (n : Nat), s.scans o = true ∧ s.composing = true ∧ n ∈ s.recipe.layersOf o ∧
    (s.layer n).leaving = true ∧ (s.layer n).pending = none ∧ (s.layer n).queue = [])
    ∧ (∃ (s : State) (o : Fin 8) (_ : ST), s.scans o = true ∧ s.composing = false)
    ∧ (∃ (s : State) (o : Fin 8) (_ : ST), s.scans o = false)
    ∧ (∃ (s : State) (o : Fin 8) (fs : ST) (g : Grid) (e : Int), s.scans o = true ∧ s.oddHalf o = false ∧ s.stValid = true ∧
    s.tailRecipe.outLockSource o ≠ 0 ∧ s.targetGrid o = some g ∧ e = g.error32 fs (g.nearest fs) ∧ (s.lockOf o = lockLocked
    ∨ s.lockOf o = lockAligning))
    ∧ (∃ (s : State) (o : Fin 8) (_ : ST), s.scans o = true ∧ s.oddHalf o = false ∧ (s.tailRecipe.outLockSource o = 0 ∨
    s.stValid = false))
    ∧ (∃ (s : State) (o : Fin 8) (_ : ST), s.scans o = true ∧ s.oddHalf o = true) :=
  ⟨⟨((outAt lockLocked lnkUp).layerIs 9 (fun x =>
    { x with pending := some LayerSet.initial, queue := [frameOf 7 1 3, frameOf 8 1 90000000] })).atSt 5, 2, 16666666,
    by decide +kernel⟩,
   ⟨((outAt lockLocked lnkUp).atSt 5).layerIs 9 (fun x =>
    { x with current := some (frameOf 7 1 0), queue := [frameOf 8 10 12] }), 2, 10, 9, frameOf 8 10 12, frameOf 7 1 0,
    by decide +kernel⟩,
   ⟨((cursored).atSt 5).layerIs 7 (fun x => { x with current := some (frameOf 7 1 0), queue := [frameOf 8 10 12] }), 2, 10,
    7, frameOf 8 10 12, frameOf 7 1 0, by decide +kernel⟩,
   ⟨((outAt lockLocked lnkUp).atSt 5).layerIs 9 (fun x =>
    { x with current := some (frameOf 7 1 0), queue := [frameOf 8 10 12] }), 2, 12, 9, frameOf 8 10 12, by decide +kernel⟩,
   ⟨((outAt lockLocked lnkUp).atSt 5).layerIs 9 (fun x =>
    { x with current := some (frameOf 7 1 0), queue := [frameOf 8 10 12], shedding := true }), 2, 12, 9, by decide +kernel⟩,
   ⟨((outAt lockLocked lnkUp).atSt 5).layerIs 9 (fun x => { x with current := some (frameOf 7 1 0), leaving := true }), 2,
    12, 9, by decide +kernel⟩,
   ⟨((outAt lockLocked lnkUp).atSt 5).inPower 2, 2, 12, by decide +kernel⟩,
   ⟨day, 2, 10, by decide +kernel⟩,
   ⟨((outAt lockAligning lnkUp).atSt 5).outIs (fun x => { x with good := 7 }), 2, 16666667, (((outAt lockAligning
    lnkUp).atSt 5).outIs (fun x => { x with good := 7 })).outGrid 2, ((((outAt lockAligning lnkUp).atSt 5).outIs (fun x =>
    { x with good := 7 })).outGrid 2).error32 16666667 (((((outAt lockAligning lnkUp).atSt 5).outIs (fun x =>
    { x with good := 7 })).outGrid 2).nearest 16666667), by decide +kernel⟩,
   ⟨(outAt lockFreeRun lnkUp).outIs (fun x => { x with frames := 7 }), 2, 16666667, by decide +kernel⟩,
   ⟨((paired.fset F.OUT_STATUS.lock lockLocked 0).fset F.OUT_STATUS.lock lockAligning 1).put .OUT_LOCK_ERR 7 0, 1, 16666667,
    by decide +kernel⟩⟩

/-- The hypotheses of OutputsAndLinks can be met. -/
theorem witness_OutputsAndLinks :
    (∃ (s : State) (o : Fin 8), LoneOutput s o ∧ s.tailRecipe.outEnabled o = true ∧ s.lockOf o = 0)
    ∧ (∃ (s : State) (o : Fin 8), LoneOutput s o ∧ s.tailRecipe.outEnabled o = true ∧ s.lockOf o ≠ 0)
    ∧ (∃ (s : State) (o : Fin 8) (en : Bool), LoneOutput s o ∧ s.tailRecipe.outEnabled o = true ∧ s.outOn o = en)
    ∧ (∃ (s : State) (o : Fin 8) (_ : Bool), LoneOutput s o ∧ s.tailRecipe.outEnabled o = false)
    ∧ (∃ (s : State) (o : Fin 8), s.clocked .OUT = true ∧ s.tailRecipe.outPair o = true ∧ o.val % 2 = 0 ∧
    s.tailRecipe.outEnabled o = true ∧ s.tailRecipe.outEnabled (o + 1) = true ∧ s.lockOf o = 0 ∧ s.lockOf (o + 1) = 0)
    ∧ (∃ (s : State) (o : Fin 8) (_ : Bool), s.clocked .OUT = true ∧ s.oddHalf o = true)
    ∧ (∃ (s : State) (a : Agent) (_ : Fin 8) (_ : Bool), (a ≠ .manager ∨ s.clocked .OUT = false))
    ∧ (∃ (s : State) (o : Fin 8), LoneOutput s o ∧ s.tailRecipe.timingFits o (s.shadowTiming o) = true)
    ∧ (∃ (s : State) (o : Fin 8), LoneOutput s o ∧ s.tailRecipe.timingFits o (s.shadowTiming o) = false)
    ∧ (∃ (s : State) (o : Fin 8), LoneOutput s o ∧ s.lockOf o ≠ 0)
    ∧ (∃ (s : State) (o : Fin 8) (_ : Bool), s.tailRecipe.openLdi o = false ∧ s.dom.island ≠ .inReset ∧ s.lockOf o ≠ 0 ∧
    s.outSleeps o = false)
    ∧ (∃ (s : State) (o : Fin 8) (_ : Bool), s.tailRecipe.openLdi o = false ∧ s.dom.island ≠ .inReset ∧ (s.lockOf o = 0 ∨
    s.outSleeps o = true))
    ∧ (∃ (s : State) (o : Fin 8), s.tailRecipe.openLdi o = false ∧ s.dom.island ≠ .inReset ∧ s.lockOf o ≠ 0 ∧ s.outSleeps o
    = false ∧ s.flag F.OUT_STATUS.hpd o = true)
    ∧ (∃ (s : State) (o : Fin 8), s.tailRecipe.openLdi o = false ∧ s.dom.island ≠ .inReset ∧ s.linkOf o = lnkUp)
    ∧ (∃ (s : State) (o : Fin 8) (_ _ : Bool), (s.tailRecipe.openLdi o = true ∨ s.dom.island = .inReset))
    ∧ (∃ (s : State) (o : Fin 8), s.linkOf o = lnkTraining)
    ∧ (∃ (s : State) (o : Fin 8), s.linkOf o = lnkTraining)
    ∧ (∃ (s : State) (o : Fin 8) (_ : Bool), s.linkOf o ≠ lnkTraining)
    ∧ (∃ (s : State) (o : Fin 8), s.linkOf o = lnkFailed)
    ∧ (∃ (s : State) (o : Fin 8), s.linkOf o ≠ lnkFailed) :=
  ⟨⟨outAt 0 lnkDisabled, 2, by unfold LoneOutput; decide +kernel⟩,
   ⟨outAt lockLocked lnkUp, 2, by unfold LoneOutput; decide +kernel⟩,
   ⟨outAt 0 lnkDisabled, 2, false, by unfold LoneOutput; decide +kernel⟩,
   ⟨day, 2, true, by unfold LoneOutput; decide +kernel⟩,
   ⟨paired, 0, by decide +kernel⟩,
   ⟨paired, 1, true, by decide +kernel⟩,
   ⟨outAt lockLocked lnkUp, .inner, 2, true, by decide +kernel⟩,
   ⟨((outAt lockLocked lnkUp).outIs (fun x => { x with timing := { x.timing with vFront := 11 } })).atSt 5, 2,
    by unfold LoneOutput; decide +kernel⟩,
   ⟨(outAt lockLocked lnkUp).fset F.OUT_TIMING_V0.v_active 2001 2, 2, by unfold LoneOutput; decide +kernel⟩,
   ⟨outAt lockLocked lnkUp, 2, by unfold LoneOutput; decide +kernel⟩,
   ⟨outAt lockLocked lnkWaitHpd, 2, true, by decide +kernel⟩,
   ⟨outAt 0 lnkDisabled, 2, false, by decide +kernel⟩,
   ⟨(outAt lockLocked lnkTraining).fset F.OUT_STATUS.hpd 1 2, 2, by decide +kernel⟩,
   ⟨(outAt lockLocked lnkUp).fset F.OUT_STATUS.hpd 1 2, 2, by decide +kernel⟩,
   ⟨ldi, 2, true, false, by decide +kernel⟩,
   ⟨outAt lockLocked lnkTraining, 2, by decide +kernel⟩,
   ⟨outAt lockLocked lnkTraining, 2, by decide +kernel⟩,
   ⟨outAt lockLocked lnkUp, 2, true, by decide +kernel⟩,
   ⟨outAt lockLocked lnkFailed, 2, by decide +kernel⟩,
   ⟨outAt lockLocked lnkUp, 2, by decide +kernel⟩⟩

/-- The hypotheses of FreezeAndUnderrun can be met. -/
theorem witness_FreezeAndUnderrun :
    (∃ (s : State) (o : Fin 8) (_ : ST), s.scans o = true ∧ frzOn (s.out o).frzCtrl = true ∧ (s.out o).shouldChange = true ∧
    (s.out o).sigKnown = true ∧ (s.out o).sigs = (s.out o).signatures ∧ s.fget F.OUT_FRZ_COUNT.count o + 1 =
    F.OUT_FRZ_CTRL.frames.of (s.out o).frzCtrl ∧ s.flag F.OUT_STATUS.frozen o = false)
    ∧ (∃ (s : State) (o : Fin 8) (_ : ST), s.scans o = true ∧ frzOn (s.out o).frzCtrl = true ∧ (s.out o).shouldChange = true
    ∧ (s.out o).sigKnown = true ∧ (s.out o).sigs ≠ (s.out o).signatures)
    ∧ (∃ (s : State) (o : Fin 8) (_ : ST) (k : Nat), s.scans o = true ∧ k < 4)
    ∧ (∃ (s : State) (_ : Fin 8), s.clocked .OUT = true)
    ∧ (∃ (s : State) (o : Fin 8) (b : LineObs), s.scans o = true ∧ s.underruns o b = true)
    ∧ (∃ (s : State) (o : Fin 8) (b : LineObs), s.scans o = true ∧ s.underruns o b = false)
    ∧ (∃ (s : State) (o : Fin 8) (b : LineObs), s.scans o = true ∧ 1 ≤ b.line ∧ b.line ≤ (s.out o).timing.vActive ∧ s.linkOf
    o = lnkUp ∧ (s.out o).dark = false ∧ s.flag F.OUT_STATUS.substitute o = true ∧ s.mixes o = false)
    ∧ (∃ (s : State) (o : Fin 8) (_ : LineObs), s.scans o = false) :=
  ⟨⟨(((outAt lockLocked lnkUp).fset F.OUT_FRZ_COUNT.count 2 2).outIs (fun x =>
    { x with frzCtrl := 0x301, shouldChange := true, sigKnown := true, frzWin := [(0, 0x00010001)], sigAcc := [5, 6, 7, 8]
        })).outIs (fun x => { x with sigs := x.signatures }), 2, 16666666, by decide +kernel⟩,
   ⟨((outAt lockLocked lnkUp).fset F.OUT_FRZ_COUNT.count 2 2).outIs (fun x =>
    { x with frzCtrl := 0x301, shouldChange := true, sigKnown := true, frzWin := [(0, 0x00010001)], sigAcc := [5, 6, 7, 8]
        }), 2, 16666666, by decide +kernel⟩,
   ⟨((outAt lockLocked lnkUp).fset F.OUT_FRZ_COUNT.count 2 2).outIs (fun x =>
    { x with frzCtrl := 0, frzWin := [(0, 0x00010001)], sigAcc := [5, 6, 7, 8] }), 2, 16666666, 0, by decide +kernel⟩,
   ⟨outAt lockLocked lnkUp, 2, by decide +kernel⟩,
   ⟨(outAt lockLocked lnkUp), 2, ⟨700, [3, 4], false, false, [], [], []⟩, by decide +kernel⟩,
   ⟨(outAt lockLocked lnkUp), 2, ⟨701, [3, 4], false, false, [], [], []⟩, by decide +kernel⟩,
   ⟨((outAt lockLocked lnkUp).fset F.OUT_STATUS.substitute 1 2).outIs (fun x =>
    { x with timing := { x.timing with hActive := 3 } }), 2, ⟨1, [], false, false, [], [], [(1, 5)]⟩, by decide +kernel⟩,
   ⟨day, 2, ⟨1, [], false, false, [], [], []⟩, by decide +kernel⟩⟩

/-- The hypotheses of LockstepPairs can be met. -/
theorem witness_LockstepPairs :
    (∃ (s : State), s.islWorks = true)
    ∧ (∃ (s : State), s.islWorks = false)
    ∧ (∃ (s : State), s.islRuns = false)
    ∧ (∃ (s : State), s.islRuns = true ∧ s.flag F.ISL_STATUS.standby_ok = true)
    ∧ (∃ (s : State), s.islRuns = true ∧ s.flag F.ISL_STATUS.standby_ok = false)
    ∧ (∃ (s : State), s.islRuns = true ∧ s.isl.switching = true)
    ∧ (∃ (s : State), s.islRuns = true ∧ s.isl.switching = false)
    ∧ (∃ (s : State) (p : Fin 2), (s.pair p).testing = true ∧ s.dom.island = .running ∧ ((s.isl.switching = false ∨ p.val ≠
    s.fget F.ISL_STATUS.active_pair)) ∧ s.isl.firmware = true)
    ∧ (∃ (s : State) (p : Fin 2), (s.pair p).testing = true ∧ s.dom.island = .running ∧ s.isl.switching = false ∧
    s.isl.firmware = false ∧ s.pwr.state < 3)
    ∧ (∃ (s : State) (p : Fin 2), (s.pair p).testing = true ∧ s.dom.island = .running ∧ s.isl.switching = false ∧ (s.pair
    p).held = false ∧ 3 ≤ (recentFails s.islandTime (s.pair p).fails).length)
    ∧ (∃ (s : State) (p : Fin 2), (s.pair p).testing = true ∧ s.dom.island = .running ∧ s.isl.switching = false ∧ (s.pair
    p).held = false ∧ (recentFails s.islandTime (s.pair p).fails).length < 3)
    ∧ (∃ (s : State) (p : Fin 2) (_ : Bool), (s.pair p).testing = false)
    ∧ (∃ (s : State), s.dom.island ≠ .inReset)
    ∧ (∃ (s : State), s.dom.island = .inReset) :=
  ⟨⟨{ (outAt lockLocked lnkUp) with isl := { (outAt lockLocked lnkUp).isl with pend := [3, 4], seen := [4], work := [.heartbeat 2] } },
    by decide +kernel⟩,
   ⟨State.reset, by decide +kernel⟩,
   ⟨State.reset, by decide +kernel⟩,
   ⟨day.fset F.ISL_STATUS.standby_ok 1, by decide +kernel⟩,
   ⟨{ day with isl := { day.isl with switching := true } }, by decide +kernel⟩,
   ⟨{ day with isl := { day.isl with switching := true, work := [.heartbeat 2, .touch 1 2 true] } }, by decide +kernel⟩,
   ⟨day, by decide +kernel⟩,
   ⟨day.setPair 1 ⟨true, false, [], none⟩, 1, by decide +kernel⟩,
   ⟨{ day.setPair 1 ⟨true, false, [], none⟩ with isl := { (day.setPair 1 ⟨true, false, [], none⟩).isl with firmware := false } },
    1, by decide +kernel⟩,
   ⟨(day.setPair 1 ⟨true, false, [1, 2], none⟩).atSt 999999999, 1, by decide +kernel⟩,
   ⟨(day.setPair 1 ⟨true, false, [1, 2], none⟩).atSt 1000000002, 1, by decide +kernel⟩,
   ⟨day, 0, true, by decide +kernel⟩,
   ⟨day, by decide +kernel⟩,
   ⟨State.reset, by decide +kernel⟩⟩

/-- The hypotheses of IslandMailbox can be met. -/
theorem witness_IslandMailbox :
    (∃ (s : State) (c : Fin 2) (_ : W32), MailReady s c)
    ∧ (∃ (s : State) (c : Fin 2) (_ : W32) (o i : Nat) (r : Nat × List Byte), MailReady s c ∧ s.hasList o = true ∧ recordAt
    (s.glzCopy o).back.normal i = some r)
    ∧ (∃ (s : State) (c : Fin 2) (_ : W32) (o i : Nat), MailReady s c ∧ (s.hasList o = false ∨ recordAt (s.glzCopy
    o).back.normal i = none))
    ∧ (∃ (s : State) (c : Fin 2) (_ : W32) (_ : Bool) (_ _ _ : Nat) (_ : List Byte), MailReady s c)
    ∧ (∃ (s : State) (c : Fin 2) (_ : W32) (mask : Byte), MailReady s c ∧ ((∃ o, o < 8 ∧ mask.getLsbD o = true)) ∧ ((∀ o, o
    < 8 → mask.getLsbD o = true → s.hasList o = true ∧ s.scans o = true)))
    ∧ (∃ (s : State) (c : Fin 2) (_ : W32) (mask : Byte) (o : Nat), MailReady s c ∧ o < 8 ∧ mask.getLsbD o = true ∧
    s.hasList o = false)
    ∧ (∃ (s : State) (c : Fin 2) (_ : W32), MailReady s c)
    ∧ (∃ (s : State) (_ : W32), MailReady s 0)
    ∧ (∃ (s : State) (_ : W32) (n : Nat), MailReady s 1 ∧ 1 ≤ n ∧ n ≤ 32)
    ∧ (∃ (s : State) (_ : W32) (n : Nat), MailReady s 1 ∧ (n = 0 ∨ 32 < n))
    ∧ (∃ (s : State) (_ : W32) (plain : List Byte), MailReady s 1 ∧ 1 ≤ plain.length ∧ plain.length ≤ 200)
    ∧ (∃ (s : State) (_ : W32) (plain : List Byte), MailReady s 1 ∧ (plain.length = 0 ∨ 200 < plain.length))
    ∧ (∃ (s : State) (_ : W32) (_ : List Byte), MailReady s 1)
    ∧ (∃ (s : State) (_ : W32), MailReady s 1)
    ∧ (∃ (s : State) (seq : W32) (imm : Bool) (o i n : Nat) (mask : Byte) (b : List Byte) (e : Instr × Mail), MailReady s 0
    ∧ e ∈ mailCommands 0 seq imm o i n mask b ∧ 16 ≤ e.2.cmd)
    ∧ (∃ (s : State) (_ : W32), MailReady s 1)
    ∧ (∃ (s : State) (c : Fin 2) (seq : W32) (imm : Bool) (o i n : Nat) (mask : Byte) (b : List Byte) (e : Instr × Mail), e
    ∈ mailCommands c seq imm o i n mask b ∧ (s.clocked .ISL = false ∨ s.flag F.ISL_MBOX_STATUS.tx_busy c = true))
    ∧ (∃ (s : State) (c : Fin 2) (seq : W32) (imm : Bool) (o i n : Nat) (mask : Byte) (b : List Byte) (e : Instr × Mail), e
    ∈ mailCommands c seq imm o i n mask b ∧ s.clocked .ISL = true ∧ s.flag F.ISL_MBOX_STATUS.tx_busy c = false ∧ s.islWorks
    = false)
    ∧ (∃ (s : State) (c : Fin 2) (a : Agent), s.clocked .ISL = true ∧ mailOwner a c = true)
    ∧ (∃ (s : State) (_ : Fin 2) (a : Agent), (s.clocked .ISL = false ∨ (a ≠ .manager ∧ a ≠ .inner)))
    ∧ (∃ (s : State) (c : Fin 2) (a : Agent), s.clocked .ISL = true ∧ (a = .manager ∨ a = .inner) ∧ mailOwner a c = false)
    :=
  ⟨⟨day, 1, 7, by unfold MailReady; decide +kernel⟩,
   ⟨listed oneRecord [], 0, 7, 2, 0, (16, oneRecord.drop 16), by unfold MailReady; decide +kernel⟩,
   ⟨day, 1, 7, 2, 0, by unfold MailReady; decide +kernel⟩,
   ⟨listed oneRecord oneRecord, 0, 7, true, 2, 0, 2, [3], by unfold MailReady; decide +kernel⟩,
   ⟨listed oneRecord oneRecord, 0, 7, 4,
    by refine ⟨by unfold MailReady; decide +kernel, ⟨2, by decide⟩, ?_⟩; intro o h1; revert h1 o; decide +kernel⟩,
   ⟨listed oneRecord oneRecord, 0, 7, 6, 1, by unfold MailReady; decide +kernel⟩,
   ⟨listed oneRecord oneRecord, 1, 7, by unfold MailReady; decide +kernel⟩,
   ⟨day, 7, by unfold MailReady; decide +kernel⟩,
   ⟨day, 7, 32, by unfold MailReady; decide +kernel⟩,
   ⟨day, 7, 33, by unfold MailReady; decide +kernel⟩,
   ⟨day, 7, [1], by unfold MailReady; decide +kernel⟩,
   ⟨day, 7, [], by unfold MailReady; decide +kernel⟩,
   ⟨day, 7, [1], by unfold MailReady; decide +kernel⟩,
   ⟨day.put .CPX_DBG_EN 5, 7, by unfold MailReady; decide +kernel⟩,
   ⟨day, 7, true, 0, 0, 3, 0, [1], (.rngRead 0 7 3, ⟨16, 7, .random 3⟩), by unfold MailReady; decide +kernel⟩,
   ⟨day, 7, by unfold MailReady; decide +kernel⟩,
   ⟨day.fset F.ISL_MBOX_STATUS.tx_busy 1 1, 1, 7, true, 0, 0, 3, 0, [1], (.rngRead 1 7 3, ⟨16, 7, .random 3⟩),
    by decide +kernel⟩,
   ⟨{ day with isl := { day.isl with firmware := false } }, 1, 7, true, 0, 0, 3, 0, [1], (.rngRead 1 7 3, ⟨16, 7, .random
    3⟩), by decide +kernel⟩,
   ⟨day.setMailRx 1 [[1], [2]], 1, .inner, by decide +kernel⟩,
   ⟨day, 1, .management, by decide +kernel⟩,
   ⟨day.setMailRx 1 [[1], [2]], 1, .manager, by decide +kernel⟩⟩

/-- The hypotheses of GlazeCommitsAndRenderers can be met. -/
theorem witness_GlazeCommitsAndRenderers :
    (∃ (s : State) (o : Fin 8) (c : GlazeSnap) (rest : List GlazeSnap), s.tailRecipe.outPair o = false ∧ s.scans o = true ∧
    (s.glz o).commits = c :: rest)
    ∧ (∃ (s : State) (o : Fin 8) (e : Nat) (c d : GlazeSnap) (rest more : List GlazeSnap), s.tailRecipe.outPair o = true ∧ e
    = o.val - o.val % 2 ∧ s.scans e = true ∧ s.scans (e + 1) = true ∧ (s.glz e).commits = c :: rest ∧ (s.glz (e +
    1)).commits = d :: more)
    ∧ (∃ (s : State) (o : Fin 8), s.tailRecipe.outPair o = false ∧ (s.glz o).commits = [])
    ∧ (∃ (s : State), s.islWorks = true)
    ∧ (∃ (s : State) (o : Fin 8) (r : Fin 2), s.rendState o r = 3 ∧ ((s.glz o).rend r).held = false ∧ s.rendState o (1 -
    r.val) = 1)
    ∧ (∃ (s : State) (o : Fin 8) (r : Fin 2), (s.rendState o r ≠ 3 ∨ ((s.glz o).rend r).held = true ∨ s.rendState o (1 -
    r.val) ≠ 1))
    ∧ (∃ (s : State), s.dom.island ≠ .inReset ∧ s.pwr.state < 3)
    ∧ (∃ (s : State), (s.dom.island = .inReset ∨ 3 ≤ s.pwr.state))
    ∧ (∃ (s : State) (o : Fin 8) (b : LineObs) (a : Nat) (x : LineCrcs), Checked s o ∧ a = s.fget F.ISL_GLAZE_STATUS.active
    o ∧ s.rendState o (1 - a) = 2 ∧ x = lineSeen s o b ∧ ((b.activeLockstep = true ∨ (x.active ≠ x.phy ∧ (s.glz o).switched
    = false))))
    ∧ (∃ (s : State) (o : Fin 8) (b : LineObs) (a : Nat) (x : LineCrcs), Checked s o ∧ a = s.fget F.ISL_GLAZE_STATUS.active
    o ∧ s.rendState o (1 - a) ≠ 1 ∧ s.rendState o (1 - a) ≠ 2 ∧ x = lineSeen s o b ∧ ((b.activeLockstep = true ∨ (x.active ≠
    x.phy ∧ (s.glz o).switched = false))))
    ∧ (∃ (s : State) (o : Fin 8) (b : LineObs) (x : LineCrcs), Checked s o ∧ b.activeLockstep = false ∧ x = lineSeen s o b ∧
    x.active ≠ x.phy ∧ (s.glz o).switched = true)
    ∧ (∃ (s : State) (o : Fin 8) (b : LineObs) (a : Nat) (x : LineCrcs), Checked s o ∧ a = s.fget F.ISL_GLAZE_STATUS.active
    o ∧ b.activeLockstep = false ∧ x = lineSeen s o b ∧ x.active = x.phy ∧ s.rendState o (1 - a) = 2 ∧ ((b.standbyLockstep =
    true ∨ x.other ≠ x.active)))
    ∧ (∃ (s : State) (o : Fin 8) (b : LineObs) (a : Nat) (x : LineCrcs), Checked s o ∧ a = s.fget F.ISL_GLAZE_STATUS.active
    o ∧ b.activeLockstep = false ∧ x = lineSeen s o b ∧ x.active = x.phy ∧ ((s.rendState o (1 - a) = 2 → b.standbyLockstep =
    false ∧ x.other = x.active)))
    ∧ (∃ (s : State) (o : Fin 8) (_ : LineObs), (s.mixes o = false ∨ s.outSleeps o = true)) :=
  ⟨⟨mixing.glazeIs (fun x => { x with commits := [⟨2, ⟨oneRecord, [4]⟩, [5], [0]⟩, ⟨1, ⟨[], []⟩, [], [1]⟩] }), 2, ⟨2,
    ⟨oneRecord, [4]⟩, [5], [0]⟩, [⟨1, ⟨[], []⟩, [], [1]⟩], by decide +kernel⟩,
   ⟨let s := ((paired.fset F.OUT_STATUS.lock lockLocked 0).fset F.OUT_STATUS.lock lockAligning 1); let s := s.setGlz 0 { s.glz 0 with commits := [⟨2, ⟨oneRecord, [4]⟩, [5], [0]⟩] }; s.setGlz 1 { s.glz 1 with commits := [⟨1, ⟨[7], [4]⟩, [5], [0]⟩] }, 1, 0, ⟨2, ⟨oneRecord, [4]⟩, [5], [0]⟩, ⟨1, ⟨[7], [4]⟩, [5], [0]⟩, [], [], by decide +kernel⟩,
   ⟨mixing, 2, by decide +kernel⟩,
   ⟨let s := mixing.glazeIs (fun x => { x with hbDue := true }); { s with isl := { s.isl with pend := [3], again := [(1, 2, true)] } }, by decide +kernel⟩,
   ⟨(mixing.fset F.ISL_GLAZE_STATUS.b_state 3 2), 2, 1, by decide +kernel⟩,
   ⟨(mixing.fset F.ISL_GLAZE_STATUS.b_state 3 2).glazeIs (fun x => { x with rendB := { x.rendB with held := true } }), 2, 1,
    by decide +kernel⟩,
   ⟨mixing, by decide +kernel⟩,
   ⟨State.reset, by decide +kernel⟩,
   ⟨narrow, 2, { lineOf 1 with activeLockstep := true }, 0, lineSeen (narrow) 2 ({ lineOf 1 with activeLockstep := true }),
    by unfold Checked; decide +kernel⟩,
   ⟨narrow.fset F.ISL_GLAZE_STATUS.b_state 3 2, 2, { lineOf 1 with phyErr := [(0, 4)] }, 0, lineSeen (narrow.fset
    F.ISL_GLAZE_STATUS.b_state 3 2) 2 ({ lineOf 1 with phyErr := [(0, 4)] }), by unfold Checked; decide +kernel⟩,
   ⟨narrow.glazeIs (fun x => { x with switched := true }), 2, { lineOf 1 with phyErr := [(0, 4)] }, lineSeen (narrow.glazeIs
    (fun x => { x with switched := true })) 2 ({ lineOf 1 with phyErr := [(0, 4)] }), by unfold Checked; decide +kernel⟩,
   ⟨narrow, 2, { lineOf 1 with standbyErr := [(0, 4)] }, 0, lineSeen (narrow) 2 ({ lineOf 1 with standbyErr := [(0, 4)] }),
    by unfold Checked; decide +kernel⟩,
   ⟨narrow, 2, lineOf 2, 0, lineSeen (narrow) 2 (lineOf 2), by unfold Checked; decide +kernel⟩,
   ⟨outAt lockLocked lnkUp, 2, lineOf 1, by decide +kernel⟩⟩

/-- The hypotheses of MemoryTransactions can be met. -/
theorem witness_MemoryTransactions :
    (∃ (s : State) (r : Requester) (addr : BitVec 64) (len : Nat) (_ : List Byte) (_ : Nat) (q : Requester) (pa : Nat),
    Served s r false addr len q pa ∧ s.admitReq q pa len = .sram)
    ∧ (∃ (s : State) (r : Requester) (addr : BitVec 64) (len : Nat) (_ : List Byte) (_ : Nat) (q : Requester) (pa : Nat),
    Served s r true addr len q pa ∧ s.admitReq q pa len = .sram)
    ∧ (∃ (s : State) (r : Requester) (addr : BitVec 64) (len : Nat) (b : List Byte) (_ : Nat) (q : Requester) (pa : Nat),
    Served s r true addr len q pa ∧ b.length = len ∧ s.admitReq q pa len = .sram)
    ∧ (∃ (s : State) (r : Requester) (w : Bool) (addr : BitVec 64) (len : Nat) (_ : List Byte) (_ : Nat) (q : Requester) (pa
    : Nat), Served s r w addr len q pa ∧ MemQueuesOk s ∧ s.admitReq q pa len = .dram)
    ∧ (∃ (s : State) (r : Requester) (w : Bool) (addr : BitVec 64) (len : Nat) (_ : List Byte) (_ : Nat) (q : Requester) (pa
    : Nat), Served s r w addr len q pa ∧ s.admitReq q pa len = .rom)
    ∧ (∃ (s : State) (r : Requester) (w : Bool) (addr : BitVec 64) (len : Nat) (_ : List Byte) (_ : Nat) (q : Requester) (pa
    : Nat), Served s r w addr len q pa ∧ s.admitReq q pa len = .error)
    ∧ (∃ (s : State) (r : Requester) (w : Bool) (addr : BitVec 64) (len : Nat) (_ : List Byte) (_ : Nat) (q : Requester) (pa
    : Nat), Served s r w addr len q pa ∧ s.admitReq q pa len = .down)
    ∧ (∃ (s : State) (r : Requester) (w : Bool) (addr : BitVec 64) (len : Nat) (_ : List Byte) (_ : Nat) (q : Requester) (pa
    : Nat), Served s r w addr len q pa ∧ s.admitReq q pa len = .fence)
    ∧ (∃ (s : State) (r : Requester) (w : Bool) (addr : BitVec 64) (len : Nat) (_ : List Byte) (_ : Nat) (q : Requester) (f
    : CoreFault), s.memRuns = true ∧ q = s.knownRequester r ∧ s.requesterRuns q = true ∧ s.physical q w addr.toNat len =
    .error (f, none))
    ∧ (∃ (s : State) (r : Requester) (_ : Bool) (_ : BitVec 64) (_ : Nat) (_ : List Byte) (_ : Nat), (s.memRuns = false ∨
    s.requesterRuns (s.knownRequester r) = false))
    ∧ (∃ (s : State) (id : Nat) (q : DramReq), s.flying id = some q ∧ q.write = true)
    ∧ (∃ (s : State) (id : Nat) (q : DramReq), s.flying id = some q ∧ q.write = false)
    ∧ (∃ (s : State) (id : Nat) (q : DramReq), s.flying id = some q ∧ q.write = false ∧ s.hasBit .MEM_LINK_ECC q.chan =
    true)
    ∧ (∃ (s : State) (id : Nat) (q : DramReq), s.flying id = some q ∧ q.write = true ∧ s.hasBit .MEM_LINK_ECC q.chan = true)
    ∧ (∃ (s : State) (id : Nat) (q : DramReq), s.flying id = some q ∧ s.inlineEcc q.addr = true)
    ∧ (∃ (s : State) (id : Nat) (q : DramReq), s.flying id = some q ∧ s.hasBit .MEM_LINK_ECC q.chan = true)
    ∧ (∃ (s : State) (id : Nat) (_ : EccResult), s.flying id = none) :=
  ⟨⟨{ sramUp with ram := [(0x1000001, 7)] }, byPart, 0x1000000, 4, [], 0,
    ({ sramUp with ram := [(0x1000001, 7)] }).knownRequester byPart, 0x1000000,
    by unfold Served; and_intros <;> first | decide +kernel | exact ⟨_, rfl⟩ | (unfold MemQueuesOk; decide +kernel)⟩,
   ⟨sramUp, byPart, 0x100FFFE, 2, [7], 0, (sramUp).knownRequester byPart, 0x100FFFE,
    by unfold Served; and_intros <;> first | decide +kernel | exact ⟨_, rfl⟩ | (unfold MemQueuesOk; decide +kernel)⟩,
   ⟨sramUp, byPart, 0x100FFFE, 2, [7, 8], 0, (sramUp).knownRequester byPart, 0x100FFFE,
    by unfold Served; and_intros <;> first | decide +kernel | exact ⟨_, rfl⟩ | (unfold MemQueuesOk; decide +kernel)⟩,
   ⟨dramUp, byDma, true, 0x800000000, 4, [7], 0, (dramUp).knownRequester byDma, 0x800000000,
    by unfold Served; and_intros <;> first | decide +kernel | exact ⟨_, rfl⟩ | (unfold MemQueuesOk; decide +kernel)⟩,
   ⟨dramUp, byManagement, false, 0x100, 4, [], 0, (dramUp).knownRequester byManagement, 0x100,
    by unfold Served; and_intros <;> first | decide +kernel | exact ⟨_, rfl⟩ | (unfold MemQueuesOk; decide +kernel)⟩,
   ⟨dramUp, byDma, true, 0x840000000, 4, [7], 0, (dramUp).knownRequester byDma, 0x840000000,
    by unfold Served; and_intros <;> first | decide +kernel | exact ⟨_, rfl⟩ | (unfold MemQueuesOk; decide +kernel)⟩,
   ⟨dramUp.put .MEM_CHAN_DOWN 0xFFFFFFFF, byDma, true, 0x800000000, 4, [7], 0, (dramUp.put .MEM_CHAN_DOWN
    0xFFFFFFFF).knownRequester byDma, 0x800000000,
    by unfold Served; and_intros <;> first | decide +kernel | exact ⟨_, rfl⟩ | (unfold MemQueuesOk; decide +kernel)⟩,
   ⟨(dramUp.put .CPX_FENCE_REGION_BASE 0x80000 3).put .CPX_FENCE_REGION_SIZE 1 3, byDma, false, 0x80000FFFF, 1, [], 0,
    ((dramUp.put .CPX_FENCE_REGION_BASE 0x80000 3).put .CPX_FENCE_REGION_SIZE 1 3).knownRequester byDma, 0x80000FFFF,
    by unfold Served; and_intros <;> first | decide +kernel | exact ⟨_, rfl⟩ | (unfold MemQueuesOk; decide +kernel)⟩,
   ⟨(coreAt false { CoreState.initial with mode := .hs, satp := 0x9000000000000000 }).withDram, ⟨1, 0, false, false, 0, .hs,
    0x3083, false⟩, false, 0x4000, 8, [], 0, ((coreAt false
    { CoreState.initial with mode := .hs, satp := 0x9000000000000000 }).withDram).knownRequester (⟨1, 0, false, false, 0,
    .hs, 0x3083, false⟩), match ((coreAt false
    { CoreState.initial with mode := .hs, satp := 0x9000000000000000 }).withDram).physical (((coreAt false
    { CoreState.initial with mode := .hs, satp := 0x9000000000000000 }).withDram).knownRequester (⟨1, 0, false, false, 0,
    .hs, 0x3083, false⟩)) false 0x4000 8 with | .error (f, _) => f | _ => ⟨0, 0, 0, 0⟩, by decide +kernel⟩,
   ⟨State.reset, byDma, true, 0x800000000, 4, [7], 0, by decide +kernel⟩,
   ⟨flyingOf true, 7, reqOf 7 true, by decide +kernel⟩,
   ⟨flyingOf false, 7, reqOf 7 false, by decide +kernel⟩,
   ⟨flyingOf false, 7, reqOf 7 false, by decide +kernel⟩,
   ⟨flyingOf true, 7, reqOf 7 true, by decide +kernel⟩,
   ⟨let s := admitted [(4, [(4, 1), (20, 64), (24, 1), (25, 255)])]; { s.withDram with mem := (flyingOf true).mem }, 7, reqOf 7 true, by decide +kernel⟩,
   ⟨flyingOf true, 7, reqOf 7 true, by decide +kernel⟩,
   ⟨flyingOf true, 8, .linkRead, by decide +kernel⟩⟩

/-- The hypotheses of ChannelsAndCredit can be met. -/
theorem witness_ChannelsAndCredit :
    (∃ (s : State), s.awake = true)
    ∧ (∃ (s : State), s.awake = false)
    ∧ (∃ (s : State) (ch : Fin 32) (b : Fin 16), s.rowIdle (ch.val * 16 + b.val) = true)
    ∧ (∃ (s : State) (ch : Fin 32) (b : Fin 16), s.rowIdle (ch.val * 16 + b.val) = false)
    ∧ (∃ (s : State) (ch : Fin 32) (_ : Fin 16), s.mayPause ch = true)
    ∧ (∃ (s : State) (ch : Fin 32) (_ : Fin 16), s.mayPause ch = true)
    ∧ (∃ (s : State) (ch : Fin 32) (_ : Fin 16) (_ : Bool), s.mayPause ch = false)
    ∧ (∃ (s : State) (ch : Fin 32) (_ : Bool), s.pauseDue ch = false)
    ∧ (∃ (s : State) (ch : Fin 32), s.mayPause ch = true ∧ s.pauseDue ch = true)
    ∧ (∃ (s : State) (ch : Fin 32), s.mayPause ch = true ∧ s.pauseDue ch = true)
    ∧ (∃ (s : State) (ch : Fin 32), s.mayPause ch = true ∧ s.mem.failedOnce.contains ch.val = true)
    ∧ (∃ (s : State) (ch : Fin 32), s.mayPause ch = true ∧ s.mem.failedOnce.contains ch.val = true)
    ∧ (∃ (s : State) (ch : Fin 32) (_ : Bool), s.mem.failedOnce.contains ch.val = false) :=
  ⟨⟨dramUp.put .MEM_PORT_RESERVE 50 4, by decide +kernel⟩,
   ⟨State.reset, by decide +kernel⟩,
   ⟨dramUp.atSt 1000000000, 3, 15, by decide +kernel⟩,
   ⟨dramUp, 3, 15, by decide +kernel⟩,
   ⟨dramUp, 31, 15, by decide +kernel⟩,
   ⟨dramUp, 31, 15, by decide +kernel⟩,
   ⟨State.reset, 31, 15, true, by decide +kernel⟩,
   ⟨{ dramUp with mem := { dramUp.mem with interval := some 0 } }, 31, true, by decide +kernel⟩,
   ⟨dramUp, 0, by decide +kernel⟩,
   ⟨dramUp, 0, by decide +kernel⟩,
   ⟨{ flyingOf true with mem := { (flyingOf true).mem with failedOnce := [0] } }, 0, by decide +kernel⟩,
   ⟨{ dramUp with mem := { dramUp.mem with failedOnce := [31] } }, 31, by decide +kernel⟩,
   ⟨dramUp, 31, true, by decide +kernel⟩⟩

/-- The hypotheses of WorldCalls can be met. -/
theorem witness_WorldCalls :
    (∃ (s : State) (n : Fin 8), s.coreRuns n = true)
    ∧ (∃ (s : State) (n : Fin 8), s.coreRuns n = true ∧ s.coreInner n = false ∧ s.innerPartition n = true)
    ∧ (∃ (s : State) (n : Fin 8), s.coreRuns n = true ∧ (s.coreInner n = true ∨ s.innerPartition n = false))
    ∧ (∃ (s : State) (n : Fin 8) (pc : BitVec 64), s.coreRuns n = true ∧ s.coreInner n = true ∧ (s.core n).saved = some pc)
    ∧ (∃ (s : State) (n : Fin 8), s.coreRuns n = true ∧ (s.coreInner n = false ∨ (s.core n).saved = none))
    ∧ (∃ (s : State) (n : Fin 8), s.coreRuns n = true ∧ s.coreInner n = true)
    ∧ (∃ (s : State) (n : Fin 8), s.coreRuns n = true ∧ s.coreInner n = false)
    ∧ (∃ (s : State) (n : Fin 8), s.coreRuns n = true)
    ∧ (∃ (s : State) (n : Fin 8) (c : Instr), c ∈ [Instr.version n, .enter n, .wcallReturn n, .dbgLower n, .fenceQuery n] ∧
    s.coreRuns n = false)
    ∧ (∃ (_ : State) (n : Fin 8) (w : W32) (c : Instr), ((c = Instr.version n ∧ w = 0x0000000B) ∨ (c = .enter n ∧ w =
    0x0010000B) ∨ (c = .wcallReturn n ∧ w = 0x0020000B) ∨ (c = .dbgLower n ∧ w = 0x0110000B) ∨ (c = .fenceQuery n ∧ w =
    0x0120000B)))
    ∧ (∃ (s : State) (n : Fin 8) (w : W32), s.coreRuns n = true ∧ w.toNat % 2 ^ 20 = 0xB ∧ 3 ≤ w.toNat / 2 ^ 20 ∧ w.toNat /
    2 ^ 20 < 2048 ∧ w.toNat / 2 ^ 20 ≠ 16 ∧ w.toNat / 2 ^ 20 ≠ 17 ∧ w.toNat / 2 ^ 20 ≠ 18)
    ∧ (∃ (s : State) (n : Fin 8) (w : W32) (v : BitVec 64), s.coreRuns n = true ∧ w.toNat % 2 ^ 20 = 0xB ∧ 2048 ≤ w.toNat /
    2 ^ 20 ∧ s.innerPartition n = true ∧ (s.core n).vector = some v)
    ∧ (∃ (s : State) (n : Fin 8) (w : W32), s.coreRuns n = true ∧ w.toNat % 2 ^ 20 = 0xB ∧ 2048 ≤ w.toNat / 2 ^ 20 ∧
    (s.innerPartition n = false ∨ (s.core n).vector = none))
    ∧ (∃ (s : State) (n : Fin 8) (w : W32), s.coreRuns n = true ∧ w.toNat % 2 ^ 20 ≠ 0xB ∧ (w.toNat % 128 = 0xB ∨ isZfh w =
    true))
    ∧ (∃ (s : State) (n : Fin 8) (w : W32), s.coreRuns n = true ∧ isPrefetch w = true)
    ∧ (∃ (s : State) (n : Fin 8) (w : W32), s.coreRuns n = false ∧ (w.toNat % 2 ^ 20 ≠ 0xB ∨ w.toNat / 2 ^ 20 ≠ 16))
    ∧ (∃ (s : State) (n : Fin 8), s.coreRuns n = true ∧ s.coreInner n = false)
    ∧ (∃ (s : State) (n : Fin 8), s.coreRuns n = true ∧ s.coreInner n = true ∧ s.islCallOk n = false)
    ∧ (∃ (s : State) (n : Fin 8) (m : Mail) (b : List Byte), s.coreRuns n = true ∧ s.coreInner n = true ∧ s.islCallOk n =
    true ∧ m = mailOf (s.readBytes ((s.core n).arg 0).toNat ((s.core n).arg 1).toNat) ∧ (s.mailRx 1).find? (fun b => u8 b 0
    == m.cmd && u32 b 4 == m.seq.toNat) = some b)
    ∧ (∃ (s : State) (n : Fin 8) (m : Mail), s.coreRuns n = true ∧ s.coreInner n = true ∧ s.islCallOk n = true ∧ m = mailOf
    (s.readBytes ((s.core n).arg 0).toNat ((s.core n).arg 1).toNat) ∧ (s.mailRx 1).find? (fun b => u8 b 0 == m.cmd && u32 b
    4 == m.seq.toNat) = none ∧ s.flag F.ISL_MBOX_STATUS.tx_busy 1 = true)
    ∧ (∃ (s : State) (n : Fin 8) (m : Mail), s.coreRuns n = true ∧ s.coreInner n = true ∧ s.islCallOk n = true ∧ m = mailOf
    (s.readBytes ((s.core n).arg 0).toNat ((s.core n).arg 1).toNat) ∧ MailReady s 1 ∧ m.cmd = 5 ∧ s.mailRx 1 = [])
    ∧ (∃ (s : State) (n : Fin 8), s.coreRuns n = false) :=
  ⟨⟨coreAt false (callOf 0 0 0), 1, by decide +kernel⟩,
   ⟨coreAt false (callOf 0x2000 0 0), 1, by decide +kernel⟩,
   ⟨coreAt true (callOf 0 0 0), 1, by decide +kernel⟩,
   ⟨coreAt true { callOf 0 9 0 with saved := some 0x1234 }, 1, 0x1234, by decide +kernel⟩,
   ⟨coreAt false (callOf 0 0 0), 1, by decide +kernel⟩,
   ⟨(coreAt true (callOf 4 0 0)).put .CPX_DBG_EN 15, 1, by decide +kernel⟩,
   ⟨(coreAt false (callOf 4 0 0)).put .CPX_DBG_EN 15, 1, by decide +kernel⟩,
   ⟨(coreAt false (callOf 0x800001 0 0)).put .CPX_FENCE_REGION_BASE 0x80 3 |>.put .CPX_FENCE_REGION_SIZE 1 3, 1,
    by decide +kernel⟩,
   ⟨day, 1, .enter 1, by decide +kernel⟩,
   ⟨coreAt true { callOf 0 9 0 with saved := some 0x1234 }, 1, 0x0020000B, .wcallReturn 1, by decide +kernel⟩,
   ⟨coreAt false (callOf 0 0 0), 1, 0x7FF0000B, by decide +kernel⟩,
   ⟨coreAt false { callOf 0 0 0 with vector := some 0x3000 }, 1, 0x8000000B, 0x3000, by decide +kernel⟩,
   ⟨coreAt true (callOf 0 0 0), 1, 0xFFF0000B, by decide +kernel⟩,
   ⟨coreAt false { callOf 0 0 0 with mode := .vu, medeleg := 4 }, 1, 0x8000108B, by decide +kernel⟩,
   ⟨coreAt false (callOf 0 0 0), 1, 0x00106013, by decide +kernel⟩,
   ⟨day, 1, 0x8000108B, by decide +kernel⟩,
   ⟨coreAt false (callOf 0 0 0), 1, by decide +kernel⟩,
   ⟨coreAt true (callOf 0x1000000 7 0x1000100), 1, by decide +kernel⟩,
   ⟨(coreAt true (callOf 0x1000000 8 0x1000100)).setMailRx 1 [[0, 0, 0, 0, 0, 0, 0, 0, 9]], 1, mailOf (List.replicate 8 0),
    [0, 0, 0, 0, 0, 0, 0, 0, 9], by decide +kernel⟩,
   ⟨(coreAt true (callOf 0x1000000 256 0x1000100)).fset F.ISL_MBOX_STATUS.tx_busy 1 1, 1, mailOf (((coreAt true (callOf
    0x1000000 256 0x1000100)).fset F.ISL_MBOX_STATUS.tx_busy 1 1).readBytes 0x1000000 256), by decide +kernel⟩,
   ⟨(coreAt true (callOf 0x1000000 8 0x1000100)).holds [(0x1000000, 5), (0x1000004, 3)], 1, mailOf [5, 0, 0, 0, 3, 0, 0, 0],
    by unfold MailReady; decide +kernel⟩,
   ⟨day, 1, by decide +kernel⟩⟩

/-- The hypotheses of WorldsDirectoryAndCaches can be met. -/
theorem witness_WorldsDirectoryAndCaches :
    (∃ (s : State) (n : Fin 8) (_ : BitVec 64), s.coreRuns n = true)
    ∧ (∃ (s : State) (n : Fin 8) (v : BitVec 64), s.coreRuns n = true ∧ (s.core n).haltPending = true ∧ s.coreInner n ≠
    v.getLsbD 0 ∧ s.invasive (v.getLsbD 0) = true)
    ∧ (∃ (s : State) (n : Fin 8) (mode : CoreMode) (_ : BitVec 64), s.coreRuns n = true ∧ mode ≠ .m)
    ∧ (∃ (s : State) (n : Fin 8) (_ : CoreMode) (_ : BitVec 64), s.coreRuns n = false)
    ∧ (∃ (s : State) (_ : W32), s.awake = true)
    ∧ (∃ (s : State) (a : Agent) (_ : W32), (a ≠ .inner ∨ s.awake = false))
    ∧ (∃ (s : State) (n : Fin 8), s.coreRuns n = true ∧ s.invasive (s.coreInner n) = true)
    ∧ (∃ (s : State) (n : Fin 8), s.coreRuns n = true ∧ s.invasive (s.coreInner n) = false)
    ∧ (∃ (s : State) (n : Fin 8), s.coreRuns n = false)
    ∧ (∃ (s : State) (sl : Fin 16) (line : BitVec 42) (c : Fin 8) (d : DirLine), s.up = true ∧ sliceOf line = sl.val ∧ d =
    s.dirLine sl line.toNat ∧ d.holder = none ∧ (d.reserved = none ∨ d.reserved = some c.val))
    ∧ (∃ (s : State) (sl : Fin 16) (line : BitVec 42) (c : Fin 8) (d : DirLine) (h : DirHolder), s.up = true ∧ sliceOf line
    = sl.val ∧ d = s.dirLine sl line.toNat ∧ d.holder = some h ∧ h ≠ .owner c ∧ d.reserved = none)
    ∧ (∃ (s : State) (sl : Fin 16) (line : BitVec 42) (c : Fin 8) (d : DirLine) (r : Nat), s.up = true ∧ sliceOf line =
    sl.val ∧ d = s.dirLine sl line.toNat ∧ d.holder ≠ some (.owner c) ∧ d.reserved = some r ∧ r ≠ c.val)
    ∧ (∃ (s : State) (sl : Fin 16) (line : BitVec 42) (c : Fin 8) (d : DirLine) (h : DirHolder), s.up = true ∧ sliceOf line
    = sl.val ∧ d = s.dirLine sl line.toNat ∧ d.holder = some h ∧ h ≠ .owner c ∧ d.reserved = some c.val)
    ∧ (∃ (s : State) (sl : Fin 16) (line : BitVec 42) (d : DirLine) (r : Nat), s.up = true ∧ sliceOf line = sl.val ∧ d =
    s.dirLine sl line.toNat ∧ d.holder.isSome = true ∧ d.reserved = some r ∧ d.retried = true)
    ∧ (∃ (s : State) (sl : Fin 16) (line : BitVec 42) (d : DirLine) (r : Nat), s.up = true ∧ sliceOf line = sl.val ∧ d =
    s.dirLine sl line.toNat ∧ d.holder.isSome = true ∧ d.reserved = some r ∧ d.retried = false)
    ∧ (∃ (s : State) (sl : Fin 16) (line : BitVec 42) (d : DirLine) (w : Nat) (l : List Nat), s.up = true ∧ sliceOf line =
    sl.val ∧ d = s.dirLine sl line.toNat ∧ d.holder.isSome = true ∧ d.reserved = none ∧ (s.fromPointer d.slice).filter
    d.waiting.contains = w :: l)
    ∧ (∃ (s : State) (sl : Fin 16) (line : BitVec 42) (d : DirLine), s.up = true ∧ sliceOf line = sl.val ∧ d = s.dirLine sl
    line.toNat ∧ d.holder.isSome = true ∧ d.reserved = none ∧ (s.fromPointer d.slice).filter d.waiting.contains = [])
    ∧ (∃ (s : State) (sl : Fin 16) (line : BitVec 42) (_ : Fin 8) (d : DirLine), s.up = true ∧ sliceOf line = sl.val ∧ d =
    s.dirLine sl line.toNat ∧ d.holder = none)
    ∧ (∃ (s : State) (sl : Fin 16) (line : BitVec 42) (c : Fin 8), s.up = true ∧ sliceOf line = sl.val ∧ (s.dirLine sl
    line.toNat).holder = some (.owner c))
    ∧ (∃ (s : State) (sl : Fin 16) (line : BitVec 42) (_ : Fin 8), s.up = true ∧ sliceOf line = sl.val ∧ (s.dirLine sl
    line.toNat).holder.isSome = true)
    ∧ (∃ (s : State) (sl : Fin 16) (line : BitVec 42), s.up = true ∧ sliceOf line = sl.val ∧ (s.dirLine sl
    line.toNat).holder = none)
    ∧ (∃ (s : State) (sl : Fin 16) (line : BitVec 42) (_ : DirEvent) (_ : Fin 8), (s.up = false ∨ sliceOf line ≠ sl.val))
    ∧ (∃ (s : State) (lv : CacheLevel) (_ : BitVec 48) (_ : List (Fin 8)) (_ : Bool), s.up = true ∧ secDed lv = true)
    ∧ (∃ (s : State) (lv : CacheLevel) (addr : Nat) (w : Store), w ∈ s.lineStores lv false addr)
    ∧ (∃ (s : State) (lv : CacheLevel) (sg : Bool) (_ : BitVec 48) (_ : List (Fin 8)) (_ : Bool), (sg = true ∨ secDed lv =
    false ∨ s.up = false)) :=
  ⟨⟨coreAt false { callOf 0 0 0 with ras := [3] }, 1, 3, by decide +kernel⟩,
   ⟨(coreAt false { callOf 0 0 0 with haltPending := true }).put .CPX_DBG_EN 12 |>.put .CPX_DBG_EN 15, 1, 1,
    by decide +kernel⟩,
   ⟨coreAt false { callOf 0 0 0 with medeleg := 4 }, 1, .vs, 1, by decide +kernel⟩,
   ⟨day, 1, .m, 1, by decide +kernel⟩,
   ⟨day.put .CPX_DBG_EN 15, 1, by decide +kernel⟩,
   ⟨day, .management, 1, by decide +kernel⟩,
   ⟨(coreAt false (callOf 0 0 0)).put .CPX_DBG_EN 15, 1, by decide +kernel⟩,
   ⟨coreAt false (callOf 0 0 0), 1, by decide +kernel⟩,
   ⟨day, 1, by decide +kernel⟩,
   ⟨lineHeld ⟨5, 5, none, [], some 2, false⟩, 5, 5, 2, ⟨5, 5, none, [], some 2, false⟩, by decide +kernel⟩,
   ⟨lineHeld ⟨5, 5, some (.owner 1), [3], none, false⟩, 5, 5, 2, ⟨5, 5, some (.owner 1), [3], none, false⟩, .owner 1,
    by decide +kernel⟩,
   ⟨lineHeld ⟨5, 5, some (.owner 1), [], some 3, false⟩, 5, 5, 2, ⟨5, 5, some (.owner 1), [], some 3, false⟩, 3,
    by decide +kernel⟩,
   ⟨lineHeld ⟨5, 5, some (.writeback 1), [], some 2, false⟩, 5, 5, 2, ⟨5, 5, some (.writeback 1), [], some 2, false⟩,
    .writeback 1, by decide +kernel⟩,
   ⟨lineHeld ⟨5, 5, some (.owner 1), [], some 2, true⟩, 5, 5, ⟨5, 5, some (.owner 1), [], some 2, true⟩, 2,
    by decide +kernel⟩,
   ⟨lineHeld ⟨5, 5, some (.owner 1), [], some 2, false⟩, 5, 5, ⟨5, 5, some (.owner 1), [], some 2, false⟩, 2,
    by decide +kernel⟩,
   ⟨lineHeld ⟨5, 5, some (.owner 1), [0, 7, 3], none, false⟩, 5, 5, ⟨5, 5, some (.owner 1), [0, 7, 3], none, false⟩, 7, [0,
    3], by decide +kernel⟩,
   ⟨lineHeld ⟨5, 5, some (.owner 1), [], none, false⟩, 5, 5, ⟨5, 5, some (.owner 1), [], none, false⟩, by decide +kernel⟩,
   ⟨lineHeld ⟨5, 5, none, [], some 3, false⟩, 5, 5, 2, ⟨5, 5, none, [], some 3, false⟩, by decide +kernel⟩,
   ⟨lineHeld ⟨5, 5, some (.owner 1), [3], none, false⟩, 5, 5, 1, by decide +kernel⟩,
   ⟨lineHeld ⟨5, 5, some (.owner 1), [3], none, false⟩, 5, 5, 1, by decide +kernel⟩,
   ⟨day, 5, 5, by decide +kernel⟩,
   ⟨day, 4, 5, .release, 3, by decide +kernel⟩,
   ⟨sramUp, .l2, 0x1000000, [1, 2], true, by decide +kernel⟩,
   ⟨sramUp, .l3, 0x1000047, (0x1000040, freeBytes sramUp.draws 64),
    by (have e : sramUp.lineStores .l3 false 0x1000047 = [(0x1000040, freeBytes sramUp.draws 64)] := (by unfold State.lineStores; rw [if_pos (by decide +kernel)]); rw [e]; exact List.mem_singleton.mpr rfl)⟩,
   ⟨sramUp, .l1d, false, 0x1000047, [], true, by decide +kernel⟩⟩

/-- The hypotheses of PortsAndCreation can be met. -/
theorem witness_PortsAndCreation :
    (∃ (s : State) (p : Fin 4), s.up = true ∧ s.fget F.VIR_PORT_CFG.total_vfs p ≠ 0 ∧ p.val < s.recipe.hostPorts)
    ∧ (∃ (s : State) (p : Fin 4), (s.up = false ∨ s.fget F.VIR_PORT_CFG.total_vfs p = 0 ∨ s.recipe.hostPorts ≤ p.val))
    ∧ (∃ (s : State) (_ : Fin 4), s.up = true)
    ∧ (∃ (s : State) (_ : Fin 4), s.up = false)
    ∧ (∃ (s : State) (p : Fin 4) (_ : W32), s.awake = true ∧ s.vir.vfEnable.contains p.val = true)
    ∧ (∃ (s : State) (p : Fin 4) (v : W32), s.awake = true ∧ s.vir.vfEnable.contains p.val = false ∧ s.rangeOk p
    (F.VIR_PORT_CFG.first_instance.of v) (F.VIR_PORT_CFG.total_vfs.of v) = true ∧ 24 ≤ F.VIR_PORT_CFG.ap_log2.of v ∧
    F.VIR_PORT_CFG.ap_log2.of v ≤ 36)
    ∧ (∃ (s : State) (p : Fin 4) (v : W32), s.awake = true ∧ s.vir.vfEnable.contains p.val = false ∧ (s.rangeOk p
    (F.VIR_PORT_CFG.first_instance.of v) (F.VIR_PORT_CFG.total_vfs.of v) = false ∨ F.VIR_PORT_CFG.ap_log2.of v < 24 ∨ 36 <
    F.VIR_PORT_CFG.ap_log2.of v))
    ∧ (∃ (s : State) (a : Agent) (_ : Fin 4) (_ : W32), (a ≠ .manager ∨ s.awake = false))
    ∧ (∃ (s : State) (p : Fin 4) (_ : Bool), s.up = true ∧ p.val < s.recipe.hostPorts)
    ∧ (∃ (s : State) (p : Fin 4) (_ : Bool), (s.up = false ∨ s.recipe.hostPorts ≤ p.val))
    ∧ (∃ (s : State) (i : Fin 64), s.awake = true ∧ s.createError i s.askedShape = 0)
    ∧ (∃ (s : State) (i : Fin 64), s.awake = true ∧ s.createError i s.askedShape ≠ 0)
    ∧ (∃ (s : State) (i : Fin 64) (_ : Shape) (p : Nat), s.portOf i = some p ∧ s.instState i = instNone)
    ∧ (∃ (s : State) (i : Fin 64) (_ : Shape), (s.portOf i = none ∨ s.instState i ≠ instNone))
    ∧ (∃ (s : State) (a : Agent) (_ : Fin 64), (a ≠ .manager ∨ s.awake = false)) :=
  ⟨⟨offered, 0, by decide +kernel⟩,
   ⟨pool, 0, by decide +kernel⟩,
   ⟨{ offered with vir := { offered.vir with vfEnable := [0, 2] } }, 0, by decide +kernel⟩,
   ⟨State.reset, 0, by decide +kernel⟩,
   ⟨{ offered with vir := { offered.vir with vfEnable := [0] } }, 0, 5, by decide +kernel⟩,
   ⟨offered, 1, F.VIR_PORT_CFG.total_vfs.into 4 (F.VIR_PORT_CFG.first_instance.into 5 (F.VIR_PORT_CFG.ap_log2.into 36 0)),
    by decide +kernel⟩,
   ⟨offered, 1, F.VIR_PORT_CFG.total_vfs.into 4 (F.VIR_PORT_CFG.first_instance.into 4 (F.VIR_PORT_CFG.ap_log2.into 24 0)),
    by decide +kernel⟩,
   ⟨offered, .inner, 1, 5, by decide +kernel⟩,
   ⟨day, 0, true, by decide +kernel⟩,
   ⟨day, 1, true, by decide +kernel⟩,
   ⟨((offered.fset F.VIR_CREATE_SHAPE.queues 1).fset F.VIR_CREATE_SHAPE.vectors 1).fset F.VIR_CREATE_DRAM_SIZE.mib 2, 1,
    by decide +kernel⟩,
   ⟨offered, 5, by decide +kernel⟩,
   ⟨offered, 1, shapeOf, 0, by decide +kernel⟩,
   ⟨offered, 5, shapeOf, by decide +kernel⟩,
   ⟨offered, .management, 5, by decide +kernel⟩⟩

/-- The hypotheses of FreezeSaveRestore can be met. -/
theorem witness_FreezeSaveRestore :
    (∃ (s : State) (i : Fin 64), s.awake = true ∧ s.instState i = instActive ∧ s.ctxsOf i = [] ∧ s.instChans i = [] ∧ ((∀ c,
    c < 256 → s.dmaHolder c ≠ i.val)))
    ∧ (∃ (s : State) (i : Fin 64), s.awake = true ∧ s.instState i = instActive)
    ∧ (∃ (s : State) (i : Fin 64), s.awake = true ∧ s.instState i = instFrozen)
    ∧ (∃ (s : State) (i : Fin 64) (h : Shape), s.awake = true ∧ s.instState i = instFrozen ∧ s.shape i = some h ∧ saveSize h
    ≤ s.fget F.VIR_INST_BUF_LEN.len i)
    ∧ (∃ (s : State) (i : Fin 64) (h : Shape), s.awake = true ∧ s.instState i = instFrozen ∧ s.shape i = some h ∧ s.fget
    F.VIR_INST_BUF_LEN.len i < saveSize h)
    ∧ (∃ (s : State) (i : Fin 64), s.awake = true ∧ s.instState i = instSaving)
    ∧ (∃ (s : State) (i : Fin 64), (s.awake = false ∨ s.instState i ≠ instSaving))
    ∧ (∃ (s : State) (i : Fin 64) (_ : List Byte), s.awake = true ∧ s.instState i = instActive)
    ∧ (∃ (s : State) (i : Fin 64), s.awake = true ∧ s.instState i = instRestoring)
    ∧ (∃ (s : State) (i : Fin 64), (s.awake = false ∨ s.instState i ≠ instRestoring))
    ∧ (∃ (s : State) (i : Fin 64) (_ : List Byte), s.awake = true ∧ s.instState i ≠ instActive)
    ∧ (∃ (s : State) (i : Fin 64), s.awake = true ∧ s.instState i ≠ instFrozen)
    ∧ (∃ (s : State) (a : Agent) (i : Fin 64) (b : List Byte) (c : Instr), c ∈ [Instr.instFreeze a i, .instResume a i, .save
    a i, .restore a i b, .destroy a i] ∧ (a ≠ .manager ∨ s.awake = false)) :=
  ⟨⟨instAt instActive, 1, by decide +kernel⟩,
   ⟨(instAt instActive).withCtx ctxRunning, 1, by decide +kernel⟩,
   ⟨instAt instFrozen, 1, by decide +kernel⟩,
   ⟨(instAt instFrozen).fset F.VIR_INST_BUF_LEN.len 4992 1, 1, shapeOf, by decide +kernel⟩,
   ⟨(instAt instFrozen).fset F.VIR_INST_BUF_LEN.len 4991 1, 1, shapeOf, by decide +kernel⟩,
   ⟨instAt instSaving, 1, by decide +kernel⟩,
   ⟨instAt instFrozen, 1, by decide +kernel⟩,
   ⟨instAt instActive, 1, [], by decide +kernel⟩,
   ⟨instAt instRestoring, 1, by decide +kernel⟩,
   ⟨instAt instFrozen, 1, by decide +kernel⟩,
   ⟨instAt instResetting, 1, [], by decide +kernel⟩,
   ⟨instAt instActive, 1, by decide +kernel⟩,
   ⟨instAt instActive, .management, 1, [], .save .management 1, by decide +kernel⟩⟩

/-- The hypotheses of InstanceResets can be met. -/
theorem witness_InstanceResets :
    (∃ (s : State) (i : Fin 64), s.awake = true ∧ (s.instState i = instActive ∨ s.instState i = instFreezing ∨ s.instState i
    = instFrozen))
    ∧ (∃ (s : State) (i : Fin 64), s.awake = true ∧ s.instState i ≠ instActive ∧ s.instState i ≠ instFreezing ∧ s.instState
    i ≠ instFrozen)
    ∧ (∃ (s : State) (i : Fin 64), s.up = true ∧ 1 ≤ s.instState i ∧ s.instState i ≤ 5)
    ∧ (∃ (s : State) (i : Fin 64), (s.up = false ∨ s.instState i = 0 ∨ 5 < s.instState i))
    ∧ (∃ (s : State) (i : Fin 64), s.instState i = instResetting ∧ s.ctxsOf i = [] ∧ ((∀ c ∈ s.instChans i, s.chState c ≠
    chPausing)))
    ∧ (∃ (s : State) (i : Fin 64), s.instState i = instResetting ∧ s.ctxsGone i = true)
    ∧ (∃ (s : State) (i : Fin 64), (s.instState i ≠ instResetting ∨ s.ctxsGone i = false))
    ∧ (∃ (s : State) (i : Fin 64), s.instState i = instDestroying ∧ s.ctxsGone i = true)
    ∧ (∃ (s : State) (i : Fin 64), (s.instState i ≠ instDestroying ∨ s.ctxsGone i = false)) :=
  ⟨⟨instAt instFreezing, 1, by decide +kernel⟩,
   ⟨instAt instRestoring, 1, by decide +kernel⟩,
   ⟨instAt instRestoring, 1, by decide +kernel⟩,
   ⟨pool, 1, by decide +kernel⟩,
   ⟨instAt instResetting, 1, by decide +kernel⟩,
   ⟨(instAt instResetting).withCtx ctxHung, 1, by decide +kernel⟩,
   ⟨(instAt instResetting).withCtx ctxRunning, 1, by decide +kernel⟩,
   ⟨instAt instDestroying, 1, by decide +kernel⟩,
   ⟨instAt instActive, 1, by decide +kernel⟩⟩

/-- The hypotheses of InstanceMailAndTranslation can be met. -/
theorem witness_InstanceMailAndTranslation :
    (∃ (s : State) (i : Fin 64), s.awake = true ∧ s.pageTwoOpen i = true ∧ s.flag F.INST_MB_TX_STATUS.tx_busy i = false)
    ∧ (∃ (s : State) (i : Fin 64), s.awake = true ∧ (s.pageTwoOpen i = false ∨ s.flag F.INST_MB_TX_STATUS.tx_busy i = true))
    ∧ (∃ (s : State) (i : Fin 64), s.awake = true ∧ s.flag F.VIR_MB_STATUS.rx_valid i = true)
    ∧ (∃ (s : State) (i : Fin 64), s.awake = true ∧ s.flag F.VIR_MB_STATUS.rx_valid i = false)
    ∧ (∃ (s : State) (i : Fin 64), s.awake = true ∧ s.flag F.VIR_MB_STATUS.tx_busy i = false)
    ∧ (∃ (s : State) (i : Fin 64), s.awake = true ∧ s.flag F.VIR_MB_STATUS.tx_busy i = true)
    ∧ (∃ (s : State) (i : Fin 64), s.awake = true ∧ s.pageOneOpen i = true ∧ s.flag F.INST_MB_RX_STATUS.rx_valid i = true)
    ∧ (∃ (s : State) (i : Fin 64), s.awake = true ∧ (s.pageOneOpen i = false ∨ s.flag F.INST_MB_RX_STATUS.rx_valid i =
    false))
    ∧ (∃ (s : State) (a : Agent) (_ : Fin 64), (a ≠ .manager ∨ s.awake = false))
    ∧ (∃ (s : State) (_ : Fin 64), s.awake = false)
    ∧ (∃ (s : State) (i : Fin 72), s.awake = true ∧ s.pagesOpen i = true ∧ s.flag F.INV_STATUS.busy i = false)
    ∧ (∃ (s : State) (i : Fin 72), s.awake = true ∧ (s.pagesOpen i = false ∨ s.flag F.INV_STATUS.busy i = true))
    ∧ (∃ (s : State) (i : Fin 72) (r : Nat × Nat), s.up = true ∧ Tbl.get none s.vir.inv i = some r)
    ∧ (∃ (s : State) (i : Fin 72), (s.up = false ∨ Tbl.get none s.vir.inv i = none))
    ∧ (∃ (s : State) (i : Fin 72) (_ : Bool) (_ : W32), s.awake = true ∧ s.pageOneOpen i = true)
    ∧ (∃ (s : State) (i : Fin 72) (_ : Bool) (_ : W32), s.awake = true ∧ s.pageOneOpen i = false)
    ∧ (∃ (s : State) (_ : Fin 72) (_ : Bool) (_ : W32), s.awake = false) :=
  ⟨⟨instAt instActive, 1, by decide +kernel⟩,
   ⟨instAt instFrozen, 1, by decide +kernel⟩,
   ⟨(instAt instActive).fset F.VIR_MB_STATUS.rx_valid 1 1, 1, by decide +kernel⟩,
   ⟨instAt instActive, 1, by decide +kernel⟩,
   ⟨instAt instActive, 1, by decide +kernel⟩,
   ⟨(instAt instActive).fset F.VIR_MB_STATUS.tx_busy 1 1, 1, by decide +kernel⟩,
   ⟨(instAt instActive).fset F.INST_MB_RX_STATUS.rx_valid 1 1, 1, by decide +kernel⟩,
   ⟨(instAt instResetting).fset F.INST_MB_RX_STATUS.rx_valid 1 1, 1, by decide +kernel⟩,
   ⟨day, .guest 1, 1, by decide +kernel⟩,
   ⟨State.reset, 1, by decide +kernel⟩,
   ⟨instAt instActive, 71, by decide +kernel⟩,
   ⟨instAt instFrozen, 1, by decide +kernel⟩,
   ⟨{ instAt instActive with vir := { (instAt instActive).vir with inv := [(1, some (4, 2))] } }, 1, (4, 2),
    by decide +kernel⟩,
   ⟨day, 1, by decide +kernel⟩,
   ⟨instAt instActive, 1, true, 0xFFFFFFFF, by decide +kernel⟩,
   ⟨instAt instResetting, 1, false, 0xFFFFFFFF, by decide +kernel⟩,
   ⟨State.reset, 71, false, 0xFFFFFFFF, by decide +kernel⟩⟩

/-- The hypotheses of DmaTriggersAndPause can be met. -/
theorem witness_DmaTriggersAndPause :
    (∃ (s : State) (a : Agent) (c : Fin 256), ChannelReach s a c ∧ s.day = true ∧ s.chState c = chIdle ∧ (s.flag
    F.ENG_STATUS.busy (c.val / 16) = true ∨ s.flag F.PMU_STATE_STATUS.entering = true))
    ∧ (∃ (s : State) (a : Agent) (c : Fin 256), ChannelReach s a c ∧ (s.day = false ∨ s.chState c ≠ chIdle))
    ∧ (∃ (s : State) (a : Agent) (c : Fin 256) (r : Fetched), ChannelReach s a c ∧ Startable s c ∧ r = firstRead s c ∧
    (s.chRing c = false ∨ r.fault.isSome = true ∨ r.failed = true ∨ descBit r.bytes 0 = true))
    ∧ (∃ (s : State) (a : Agent) (c : Fin 256) (r : Fetched), ChannelReach s a c ∧ Startable s c ∧ r = firstRead s c ∧
    s.chRing c = true ∧ r.fault = none ∧ r.failed = false ∧ descBit r.bytes 0 = false)
    ∧ (∃ (s : State) (a : Agent) (_ : Fin 256), (s.awake = false ∨ a = .island ∨ a = .inner ∨ a = .management))
    ∧ (∃ (s : State) (a : Agent) (c : Fin 256), s.awake = true ∧ ((∃ i, a = .guest i) ∨ (∃ p, a = .partition p)) ∧
    (((s.heldChannels (ownerOf a)).take 32).contains c.val = false ∨ s.pageOneOpen (ownerOf a) = false))
    ∧ (∃ (s : State) (e : Fin 16) (t : Fin 4), s.day = true ∧ s.timerDue e t = true)
    ∧ (∃ (s : State) (e : Fin 16) (t : Fin 4), (s.day = false ∨ s.timerDue e t = false))
    ∧ (∃ (s : State) (p : Fin 8) (_ : Bool), s.up = true ∧ s.admitted = true ∧ s.recipe.periph (212 + p.val) = true)
    ∧ (∃ (s : State) (p : Fin 8) (_ : Bool), (s.up = false ∨ s.admitted = false ∨ s.recipe.periph (212 + p.val) = false))
    ∧ (∃ (s : State) (c : Fin 256), s.awake = true ∧ s.chState c = chRunning)
    ∧ (∃ (s : State) (c : Fin 256), s.awake = true ∧ (s.chState c = chReady ∨ s.chState c = chIdle))
    ∧ (∃ (s : State) (c : Fin 256), s.awake = true ∧ chPausing ≤ s.chState c)
    ∧ (∃ (s : State) (c : Fin 256), s.day = true ∧ s.chState c = chPausing ∧ s.instState (s.dmaHolder c) ≠ 6 ∧ s.instState
    (s.dmaHolder c) ≠ 7)
    ∧ (∃ (s : State) (c : Fin 256), (s.day = false ∨ s.chState c ≠ chPausing ∨ s.instState (s.dmaHolder c) = 6 ∨ s.instState
    (s.dmaHolder c) = 7))
    ∧ (∃ (s : State) (c : Fin 256), s.awake = true ∧ s.chState c = chPaused ∧ (s.chan c).unfinished = false)
    ∧ (∃ (s : State) (c : Fin 256), s.awake = true ∧ s.chState c = chPaused ∧ (s.chan c).unfinished = true ∧ (s.dmaHeld =
    true ∨ s.flag F.ENG_STATUS.busy (c.val / 16) = true))
    ∧ (∃ (s : State) (c : Fin 256), s.awake = true ∧ s.chState c = chPaused ∧ (s.chan c).unfinished = true ∧ (s.chan c).desc
    ≠ [] ∧ s.dmaHeld = false ∧ s.flag F.ENG_STATUS.busy (c.val / 16) = false ∧ ((∀ d, d < 256 → d / 16 = c.val / 16 →
    s.chState d ≠ chReady)))
    ∧ (∃ (s : State) (c : Fin 256), s.awake = true ∧ s.chState c ≠ chPaused)
    ∧ (∃ (s : State) (a : Agent) (_ : Fin 256), (a ≠ .manager ∨ s.awake = false))
    ∧ (∃ (s : State) (n : Fin 8) (_ : W32), s.awake = true ∧ s.flag F.CRC_STATUS.busy n = false)
    ∧ (∃ (s : State) (n : Fin 8) (_ : W32), s.awake = true ∧ s.flag F.CRC_STATUS.busy n = true)
    ∧ (∃ (s : State) (a : Agent) (_ : Fin 8) (_ : W32), (a ≠ .manager ∨ s.awake = false)) :=
  ⟨⟨chanAt chIdle 1, .manager, 70, by unfold ChannelReach; decide +kernel⟩,
   ⟨chanAt chPaused 1, .manager, 70, by unfold ChannelReach; decide +kernel⟩,
   ⟨chanAt chIdle 0, .manager, 70, firstRead (chanAt chIdle 0) 70,
    by unfold Startable ChannelReach; and_intros <;> first | decide +kernel | rfl⟩,
   ⟨(chanAt chIdle 0).fset F.CH_CFG.form 1 70, .manager, 70, firstRead ((chanAt chIdle 0).fset F.CH_CFG.form 1 70) 70,
    by unfold Startable ChannelReach; and_intros <;> first | decide +kernel | rfl⟩,
   ⟨day, .management, 70, by decide +kernel⟩,
   ⟨day, .guest 1, 70,
    by and_intros <;> first | decide +kernel | exact Or.inl ⟨_, rfl⟩⟩,
   ⟨(((chanAt chIdle 1).put .TIMER_PERIOD 1000 4 2).put .CH_TRIG (F.CH_TRIG.kind.into 1 (F.CH_TRIG.source.into 2 0))
    70).atSt 5000, 4, 2, by decide +kernel⟩,
   ⟨day, 4, 2, by decide +kernel⟩,
   ⟨(chanAt chIdle 1).put .CH_TRIG (F.CH_TRIG.kind.into 4 (F.CH_TRIG.source.into 0 0)) 70, 0, false, by decide +kernel⟩,
   ⟨day, 0, false, by decide +kernel⟩,
   ⟨chanAt chRunning 1, 70, by decide +kernel⟩,
   ⟨chanAt chReady 1, 70, by decide +kernel⟩,
   ⟨chanAt chPausing 1, 70, by decide +kernel⟩,
   ⟨(moving (descOf 1 2 8)).fset F.CH_STATUS.state chPausing 70, 70, by decide +kernel⟩,
   ⟨chanAt chIdle 1, 70, by decide +kernel⟩,
   ⟨chanAt chPaused 1, 70, by decide +kernel⟩,
   ⟨(chanAt chPaused 1).setChan 70 ⟨1, true, false, [], true⟩, 70, by decide +kernel⟩,
   ⟨(chanAt chPaused 0).setChan 70 ⟨1, true, false, descOf 1 2 8, true⟩, 70, by decide +kernel⟩,
   ⟨chanAt chRunning 1, 70, by decide +kernel⟩,
   ⟨day, .partition 1, 70, by decide +kernel⟩,
   ⟨day, 7, 0x12345678, by decide +kernel⟩,
   ⟨day.fset F.CRC_STATUS.busy 1 7, 7, 0x12345678, by decide +kernel⟩,
   ⟨day, .inner, 7, 1, by decide +kernel⟩⟩

/-- The hypotheses of DescriptorCompletes can be met. -/
theorem witness_DescriptorCompletes :
    (∃ (s : State) (e : Fin 16) (c : Nat) (w : DmaWork) (code : Nat) (v : State), InProgress s e c ∧ w = s.dmaMove c (s.chan
    c).desc (s.dmaLeft c) ∧ (code = (if (s.chan c).readable = false ∨ descOk (s.chRing c) (s.chan c).desc = false then
    dmaDescErr else if w.code = 0 then dmaDone else w.code)) ∧ v = completedState w c code)
    ∧ (∃ (s : State) (e : Fin 16) (c : Nat) (w : DmaWork), InProgress s e c ∧ s.chRing c = false ∧ (s.chan c).readable =
    true ∧ descOk false (s.chan c).desc = true ∧ descBit (s.chan c).desc 3 = false ∧ w = s.dmaMove c (s.chan c).desc
    (s.dmaLeft c) ∧ w.code = 0)
    ∧ (∃ (s : State) (e : Fin 16) (c : Nat) (w : DmaWork), InProgress s e c ∧ s.chRing c = false ∧ (s.chan c).readable =
    true ∧ descOk false (s.chan c).desc = true ∧ descBit (s.chan c).desc 9 = false ∧ s.flag F.PMU_STATE_STATUS.entering =
    false ∧ w = s.dmaMove c (s.chan c).desc (s.dmaLeft c) ∧ w.code = 0)
    ∧ (∃ (s : State) (e : Fin 16) (c : Nat) (d : List Byte), InProgress s e c ∧ s.chRing c = false ∧ d = (s.chan c).desc ∧
    (s.chan c).readable = true ∧ descOk false d = true ∧ descMode d = 0 ∧ descRows d = 1 ∧ descBit d 9 = true ∧ descBit d 3
    = false ∧ descBit d 4 = false ∧ s.get .CH_DONE_BYTES c = 0 ∧ Reaches s (.dma c) (s.dmaHolder c) (descSrc d) (descLength
    d) false ∧ Reaches s (.dma c) (s.dmaHolder c) (descDst d) (descLength d) true ∧ (descSrc d + descLength d ≤ descDst d ∨
    descDst d + descLength d ≤ descSrc d))
    ∧ (∃ (s : State) (e : Fin 16) (c : Nat), c = 16 * e.val + s.fget F.ENG_STATUS.channel e ∧ (s.day = false ∨ s.flag
    F.ENG_STATUS.busy e = false ∨ s.chState c ≠ chRunning ∨ (s.chan c).crcWait = true)) :=
  ⟨⟨moving (descOf 9 2 8), 4, 70, (moving (descOf 9 2 8)).dmaMove 70 (descOf 9 2 8) ((moving (descOf 9 2 8)).dmaLeft 70),
    dmaDone, completedState ((moving (descOf 9 2 8)).dmaMove 70 (descOf 9 2 8) ((moving (descOf 9 2 8)).dmaLeft 70)) 70
    dmaDone,
    by unfold InProgress; and_intros <;> first | decide +kernel | rfl⟩,
   ⟨moving (descOf 1 2 8), 4, 70, (moving (descOf 1 2 8)).dmaMove 70 (descOf 1 2 8) ((moving (descOf 1 2 8)).dmaLeft 70),
    by unfold InProgress; and_intros <;> first | decide +kernel | rfl⟩,
   ⟨moving (descOf 1 0 8), 4, 70, (moving (descOf 1 0 8)).dmaMove 70 (descOf 1 0 8) ((moving (descOf 1 0 8)).dmaLeft 70),
    by unfold InProgress; and_intros <;> first | decide +kernel | rfl⟩,
   ⟨moving (descOf 1 2 8), 4, 70, descOf 1 2 8,
    by unfold InProgress; and_intros <;> first | decide +kernel | exact reaches_of_all (by decide +kernel)⟩,
   ⟨day, 4, 64, by decide +kernel⟩⟩

/-- The hypotheses of CrcCheckCompares can be met. -/
theorem witness_CrcCheckCompares :
    (∃ (s : State) (n : Fin 8), s.awake = true ∧ s.crcResult n = (s.get .CRC_EXPECT n 1).toNat * 2 ^ 32 + (s.get .CRC_EXPECT
    n 0).toNat)
    ∧ (∃ (s : State) (n : Fin 8), s.awake = true ∧ s.crcResult n ≠ (s.get .CRC_EXPECT n 1).toNat * 2 ^ 32 + (s.get
    .CRC_EXPECT n 0).toNat)
    ∧ (∃ (s : State) (a : Agent) (_ : Fin 8), (a ≠ .manager ∨ s.awake = false)) :=
  ⟨⟨day, 7, by decide +kernel⟩,
   ⟨day.put .CRC_EXPECT 1 7 1, 7, by decide +kernel⟩,
   ⟨day, .management, 7, by decide +kernel⟩⟩

/-- The hypotheses of ChannelBaseWrites can be met. -/
theorem witness_ChannelBaseWrites :
    (∃ (s : State) (a : Agent) (sp : Space) (addr : Nat) (_ : BitVec 64) (key : RegKey) (via : Option Nat), addr % 4 = 0 ∧
    s.reaches a sp addr = .reg key via ∧ key.reg ∈ [Reg.CH_BASE_LO, .CH_BASE_HI, .CH_CQ_LO, .CH_CQ_HI] ∧ s.chState key.i ≠
    chIdle)
    ∧ (∃ (s : State) (a : Agent) (sp : Space) (addr : Nat) (_ : BitVec 64) (key : RegKey) (via : Option Nat), addr % 4 = 0 ∧
    s.reaches a sp addr = .reg key via ∧ key.reg ∈ [Reg.CH_BASE_LO, .CH_BASE_HI, .CH_CQ_LO, .CH_CQ_HI] ∧ s.chState key.i =
    chIdle)
    ∧ (∃ (s : State) (a : Agent) (sp : Space) (addr : Nat) (_ : BitVec 64) (key : RegKey) (via : Option Nat), addr % 4 = 0 ∧
    s.reaches a sp addr = .reg key via ∧ key.reg = .CH_CQ_HEAD)
    ∧ (∃ (_ : Agent) (key : RegKey) (_ : Option Nat) (_ _ : W32), key.reg ∈ [Reg.CH_BASE_LO, .CH_BASE_HI, .CH_CQ_LO,
    .CH_CQ_HI, .CH_CQ_HEAD]) :=
  ⟨⟨chanAt chReady 1, .manager, .main, 0x16000000 + 0x10000 + 0x40 * 70, 0x2000000, ⟨.CH_BASE_LO, 70, 0⟩, none,
    by decide +kernel⟩,
   ⟨chanAt chIdle 1, .manager, .main, 0x16000000 + 0x10000 + 0x40 * 70, 0x2000000, ⟨.CH_BASE_LO, 70, 0⟩, none,
    by decide +kernel⟩,
   ⟨chanAt chReady 1, .manager, .main, 0x16000000 + 0x10000 + 0x40 * 70 + 16, 0x20, ⟨.CH_CQ_HEAD, 70, 0⟩, none,
    by decide +kernel⟩,
   ⟨.manager, ⟨.CH_CQ_LO, 255, 0⟩, none, 5, 6, by decide +kernel⟩⟩

/-- The hypotheses of TouchControllers can be met. -/
theorem witness_TouchControllers :
    (∃ (s : State) (c : Fin 4) (_ : List Nat) (_ : List CodeRuns) (_ _ : List Nat), s.frameDue c = true)
    ∧ (∃ (s : State) (c : Fin 4) (_ : List Nat) (_ : List CodeRuns) (_ _ : List Nat), s.frameDue c = false)
    ∧ (∃ (s : State) (c : Fin 4) (fr : TouchFrame), ResultDue s c fr)
    ∧ (∃ (s : State) (c : Fin 4) (fr : TouchFrame), ResultDue s c fr ∧ (s.tc c).frames < 8 ∧ (s.tc c).skip = 0)
    ∧ (∃ (s : State) (c : Fin 4) (fr : TouchFrame) (g : List Byte), ResultDue s c fr ∧ 8 ≤ (s.tc c).frames ∧ fr.stale = [] ∧
    s.recipe.regionsOf c = [g] ∧ s.regionBit .TCH_DEGRADED c (u8 g 1) = false ∧ s.regionBit .TCH_REGION c (u8 g 1) = false ∧
    ((∃ k ∈ s.contactsNow c fr, k.lifted = false ∧ k.stale = false ∧ inRegion g k = true)))
    ∧ (∃ (s : State) (c : Fin 4) (fr : TouchFrame) (g : List Byte), ResultDue s c fr ∧ 8 ≤ (s.tc c).frames ∧ fr.stale = [] ∧
    s.recipe.regionsOf c = [g] ∧ s.regionBit .TCH_DEGRADED c (u8 g 1) = false ∧ s.regionBit .TCH_REGION c (u8 g 1) = true ∧
    ((∀ k ∈ s.contactsNow c fr, k.lifted = false → inRegion g k = false)))
    ∧ (∃ (s : State) (c : Fin 4), (s.up = false ∨ s.flag F.TCH_CTRL.enable c = false ∨ 2 < s.pwr.state ∨ (s.tc
    c).scans.find? (fun f => resultTime f.fs == s.gridTime.toNat) = none))
    ∧ (∃ (s : State) (_ : Fin 4), s.clocked .TCH = true)
    ∧ (∃ (s : State) (c : Fin 4) (_ : Bool), s.clocked .TCH = true ∧ bit s.recipe.tchMask c = 1)
    ∧ (∃ (s : State) (c : Fin 4) (_ : Bool), s.clocked .TCH = true ∧ bit s.recipe.tchMask c = 0)
    ∧ (∃ (s : State) (_ : Fin 4), s.clocked .TCH = true)
    ∧ (∃ (s : State) (a : Agent) (_ : Fin 4) (_ : Bool), (a ≠ .manager ∨ s.clocked .TCH = false))
    ∧ (∃ (s : State) (rows cols : List Nat) (p : Nat × Nat) (c : Nat) (x : TouchCtrl), s.wakeScanDue = true ∧ s.wakeContact
    rows cols = some p ∧ c = s.recipe.wakeCtrl ∧ x = s.tc c ∧ s.recipe.wakeGesture = 2 ∧ ((∃ e ∈ x.trail, (s.gridTime -
    e.1).toNat ≤ 500000000 ∧ swiped s.recipe.swipeDir s.recipe.swipeLen e.2 p = true)))
    ∧ (∃ (s : State) (rows cols : List Nat) (p : Nat × Nat) (c : Nat) (x : TouchCtrl), s.wakeScanDue = true ∧ s.wakeContact
    rows cols = some p ∧ c = s.recipe.wakeCtrl ∧ x = s.tc c ∧ ((s.recipe.wakeGesture ≠ 2 ∨ ∀ e ∈ x.trail, 500000000 <
    (s.gridTime - e.1).toNat ∨ swiped s.recipe.swipeDir s.recipe.swipeLen e.2 p = false)))
    ∧ (∃ (s : State) (rows cols : List Nat) (c : Nat) (x : TouchCtrl) (h f : ST × Nat × Nat) (a b : ST × ST × Nat × Nat),
    s.wakeScanDue = true ∧ s.wakeContact rows cols = none ∧ c = s.recipe.wakeCtrl ∧ x = s.tc c ∧ x.trail.head? = some h ∧
    x.trail.getLast? = some f ∧ x.tap = some a ∧ b = (f.1, h.1, h.2) ∧ s.recipe.wakeGesture = 1 ∧ doubleTap a b = true)
    ∧ (∃ (s : State) (rows cols : List Nat) (c : Nat) (x : TouchCtrl) (h f : ST × Nat × Nat) (b : ST × ST × Nat × Nat),
    s.wakeScanDue = true ∧ s.wakeContact rows cols = none ∧ c = s.recipe.wakeCtrl ∧ x = s.tc c ∧ x.trail.head? = some h ∧
    x.trail.getLast? = some f ∧ b = (f.1, h.1, h.2) ∧ ((s.recipe.wakeGesture ≠ 1 ∨ x.tap = none ∨ ∃ a, x.tap = some a ∧
    doubleTap a b = false)))
    ∧ (∃ (s : State) (rows cols : List Nat), s.wakeScanDue = true ∧ s.wakeContact rows cols = none ∧ (s.tc
    s.recipe.wakeCtrl).trail = [])
    ∧ (∃ (s : State) (_ _ : List Nat), s.wakeScanDue = false)
    ∧ (∃ (s : State), s.up = true ∧ s.pwr.state = 3 ∧ s.hasBit .PMU_WAKE_EN 7 = true) :=
  ⟨⟨touching.atSt 4166666, 0, [9, 5, 70000], [⟨0, [List.replicate 1 (List.replicate 16 (3, 4)), [[(1, 1)]]]⟩], [7], [8],
    by decide +kernel⟩,
   ⟨touching, 0, [9, 5], [], [], [], by decide +kernel⟩,
   ⟨touching, 0, finger, by unfold ResultDue; decide +kernel⟩,
   ⟨touching.touchIs (fun x => { x with frames := 7 }), 0, finger, by unfold ResultDue; decide +kernel⟩,
   ⟨touching, 0, finger, slice (touching.recipe.sec 12) 224 16,
    by and_intros <;> first | (unfold ResultDue; decide +kernel) | decide +kernel⟩,
   ⟨(touching.put .TCH_REGION 8 0).touchIs (fun x => { x with baseM := [(0, 800)] }), 0, finger, slice (touching.recipe.sec
    12) 224 16, by unfold ResultDue; decide +kernel⟩,
   ⟨touching.inPower 3, 0, by decide +kernel⟩,
   ⟨touching, 0, by decide +kernel⟩,
   ⟨touching.fset F.TCH_CTRL.enable 0 0, 0, true, by decide +kernel⟩,
   ⟨touching, 3, true, by decide +kernel⟩,
   ⟨touching.put .TCH_CONTACT_A 7 0 3, 0, by decide +kernel⟩,
   ⟨touching, .management, 0, true, by decide +kernel⟩,
   ⟨(asleep 2).touchIs (fun x => { x with trail := [(49000000, 32, 32)] }), [10], [0, 0, 10], (160, 32), 0, (((asleep
    2).touchIs (fun x => { x with trail := [(49000000, 32, 32)] }))).tc 0, by decide +kernel⟩,
   ⟨asleep 2, [10], [10], (32, 32), 0, ((asleep 2)).tc 0, by decide +kernel⟩,
   ⟨(asleep 1).touchIs (fun x => { x with trail := [(49000000, 32, 32)], tap := some (40000000, 45000000, 32, 32) }), [],
    [], 0, (((asleep 1).touchIs (fun x =>
    { x with trail := [(49000000, 32, 32)], tap := some (40000000, 45000000, 32, 32) }))).tc 0, (49000000, 32, 32),
    (49000000, 32, 32), (40000000, 45000000, 32, 32), (49000000, 49000000, 32, 32), by decide +kernel⟩,
   ⟨(asleep 2).touchIs (fun x => { x with trail := [(49000000, 32, 32)] }), [], [], 0, (((asleep 2).touchIs (fun x =>
    { x with trail := [(49000000, 32, 32)] }))).tc 0, (49000000, 32, 32), (49000000, 32, 32), (49000000, 49000000, 32, 32),
    by decide +kernel⟩,
   ⟨asleep 2, [], [], by decide +kernel⟩,
   ⟨touching, [10], [10], by decide +kernel⟩,
   ⟨(touching.inPower 3).put .PMU_WAKE_EN 128, by decide +kernel⟩⟩

/-- The hypotheses of HapticChannels can be met. -/
theorem witness_HapticChannels :
    (∃ (s : State) (ch : Fin 16) (w _ : Byte), s.hapAccepts ch w.toNat = true ∧ s.hapRival ch = none)
    ∧ (∃ (s : State) (ch : Fin 16) (w _ : Byte) (old : FireSource), s.hapAccepts ch w.toNat = true ∧ s.hapRival ch = some
    old ∧ old.rank ≤ 3000)
    ∧ (∃ (s : State) (ch : Fin 16) (w _ : Byte), s.awake = true ∧ s.hapAccepts ch w.toNat = false)
    ∧ (∃ (s : State) (ch : Fin 16), s.awake = true ∧ (s.hapState ch = hapOverdrive ∨ s.hapState ch = hapDrive))
    ∧ (∃ (s : State) (ch : Fin 16), s.awake = true ∧ s.hapState ch ≠ hapOverdrive ∧ s.hapState ch ≠ hapDrive)
    ∧ (∃ (s : State) (ch : Fin 16), s.awake = true ∧ s.hapState ch = hapFault)
    ∧ (∃ (s : State) (ch : Fin 16), s.awake = true ∧ s.hapState ch ≠ hapFault)
    ∧ (∃ (s : State) (a : Agent) (ch : Fin 16) (w amp : Byte) (c : Instr), c ∈ [Instr.hapChFire a ch w amp, .hapStop a ch,
    .clearFault a ch] ∧ (a ≠ .manager ∨ s.awake = false))
    ∧ (∃ (s : State) (ch : Fin 16) (_ : Nat), (s.awake = false ∨ s.hapPlaying ch = false))
    ∧ (∃ (s : State) (ch : Fin 16) (mA : Nat) (x : HapCh) (f : Nat), s.awake = true ∧ s.hapPlaying ch = true ∧ mA < hapImax
    (s.recipe.hapCh ch) ∧ x = s.hapCh ch ∧ f = waveFreq (s.hapWave ch) ∧ x.prog + f < 200000)
    ∧ (∃ (s : State) (ch : Fin 16) (mA : Nat) (x : HapCh) (w : List Byte) (n : Nat), s.awake = true ∧ s.hapPlaying ch = true
    ∧ mA < hapImax (s.recipe.hapCh ch) ∧ x = s.hapCh ch ∧ x.limited = false ∧ w = s.hapWave ch ∧ 200000 ≤ x.prog + waveFreq
    w ∧ n = x.cycles + 1)
    ∧ (∃ (s : State) (ch : Fin 16) (mA : Nat), s.awake = true ∧ s.hapPlaying ch = true ∧ hapImax (s.recipe.hapCh ch) ≤ mA)
    :=
  ⟨⟨hapAt hapIdle HapCh.initial, 0, 0, 255, by decide +kernel⟩,
   ⟨hapAt hapDrive { HapCh.initial with firedAt := some 0 }, 0, 0, 255, .register, by decide +kernel⟩,
   ⟨hapAt hapIdle HapCh.initial, 0, 1, 255, by decide +kernel⟩,
   ⟨hapAt hapDrive HapCh.initial, 0, by decide +kernel⟩,
   ⟨hapAt hapBrake HapCh.initial, 0, by decide +kernel⟩,
   ⟨hapAt hapFault HapCh.initial, 0, by decide +kernel⟩,
   ⟨hapAt hapIdle HapCh.initial, 0, by decide +kernel⟩,
   ⟨day, .management, 0, 0, 255, .hapStop .management 0, by decide +kernel⟩,
   ⟨hapAt hapIdle HapCh.initial, 0, 50, by decide +kernel⟩,
   ⟨hapAt hapOverdrive { HapCh.initial with prog := 198999 }, 0, 99, ((hapAt hapOverdrive
    { HapCh.initial with prog := 198999 })).hapCh 0, 1000, by decide +kernel⟩,
   ⟨hapAt hapDrive { HapCh.initial with prog := 199000, cycles := 1 }, 0, 3, ((hapAt hapDrive
    { HapCh.initial with prog := 199000, cycles := 1 })).hapCh 0, ((hapAt hapDrive
    { HapCh.initial with prog := 199000, cycles := 1 })).hapWave 0, 2, by decide +kernel⟩,
   ⟨hapAt hapDrive { HapCh.initial with prog := 199000, limitRun := 2 }, 0, 100, by decide +kernel⟩⟩

/-- The hypotheses of DmxPorts can be met. -/
theorem witness_DmxPorts :
    (∃ (s : State) (p : Fin 16), s.dmxAccepts p = true)
    ∧ (∃ (s : State) (p : Fin 16), s.awake = true ∧ s.dmxAccepts p = false)
    ∧ (∃ (s : State) (p : Fin 16) (x : DmxPort) (b : List (BitVec 8)), s.up = true ∧ s.dmxState p = dmxFrame ∧ x = s.dmxPort
    p ∧ x.fetched = false ∧ b = BitVec.ofNat 8 (F.DMX_CFG.start_code.of x.liveCfg) :: (s.dmxSlots p).1)
    ∧ (∃ (s : State) (p : Fin 16), (s.up = false ∨ s.dmxState p ≠ dmxFrame ∨ (s.dmxPort p).fetched = true))
    ∧ (∃ (s : State) (p : Fin 16), s.up = true ∧ s.dmxState p = dmxFrame ∧ (s.dmxPort p).fetched = true ∧ (s.dmxPort
    p).endTick ≤ s.tim.ticks)
    ∧ (∃ (s : State) (p : Fin 16), (s.up = false ∨ s.dmxState p ≠ dmxFrame ∨ (s.dmxPort p).fetched = false ∨ s.tim.ticks <
    (s.dmxPort p).endTick))
    ∧ (∃ (s : State) (p : Fin 16) (b : List Byte), s.dmxStale p = true ∧ b = (s.dmxPort p).last.getD [])
    ∧ (∃ (s : State) (p : Fin 16), s.dmxStale p = false)
    ∧ (∃ (s : State) (p : Fin 16) (_ : Byte) (x : DmxPort) (a : Nat), s.dmxReceives p = true ∧ x = s.dmxPort p ∧
    x.rxBreak.isSome = true ∧ x.rxBad = false ∧ x.rxBytes.length < 513 ∧ a = s.dmxBuf p + 1024 * x.rxHalf + x.rxBytes.length
    ∧ Reaches s .io (s.dmxHolder p) a 1 true)
    ∧ (∃ (s : State) (p : Fin 16) (_ : Byte) (x : DmxPort), s.dmxReceives p = true ∧ x = s.dmxPort p ∧ x.rxBreak.isSome =
    true ∧ x.rxBad = false ∧ x.rxBytes.length < 513)
    ∧ (∃ (s : State) (p : Fin 16) (_ : Byte), s.dmxReceives p = true ∧ (s.dmxPort p).rxBreak.isSome = true ∧ (s.dmxPort
    p).rxBad = false ∧ (s.dmxPort p).rxBytes.length < 513)
    ∧ (∃ (s : State) (p : Fin 16) (_ : Byte) (_ : Bool), s.dmxReceives p = true ∧ ((s.dmxPort p).rxBreak = none ∨ (s.dmxPort
    p).rxBad = true ∨ 513 ≤ (s.dmxPort p).rxBytes.length))
    ∧ (∃ (s : State) (p : Fin 16) (_ : Byte) (_ : Bool) (_ : Option DmxBreak), s.dmxReceives p = false)
    ∧ (∃ (s : State) (p : Fin 16) (_ : Byte) (b : DmxBreak), s.dmxReceives p = true ∧ 88000 ≤ b.lowNs ∧ 8000 ≤ b.markNs)
    ∧ (∃ (s : State) (p : Fin 16) (_ : Byte) (_ : Bool) (b : DmxBreak), s.dmxReceives p = true ∧ 88000 ≤ b.lowNs ∧ b.markNs
    < 8000)
    ∧ (∃ (s : State) (p : Fin 16) (_ : Byte) (_ : Bool) (b : DmxBreak), s.dmxReceives p = true ∧ b.lowNs < 88000 ∧
    (s.dmxPort p).rxBreak.isSome = true ∧ (s.dmxPort p).rxBad = false)
    ∧ (∃ (s : State) (p : Fin 16) (st : BitVec 64) (x : DmxPort), s.dmxReceives p = true ∧ x = s.dmxPort p ∧ x.rxBreak =
    some st ∧ x.rxBad = false ∧ x.rxBytes ≠ [] ∧ x.rxHalf < 2 ∧ x.rxBytes.length ≤ 513)
    ∧ (∃ (s : State) (p : Fin 16), s.dmxReceives p = true ∧ (s.dmxPort p).rxBreak.isSome = true ∧ ((s.dmxPort p).rxBad =
    true ∨ (s.dmxPort p).rxBytes = []))
    ∧ (∃ (s : State) (p : Fin 16), (s.dmxReceives p = false ∨ (s.dmxPort p).rxBreak = none))
    ∧ (∃ (s : State) (_ : Fin 16), s.awake = true) :=
  ⟨⟨dmxAt modeTx dmxIdle DmxPort.initial, 0, by decide +kernel⟩,
   ⟨dmxAt modeTx dmxFrame DmxPort.initial, 0, by decide +kernel⟩,
   ⟨(dmxAt modeTx dmxFrame { DmxPort.initial with liveCfg := 0x00040001 }).atTick 7, 0,
    { DmxPort.initial with liveCfg := 0x00040001 }, BitVec.ofNat 8 (F.DMX_CFG.start_code.of (0x00040001 : W32)) :: (((dmxAt
    modeTx dmxFrame { DmxPort.initial with liveCfg := 0x00040001 }).atTick 7).dmxSlots 0).1, by decide +kernel⟩,
   ⟨dmxAt modeTx dmxFrame { DmxPort.initial with fetched := true }, 0, by decide +kernel⟩,
   ⟨dmxAt modeTx dmxFrame { DmxPort.initial with fetched := true }, 0, by decide +kernel⟩,
   ⟨dmxAt modeTx dmxFrame { DmxPort.initial with fetched := true, endTick := 1 }, 0, by decide +kernel⟩,
   ⟨((dmxAt modeTx dmxIdle { DmxPort.initial with last := some [0, 1, 2] }).fset F.DMX_TIMING2.refresh_ms 1 0).atTick
    2000000, 0, [0, 1, 2], by decide +kernel⟩,
   ⟨dmxAt modeTx dmxIdle DmxPort.initial, 0, by decide +kernel⟩,
   ⟨dmxHears [0], 0, 7, { DmxPort.initial with rxBreak := some 9, rxBytes := [0] }, 0x800000001,
    by and_intros <;> first | decide +kernel | exact reaches_of_all (by decide +kernel)⟩,
   ⟨dmxHears [], 0, 7, { DmxPort.initial with rxBreak := some 9 }, by decide +kernel⟩,
   ⟨dmxHears [], 0, 7, by decide +kernel⟩,
   ⟨dmxAt modeRx dmxIdle DmxPort.initial, 0, 7, false, by decide +kernel⟩,
   ⟨dmxAt modeTx dmxIdle DmxPort.initial, 0, 7, false, none, by decide +kernel⟩,
   ⟨dmxHears [0], 0, 7, ⟨4000, 88000, 8000⟩, by decide +kernel⟩,
   ⟨dmxHears [0], 0, 7, false, ⟨4000, 88000, 7999⟩, by decide +kernel⟩,
   ⟨dmxHears [0], 0, 7, true, ⟨4000, 87999, 9000⟩, by decide +kernel⟩,
   ⟨dmxHears [0, 9], 0, 9, { DmxPort.initial with rxBreak := some 9, rxBytes := [0, 9] }, by decide +kernel⟩,
   ⟨dmxHears [], 0, by decide +kernel⟩,
   ⟨dmxAt modeRx dmxIdle DmxPort.initial, 0, by decide +kernel⟩,
   ⟨dmxAt modeRx dmxIdle DmxPort.initial, 0, by decide +kernel⟩⟩

/-- The hypotheses of RdmTransactions can be met. -/
theorem witness_RdmTransactions :
    (∃ (s : State) (p : Fin 16) (d : Bool) (c : Instr), s.awake = true ∧ s.dmxMode p = modeRdm ∧ (s.dmxPort p).rdmQueued =
    none ∧ (s.dmxPort p).rdmRunning = none ∧ 24 ≤ s.fget F.DMX_RDM_LEN.msg_len p ∧ c = (if d then Instr.rdmDiscovery
    .manager p else Instr.rdmTransaction .manager p))
    ∧ (∃ (s : State) (p : Fin 16), s.awake = true ∧ (s.dmxMode p ≠ modeRdm ∨ (s.dmxPort p).rdmQueued.isSome = true ∨
    (s.dmxPort p).rdmRunning.isSome = true ∨ s.fget F.DMX_RDM_LEN.msg_len p < 24))
    ∧ (∃ (s : State) (p : Fin 16) (d : Bool) (b : List Byte), s.awake = true ∧ (s.dmxPort p).rdmQueued = some d ∧ s.rdmFits
    p d = true ∧ b = (s.engineRead .io (s.dmxHolder p) (s.rdmAddr p) (s.fget F.DMX_RDM_LEN.msg_len p)).bytes)
    ∧ (∃ (s : State) (p : Fin 16) (d : Bool), s.awake = true ∧ (s.dmxPort p).rdmQueued = some d ∧ s.rdmFits p d = false)
    ∧ (∃ (s : State) (p : Fin 16), (s.awake = false ∨ (s.dmxPort p).rdmQueued = none))
    ∧ (∃ (s : State) (p : Fin 16) (_ : List Byte) (_ : Bool), s.awake = true ∧ (s.dmxPort p).rdmRunning = some false)
    ∧ (∃ (s : State) (p : Fin 16) (b : List Byte) (uid : Nat), s.awake = true ∧ (s.dmxPort p).rdmRunning = some true ∧
    discUid b = some uid)
    ∧ (∃ (s : State) (p : Fin 16) (b : List Byte) (ok : Bool), s.awake = true ∧ (s.dmxPort p).rdmRunning = some true ∧
    (discUid b = none ∨ ok = false))
    ∧ (∃ (s : State) (p : Fin 16) (_ : List Byte) (_ : Bool), (s.awake = false ∨ (s.dmxPort p).rdmRunning = none))
    ∧ (∃ (s : State) (p : Fin 16) (d : Bool), s.awake = true ∧ (s.dmxPort p).rdmRunning = some d ∧ (s.dmxPort p).endTick +
    2800000 ≤ s.tim.ticks)
    ∧ (∃ (s : State) (p : Fin 16), (s.awake = false ∨ (s.dmxPort p).rdmRunning = none ∨ s.tim.ticks < (s.dmxPort p).endTick
    + 2800000)) :=
  ⟨⟨rdmAt DmxPort.initial, 0, true, .rdmDiscovery .manager 0, by decide +kernel⟩,
   ⟨dmxAt modeTx dmxIdle DmxPort.initial, 0, by decide +kernel⟩,
   ⟨rdmAt { DmxPort.initial with rdmQueued := some false }, 0, false, (State.engineRead (rdmAt
    { DmxPort.initial with rdmQueued := some false }) .io ((rdmAt
    { DmxPort.initial with rdmQueued := some false }).dmxHolder 0) ((rdmAt
    { DmxPort.initial with rdmQueued := some false }).rdmAddr 0) ((rdmAt
    { DmxPort.initial with rdmQueued := some false }).fget F.DMX_RDM_LEN.msg_len 0)).bytes, by decide +kernel⟩,
   ⟨(rdmAt { DmxPort.initial with rdmQueued := some true }).fset F.DMX_STATUS.state dmxFrame 0, 0, true, by decide +kernel⟩,
   ⟨rdmAt DmxPort.initial, 0, by decide +kernel⟩,
   ⟨rdmAt { DmxPort.initial with rdmRunning := some false }, 0, [1, 2, 0, 3], true, by decide +kernel⟩,
   ⟨rdmAt { DmxPort.initial with rdmRunning := some true }, 0, discovered, 0, by decide +kernel⟩,
   ⟨rdmAt { DmxPort.initial with rdmRunning := some true }, 0, [0xFE], true, by decide +kernel⟩,
   ⟨rdmAt DmxPort.initial, 0, [], true, by decide +kernel⟩,
   ⟨(rdmAt { DmxPort.initial with rdmRunning := some true }).atTick 2800000, 0, true, by decide +kernel⟩,
   ⟨rdmAt { DmxPort.initial with rdmRunning := some true }, 0, by decide +kernel⟩⟩

/-- The hypotheses of MidiAndTimecode can be met. -/
theorem witness_MidiAndTimecode :
    (∃ (s : State) (m : Fin 4) (_ : Byte), s.awake = true ∧ s.recipe.midiEnabled m = true ∧ (s.midiPort m).tx.length < 256)
    ∧ (∃ (s : State) (m : Fin 4) (_ : Byte), s.awake = true ∧ s.recipe.midiEnabled m = true ∧ 256 ≤ (s.midiPort
    m).tx.length)
    ∧ (∃ (s : State) (m : Fin 4) (_ : Byte), s.awake = true ∧ s.recipe.midiEnabled m = false)
    ∧ (∃ (s : State) (m : Fin 4) (_ : Byte) (_ : Bool) (_ : ST), s.awake = true ∧ s.recipe.midiEnabled m = true ∧
    (s.midiPort m).rx.length < 256)
    ∧ (∃ (s : State) (m : Fin 4) (_ : Byte) (_ : Bool) (_ : ST), s.awake = true ∧ s.recipe.midiEnabled m = true ∧ 256 ≤
    (s.midiPort m).rx.length)
    ∧ (∃ (s : State) (m : Fin 4) (_ : Byte) (_ : Bool) (_ : ST), (s.awake = false ∨ s.recipe.midiEnabled m = false))
    ∧ (∃ (s : State) (m : Fin 4) (e : MidiRx) (t : List MidiRx), s.awake = true ∧ (s.midiPort m).rx = e :: t)
    ∧ (∃ (s : State) (m : Fin 4), s.awake = true ∧ (s.midiPort m).rx = [])
    ∧ (∃ (s : State) (i : Fin 2) (_ : Bool), s.awake = true ∧ s.recipe.ltcEnabled i = true ∧ s.ltcOverdue i = true)
    ∧ (∃ (s : State) (i : Fin 2) (_ : Bool), (s.awake = false ∨ s.recipe.ltcEnabled i = false ∨ s.ltcOverdue i = false))
    ∧ (∃ (s : State) (_ : Fin 2), s.awake = true)
    ∧ (∃ (s : State) (o : Fin 2) (k : Int) (w : W32) (x : LtcOut), s.ltcSends o = true ∧ x = s.ltcOutOf o ∧ ((∀ e ∈
    x.waiting, notLater e.1 s.tim.st = false)) ∧ (s.ltcOutGrid o x.plan.anchor).frameAt s.tim.st = some k ∧ w = ltcWordOf
    (s.ltcOutRate o) ((((ltcWordNumber (s.ltcOutRate o) x.plan.start : Nat) : Int) + k) % (ltcDayFrames (s.ltcOutRate o) :
    Nat)).toNat)
    ∧ (∃ (s : State) (o : Fin 2) (x : LtcOut), s.ltcSends o = true ∧ x = s.ltcOutOf o ∧ ((∀ e ∈ x.waiting, notLater e.1
    s.tim.st = false)) ∧ (s.ltcOutGrid o x.plan.anchor).frameAt s.tim.st = none)
    ∧ (∃ (s : State) (o : Fin 2) (x : LtcOut) (w : ST × LtcPlan), s.ltcSends o = true ∧ x = s.ltcOutOf o ∧ (x.due
    s.tim.st).getLast? = some w ∧ (((s.ltcOutGrid o x.plan.anchor).frameAt s.tim.st).isSome = true ∨ ((s.ltcOutGrid o
    w.2.anchor).frameAt s.tim.st).isSome = true))
    ∧ (∃ (s : State) (o : Fin 2) (x : LtcOut) (w : ST × LtcPlan), s.ltcSends o = true ∧ x = s.ltcOutOf o ∧ (x.due
    s.tim.st).getLast? = some w ∧ (s.ltcOutGrid o x.plan.anchor).frameAt s.tim.st = none ∧ (s.ltcOutGrid o
    w.2.anchor).frameAt s.tim.st = none)
    ∧ (∃ (s : State) (o : Fin 2), s.ltcSends o = false) :=
  ⟨⟨showIo, 0, 0x90, by decide +kernel⟩,
   ⟨showIo.setMidi 0 ⟨List.replicate 256 0x40, [], 9⟩, 0, 0x90, by decide +kernel⟩,
   ⟨showIo, 1, 0x90, by decide +kernel⟩,
   ⟨showIo, 0, 0x90, true, 77, by decide +kernel⟩,
   ⟨showIo.setMidi 0 ⟨[], List.replicate 256 ⟨0x40, false, 0⟩, 9⟩, 0, 0x90, true, 77, by decide +kernel⟩,
   ⟨showIo, 1, 0x90, false, 77, by decide +kernel⟩,
   ⟨showIo.setMidi 0 ⟨[], [⟨0xF8, true, 7⟩], 9⟩, 0, ⟨0xF8, true, 7⟩, [], by decide +kernel⟩,
   ⟨showIo, 0, by decide +kernel⟩,
   ⟨(showIo.fset F.LTC_IN_STATUS.locked 1 0).atTick 200000000, 0, true, by decide +kernel⟩,
   ⟨showIo, 0, true, by decide +kernel⟩,
   ⟨showIo, 0, by decide +kernel⟩,
   ⟨((showIo.atSt 80000000).fset F.LTC_OUT_CTRL.enable 1 0).setLtcOut 0 ⟨⟨0, 0x01595924, 7⟩, []⟩, 0, 2, ltcWordOf
    ((((showIo.atSt 80000000).fset F.LTC_OUT_CTRL.enable 1 0).setLtcOut 0 ⟨⟨0, 0x01595924, 7⟩, []⟩).ltcOutRate 0)
    ((((ltcWordNumber ((((showIo.atSt 80000000).fset F.LTC_OUT_CTRL.enable 1 0).setLtcOut 0 ⟨⟨0, 0x01595924, 7⟩,
    []⟩).ltcOutRate 0) ((((showIo.atSt 80000000).fset F.LTC_OUT_CTRL.enable 1 0).setLtcOut 0 ⟨⟨0, 0x01595924, 7⟩,
    []⟩).ltcOutOf 0).plan.start : Nat) : Int) + 2) % (ltcDayFrames ((((showIo.atSt 80000000).fset F.LTC_OUT_CTRL.enable 1
    0).setLtcOut 0 ⟨⟨0, 0x01595924, 7⟩, []⟩).ltcOutRate 0) : Nat)).toNat, ((((showIo.atSt 80000000).fset
    F.LTC_OUT_CTRL.enable 1 0).setLtcOut 0 ⟨⟨0, 0x01595924, 7⟩, []⟩)).ltcOutOf 0, by decide +kernel⟩,
   ⟨((showIo.atSt 80000001).fset F.LTC_OUT_CTRL.enable 1 0).setLtcOut 0 ⟨⟨0, 0, 7⟩, []⟩, 0, ⟨⟨0, 0, 7⟩, []⟩,
    by decide +kernel⟩,
   ⟨((showIo.atSt 80000000).fset F.LTC_OUT_CTRL.enable 1 0).setLtcOut 0 ⟨⟨1, 0, 7⟩, [(79999999, ⟨0, 0, 8⟩)]⟩, 0, ⟨⟨1, 0, 7⟩,
    [(79999999, ⟨0, 0, 8⟩)]⟩, (79999999, ⟨0, 0, 8⟩), by decide +kernel⟩,
   ⟨((showIo.atSt 80000002).fset F.LTC_OUT_CTRL.enable 1 0).setLtcOut 0 ⟨⟨1, 0, 7⟩, [(79999999, ⟨0, 0, 8⟩)]⟩, 0, ⟨⟨1, 0, 7⟩,
    [(79999999, ⟨0, 0, 8⟩)]⟩, (79999999, ⟨0, 0, 8⟩), by decide +kernel⟩,
   ⟨showIo, 0, by decide +kernel⟩⟩

/-- The hypotheses of ConsoleInputsAndBuses can be met. -/
theorem witness_ConsoleInputsAndBuses :
    (∃ (s : State) (n : Fin 48) (_ : BitVec 12), s.awake = true ∧ bit s.recipe.faderMask n = 1)
    ∧ (∃ (s : State) (n : Fin 48) (v : BitVec 12) (m : Nat), s.awake = true ∧ bit s.recipe.faderMask n = 1 ∧ (s.fader
    n).normal = some m ∧ s.faderFails m v.toNat = false ∧ m < 4096)
    ∧ (∃ (s : State) (n : Fin 48) (v : BitVec 12) (m : Nat), s.awake = true ∧ bit s.recipe.faderMask n = 1 ∧ (s.fader
    n).normal = some m ∧ s.faderFails m v.toNat = true)
    ∧ (∃ (s : State) (n : Fin 48) (_ : BitVec 12), s.awake = true ∧ bit s.recipe.faderMask n = 1 ∧ (s.fader n).normal =
    none)
    ∧ (∃ (s : State) (n : Fin 48) (_ : Bool) (_ : BitVec 12), (s.awake = false ∨ bit s.recipe.faderMask n = 0))
    ∧ (∃ (s : State) (n : Fin 16) (a b : Bool) (ns : Nat), Filtered s n ns ∧ s.awake = true ∧ (s.encoder n).a ≠ a ∧
    (s.encoder n).b ≠ b)
    ∧ (∃ (s : State) (n : Fin 16) (a b : Bool) (ns : Nat), Filtered s n ns ∧ s.awake = true ∧ ((s.encoder n).a ≠ a ↔
    (s.encoder n).b = b))
    ∧ (∃ (s : State) (n : Fin 16) (a b : Bool) (ns : Nat), Filtered s n ns ∧ s.awake = true ∧ (s.encoder n).a = a ∧
    (s.encoder n).b = b)
    ∧ (∃ (s : State) (n : Fin 16) (_ _ : Bool) (ns : Nat), Filtered s n ns ∧ s.awake = false)
    ∧ (∃ (s : State) (n : Fin 16) (_ _ : Bool) (ns : Nat), (¬Filtered s n ns))
    ∧ (∃ (s : State) (_ : Fin 16), s.awake = true)
    ∧ (∃ (s : State) (n : Fin 8), s.awake = true ∧ s.busKind n = 1 ∧ s.fget F.BUS_CFG.wlen n ≤ 64 ∧ s.fget F.BUS_CFG.rlen n
    ≤ 64 ∧ s.flag F.BUS_STATUS.busy n = false)
    ∧ (∃ (s : State) (n : Fin 8), s.awake = true ∧ s.busKind n = 2 ∧ s.fget F.BUS_CFG.addr n % 4 < u8 (s.recipe.bus n) 3 ∧ 1
    ≤ s.fget F.BUS_CFG.wlen n ∧ s.fget F.BUS_CFG.wlen n ≤ 64 ∧ s.flag F.BUS_STATUS.busy n = false)
    ∧ (∃ (s : State) (n : Fin 8), s.awake = true ∧ s.flag F.BUS_STATUS.busy n = true)
    ∧ (∃ (s : State) (n : Fin 8), s.awake = true ∧ (s.busKind n ≠ 1 ∨ 64 < s.fget F.BUS_CFG.wlen n ∨ 64 < s.fget
    F.BUS_CFG.rlen n))
    ∧ (∃ (s : State) (n : Fin 8), s.awake = true ∧ (s.busKind n ≠ 2 ∨ u8 (s.recipe.bus n) 3 ≤ s.fget F.BUS_CFG.addr n % 4 ∨
    s.fget F.BUS_CFG.wlen n = 0 ∨ 64 < s.fget F.BUS_CFG.wlen n))
    ∧ (∃ (s : State) (n : Fin 8) (how : BusEnd) (_ : List Byte) (r : Nat), s.awake = true ∧ s.flag F.BUS_STATUS.busy n =
    true ∧ s.busResult n how = some r)
    ∧ (∃ (s : State) (n : Fin 8) (how : BusEnd) (_ : List Byte), (s.awake = false ∨ s.flag F.BUS_STATUS.busy n = false ∨
    s.busResult n how = none))
    ∧ (∃ (s : State) (_ : Fin 8) (_ : W32), s.awake = true)
    ∧ (∃ (s : State) (_ : Fin 8) (_ : W32), s.awake = true)
    ∧ (∃ (s : State) (b : Fin 8) (l : Fin 32) (rising : Bool) (ns : Nat), s.awake = true ∧ s.edgeSeen b l rising ns = true ∧
    s.hasBit (if rising then .GPIO_EDGE_RISE else .GPIO_EDGE_FALL) l b = true)
    ∧ (∃ (s : State) (b : Fin 8) (l : Fin 32) (rising : Bool) (ns : Nat), (s.awake = false ∨ s.edgeSeen b l rising ns =
    false ∨ s.hasBit (if rising then .GPIO_EDGE_RISE else .GPIO_EDGE_FALL) l b = false))
    ∧ (∃ (s : State) (b : Fin 8) (l : Fin 32) (_ : Bool) (_ : Nat), s.recipe.gpioPad b l = none)
    ∧ (∃ (s : State) (b : Fin 8) (l : Fin 32) (_ : Bool) (_ pad : Nat), s.recipe.gpioPad b l = some pad ∧ bit pad 6 = 0)
    ∧ (∃ (s : State) (n : Fin 4), s.awake = true ∧ bit s.recipe.usbMask n = 1)
    ∧ (∃ (s : State) (n : Fin 4), (s.awake = false ∨ bit s.recipe.usbMask n = 0))
    ∧ (∃ (s : State) (a : Agent) (p : Fin 16) (m : Fin 4) (i : Fin 2) (n b : Fin 8) (v : W32) (v8 : Byte) (c : Instr), c ∈
    [Instr.dmxCommitRegister a p, .dmxRxInfoRead a p, .rdmTransaction a p, .rdmDiscovery a p, .midiTx a m v8, .midiRxRead a
    m, .ltcInTcRead a i, .encCountRead a p, .i2cTransfer a n, .spiTransfer a n, .gpioSetRegister a b v, .gpioClr a b v] ∧ (a
    ≠ .manager ∨ s.awake = false)) :=
  ⟨⟨showIo, 0, 700, by decide +kernel⟩,
   ⟨showIo.setFader 0 ⟨some 700, 0, 0⟩, 0, 710, 700, by decide +kernel⟩,
   ⟨showIo.setFader 0 ⟨some 3900, 0, 0⟩, 0, 4095, 3900, by decide +kernel⟩,
   ⟨showIo, 0, 4095, by decide +kernel⟩,
   ⟨showIo, 1, true, 700, by decide +kernel⟩,
   ⟨showIo.setEncoder 0 ⟨false, false, 0⟩, 0, true, true, 50, by unfold Filtered; decide +kernel⟩,
   ⟨showIo.setEncoder 0 ⟨false, false, 0⟩, 0, true, false, 50, by unfold Filtered; decide +kernel⟩,
   ⟨showIo.setEncoder 0 ⟨false, false, 0⟩, 0, false, false, 50, by unfold Filtered; decide +kernel⟩,
   ⟨showIo.inPower 2, 0, true, false, 50, by unfold Filtered; decide +kernel⟩,
   ⟨showIo.setEncoder 1 ⟨false, false, 0⟩, 1, true, false, 50, by unfold Filtered; decide +kernel⟩,
   ⟨showIo, 0, by decide +kernel⟩,
   ⟨(showIo.fset F.BUS_CFG.wlen 64 0).fset F.BUS_CFG.rlen 3 0, 0, by decide +kernel⟩,
   ⟨showIo.fset F.BUS_CFG.wlen 64 1, 1, by decide +kernel⟩,
   ⟨showIo.fset F.BUS_STATUS.busy 1 0, 0, by decide +kernel⟩,
   ⟨showIo, 1, by decide +kernel⟩,
   ⟨showIo, 0, by decide +kernel⟩,
   ⟨{ showIo.fset F.BUS_STATUS.busy 1 0 with sio := { showIo.sio with busReads := [(0, 2)] } }, 0, .dataNak, [7, 8, 9], 3,
    by decide +kernel⟩,
   ⟨showIo.fset F.BUS_STATUS.busy 1 1, 1, .dataLow, [], by decide +kernel⟩,
   ⟨showIo, 0, 8, by decide +kernel⟩,
   ⟨showIo, 0, 8, by decide +kernel⟩,
   ⟨showIo.setBit .GPIO_EDGE_RISE 3 0, 0, 3, true, 5000, by decide +kernel⟩,
   ⟨showIo, 0, 3, true, 5000, by decide +kernel⟩,
   ⟨showIo, 0, 4, true, 5000, by decide +kernel⟩,
   ⟨showIo, 0, 3, true, 5000, 0, by decide +kernel⟩,
   ⟨showIo, 0, by decide +kernel⟩,
   ⟨showIo, 1, by decide +kernel⟩,
   ⟨showIo, .management, 0, 0, 0, 0, 0, 5, 6, .spiTransfer .management 0, by decide +kernel⟩⟩

/-- The hypotheses of SampleInstants can be met. -/
theorem witness_SampleInstants :
    (∃ (s : State) (_ : AudioObs) (n : Nat), s.awake = true ∧ s.aud.running = true ∧ instantAt s.recipe.audFs
    s.gridTime.toNat = some n)
    ∧ (∃ (s : State) (_ : AudioObs), (s.awake = false ∨ s.aud.running = false ∨ instantAt s.recipe.audFs s.gridTime.toNat =
    none))
    ∧ (∃ (s : State) (_ : Fin 2) (_ : W32) (_ : BitVec 16) (_ : W32) (_ : List Byte), s.awake = true ∧ s.aud.running = true)
    ∧ (∃ (s : State) (_ : Fin 2) (_ : W32) (_ : BitVec 16) (_ : W32) (_ : List Byte), (s.awake = false ∨ s.aud.running =
    false))
    ∧ (∃ (s : State) (p : Fin 8), BlockEnds s p ∧ s.quietBlock p = true ∧ 10 * s.fget F.SIL_CFG.hold p ≤ Tbl.get 0
    s.aud.quiet p + 1 ∧ s.flag F.SIL_STATUS.silent p = false)
    ∧ (∃ (s : State) (p : Fin 8), BlockEnds s p ∧ s.quietBlock p = true ∧ (Tbl.get 0 s.aud.quiet p + 1 < 10 * s.fget
    F.SIL_CFG.hold p ∨ s.flag F.SIL_STATUS.silent p = true))
    ∧ (∃ (s : State) (p : Fin 8), BlockEnds s p ∧ s.quietBlock p = false ∧ s.loudBlock p = true ∧ s.flag F.SIL_STATUS.amp_en
    p = false)
    ∧ (∃ (s : State) (p : Fin 8), BlockEnds s p ∧ s.quietBlock p = false ∧ (s.loudBlock p = false ∨ s.flag
    F.SIL_STATUS.amp_en p = true))
    ∧ (∃ (s : State) (p : Fin 8), (s.awake = false ∨ s.portClocked p = false ∨ s.blockNow = Tbl.get 0 s.aud.judged p)) :=
  ⟨⟨(hearing.gainWaits 7 90).playerIs { Player.initial with acts := [.start ⟨bytesOf [(8, 9), (15, 0)], [], 0, false⟩] },
    ⟨[(0, 77)], [], [0]⟩, 48, by decide +kernel⟩,
   ⟨hearing.atSt 1000001, ⟨[], [], []⟩, by decide +kernel⟩,
   ⟨hearing, 0, 0, 0, 48, List.replicate 144 7, by decide +kernel⟩,
   ⟨State.reset, 1, 9, 9, 48, [], by decide +kernel⟩,
   ⟨hearing.atSt 10000000, 0, by unfold BlockEnds; decide +kernel⟩,
   ⟨(hearing.atSt 10000000).fset F.SIL_STATUS.silent 1 0, 0, by unfold BlockEnds; decide +kernel⟩,
   ⟨loudly 0, 0,
    by unfold BlockEnds; exact ⟨by decide +kernel, (loudly_loud 0 (by decide +kernel)).1, (loudly_loud 0 (by decide +kernel)).2, by decide +kernel⟩⟩,
   ⟨loudly 1, 0,
    by unfold BlockEnds; exact ⟨by decide +kernel, (loudly_loud 1 (by decide +kernel)).1, Or.inr (by decide +kernel)⟩⟩,
   ⟨hearing, 0, by decide +kernel⟩⟩

/-- The hypotheses of GainsAndPlayers can be met. -/
theorem witness_GainsAndPlayers :
    (∃ (s : State) (_ : GainPoint) (_ : BitVec 16), s.awake = true)
    ∧ (∃ (s : State) (pt : GainPoint) (x : GainPend), s.awake = true ∧ s.gainWaiting pt = some x ∧ notLater x.deadline
    s.gridTime = true ∧ s.gainHeld s.gridTime pt = false)
    ∧ (∃ (s : State) (pt : GainPoint), (s.awake = false ∨ s.gainHeld s.gridTime pt = true ∨ (∀ x, s.gainWaiting pt = some x
    → notLater x.deadline s.gridTime = false)))
    ∧ (∃ (s : State) (m : MuxPoint) (sel : Byte), s.awake = true ∧ s.muxAllows m sel.toNat = true ∧ s.muxSel m ≠ sel.toNat)
    ∧ (∃ (s : State) (m : MuxPoint) (sel : Byte), s.awake = true ∧ s.muxAllows m sel.toNat = true ∧ s.muxSel m = sel.toNat)
    ∧ (∃ (s : State) (m : MuxPoint) (sel : Byte), s.awake = true ∧ s.muxAllows m sel.toNat = false)
    ∧ (∃ (s : State) (_ : Fin 32), s.awake = true)
    ∧ (∃ (s : State) (a : Agent) (pt : GainPoint) (g : BitVec 16) (m : MuxPoint) (sel : Byte) (b : Fin 32) (n : Fin 16)
    (clip : BitVec 16) (c : Instr), c ∈ [Instr.gainWrite a pt g, .selectionWrite a m sel, .eqCommit a b, .playerStart a n
    clip, .playerStop a n, .playerPrime a n clip] ∧ (a ≠ .manager ∨ s.awake = false))
    ∧ (∃ (s : State) (n : Fin 16) (clip : BitVec 16) (r : ClipRun), s.awake = true ∧ s.aud.running = true ∧ s.clipExists
    clip.toNat = true ∧ (s.player n).primed = some (clip.toNat, r))
    ∧ (∃ (s : State) (n : Fin 16) (clip : BitVec 16), s.awake = true ∧ s.aud.running = true ∧ s.clipExists clip.toNat = true
    ∧ ((∀ r, (s.player n).primed ≠ some (clip.toNat, r))))
    ∧ (∃ (s : State) (_ : Fin 16) (clip : BitVec 16), s.awake = true ∧ (s.aud.running = false ∨ s.clipExists clip.toNat =
    false))
    ∧ (∃ (s : State) (_ : Fin 16), s.awake = true ∧ s.aud.running = true)
    ∧ (∃ (s : State) (_ : Fin 16), s.awake = true ∧ s.aud.running = false)
    ∧ (∃ (s : State) (_ : Fin 16) (clip : BitVec 16), s.awake = true ∧ s.aud.running = true ∧ s.clipExists clip.toNat =
    true) :=
  ⟨⟨hearing.gainWaits 7 9000000, .bus 2, 9, by decide +kernel⟩,
   ⟨hearing.gainWaits 7 900000, .bus 2, ⟨.bus 2, 7, 900000⟩, by decide +kernel⟩,
   ⟨hearing, .bus 2,
    by and_intros <;> first | decide +kernel | exact fun e h => nomatch (show none = some e from h)⟩,
   ⟨hearing, .busIn 0 0, 1, by decide +kernel⟩,
   ⟨hearing.fset F.BUS_IN.source 1 0 0, .busIn 0 0, 1, by decide +kernel⟩,
   ⟨hearing, .busIn 0 0, 2, by decide +kernel⟩,
   ⟨hearing, 5, by decide +kernel⟩,
   ⟨hearing, .management, .bus 2, 7, .out 3, 4, 5, 6, 7, .playerPrime .management 6 7, by decide +kernel⟩,
   ⟨hearing.playerIs { Player.initial with primed := some (2, ⟨[], [1, 2], 0, true⟩) }, 0, 2, ⟨[], [1, 2], 0, true⟩,
    by decide +kernel⟩,
   ⟨hearing, 0, 2,
    by and_intros <;> first | decide +kernel | exact fun r e => nomatch (show none = some _ from e)⟩,
   ⟨hearing, 0, 3, by decide +kernel⟩,
   ⟨hearing.fset F.PLAYER_FADE.ms 4 0, 0, by decide +kernel⟩,
   ⟨day, 0, by decide +kernel⟩,
   ⟨hearing, 0, 2, by decide +kernel⟩⟩

/-- The hypotheses of CountersAndSampling can be met. -/
theorem witness_CountersAndSampling :
    (∃ (s : State) (n : Fin 32), s.awake = true ∧ s.pmcOn n = true ∧ (s.pmcValue n = 2 ^ 48 - 1 ∨ s.pmcOpen (s.get .PMC_SEL
    n) = true))
    ∧ (∃ (s : State) (n : Fin 32), (s.awake = false ∨ s.pmcOn n = false ∨ (s.pmcValue n ≠ 2 ^ 48 - 1 ∧ s.pmcOpen (s.get
    .PMC_SEL n) = false)))
    ∧ (∃ (s : State) (a : Agent), s.awake = true ∧ (a = .manager ∨ a = .inner))
    ∧ (∃ (s : State) (a : Agent), (s.awake = false ∨ (a ≠ .manager ∧ a ≠ .inner)))
    ∧ (∃ (s : State) (core : Fin 8) (_ : SampleRec) (w : Nat), Sampled s core ∧ w = s.fget F.PSAMP_WR.wr % s.sampSize ∧
    s.sampAhead ((w + 1) % s.sampSize) ≠ 0)
    ∧ (∃ (s : State) (core : Fin 8) (rec : SampleRec) (w : Nat) (b : List Byte), Sampled s core ∧ w = s.fget F.PSAMP_WR.wr %
    s.sampSize ∧ s.sampAhead ((w + 1) % s.sampSize) ≠ 0 ∧ b = sampRecord core (s.core core).mode (s.coreInner core) s.tim.st
    rec ∧ s.landAs s.evt.sampInner .io 0 (s.sampAddr w) true = (.ram (s.sampAddr w), s))
    ∧ (∃ (s : State) (core : Fin 8) (_ : SampleRec), Sampled s core ∧ s.sampAhead ((s.fget F.PSAMP_WR.wr % s.sampSize + 1) %
    s.sampSize) = 0)
    ∧ (∃ (s : State) (core : Fin 8) (_ : SampleRec), (¬Sampled s core))
    ∧ (∃ (s : State), s.awake = true ∧ s.flag F.BW_CTRL.enable = true ∧ s.bwDue = true)
    ∧ (∃ (s : State), (s.awake = false ∨ s.flag F.BW_CTRL.enable = false ∨ s.bwDue = false)) :=
  ⟨⟨counting 0xFFFF 0xFFFFFFFF, 3, by decide +kernel⟩,
   ⟨counting 0xFFFF 0xFFFFFFFE, 3, by decide +kernel⟩,
   ⟨counting 0xFFFF 0xFFFFFFFF, .inner, by decide +kernel⟩,
   ⟨day, .management, by decide +kernel⟩,
   ⟨sampling 3 0, 1, loadRec, 3, by unfold Sampled; decide +kernel⟩,
   ⟨sampling 3 0, 1, loadRec, 3, sampRecord 1 .m false (State.tim (sampling 3 0)).st loadRec,
    by unfold Sampled; decide +kernel⟩,
   ⟨sampling 15 0, 1, loadRec, by unfold Sampled; decide +kernel⟩,
   ⟨day, 1, loadRec, by unfold Sampled; decide +kernel⟩,
   ⟨({ day with evt := { day.evt with windowUs := 1000, bytes := [(3, 77)] } }.fset F.BW_CTRL.enable 1).atSt 1000000,
    by decide +kernel⟩,
   ⟨day, by decide +kernel⟩⟩

/-- The hypotheses of RegisterAccess can be met. -/
theorem witness_RegisterAccess :
    (∃ (s : State) (a : Agent) (sp : Space) (addr bytes : Nat), ((∀ n mode, sp ≠ .csr n mode)) ∧ (wellShaped addr bytes =
    false ∨ s.reaches a sp addr = .error))
    ∧ (∃ (s : State) (a : Agent) (sp : Space) (addr bytes : Nat), wellShaped addr bytes = true ∧ s.reaches a sp addr =
    .nothing)
    ∧ (∃ (s : State) (a : Agent) (sp : Space) (addr bytes : Nat), wellShaped addr bytes = true ∧ s.reaches a sp addr = .usb)
    ∧ (∃ (s : State) (a : Agent) (sp : Space) (addr bytes x : Nat), wellShaped addr bytes = true ∧ s.reaches a sp addr =
    .fenced x ∧ ((∀ p, a ≠ .partition p)))
    ∧ (∃ (s : State) (p : Fin 8) (sp : Space) (addr bytes x : Nat), wellShaped addr bytes = true ∧ s.reaches (.partition p)
    sp addr = .fenced x)
    ∧ (∃ (s : State) (a : Agent) (sp : Space) (addr bytes : Nat) (key : RegKey) (via : Option Nat), wellShaped addr bytes =
    true ∧ s.reaches a sp addr = .reg key via ∧ key.reg.plainWrite = true ∧ LatchesOk s ∧ s.latchedAt a key = none)
    ∧ (∃ (s : State) (a : Agent) (sp : Space) (addr bytes : Nat) (via : Option Nat), wellShaped addr bytes = true ∧
    s.reaches a sp addr = .reg ⟨.TIME_ST_LO, 0, 0⟩ via ∧ LatchesOk s ∧ s.latchedAt a ⟨.TIME_ST_LO, 0, 0⟩ = none)
    ∧ (∃ (s : State) (a : Agent) (sp : Space) (addr bytes : Nat) (via : Option Nat) (v : W32), wellShaped addr bytes = true
    ∧ s.reaches a sp addr = .reg ⟨.TIME_ST_HI, 0, 0⟩ via ∧ s.latchedAt a ⟨.TIME_ST_HI, 0, 0⟩ = some v ∧ s.latchedAt a
    ⟨.TIME_ST_LO, 0, 0⟩ = none)
    ∧ (∃ (s : State) (a : Agent) (sp : Space) (addr bytes : Nat) (via : Option Nat) (b : Agent), wellShaped addr bytes =
    true ∧ s.reaches a sp addr = .reg ⟨.TIME_ST_LO, 0, 0⟩ via ∧ b ≠ a)
    ∧ (∃ (s : State) (a : Agent) (sp : Space) (addr bytes : Nat) (_ : BitVec 64), ((∀ n mode, sp ≠ .csr n mode)) ∧ ((∀ n
    mode k x y, sp ≠ .fence n mode k x y)) ∧ ((∀ f, sp ≠ .msixControl f)) ∧ ((wellShaped addr bytes = false ∧ (s.reaches a
    sp addr).inSys = false) ∨ s.reaches a sp addr = .error))
    ∧ (∃ (s : State) (a : Agent) (sp : Space) (addr bytes : Nat) (_ : BitVec 64), wellShaped addr bytes = false ∧ (s.reaches
    a sp addr).inSys = true)
    ∧ (∃ (s : State) (a : Agent) (sp : Space) (addr bytes : Nat) (_ : BitVec 64), wellShaped addr bytes = true ∧ (s.reaches
    a sp addr = .nothing ∨ (∃ o off, s.reaches a sp addr = .mirror o off)))
    ∧ (∃ (s : State) (a : Agent) (sp : Space) (addr bytes : Nat) (_ : BitVec 64), wellShaped addr bytes = true ∧ s.reaches a
    sp addr = .usb)
    ∧ (∃ (s : State) (a : Agent) (sp : Space) (addr bytes : Nat) (_ : BitVec 64) (x : Nat), wellShaped addr bytes = true ∧
    s.reaches a sp addr = .fenced x ∧ ((∀ p, a ≠ .partition p)))
    ∧ (∃ (s : State) (p : Fin 8) (sp : Space) (addr bytes : Nat) (_ : BitVec 64) (x : Nat), wellShaped addr bytes = true ∧
    s.reaches (.partition p) sp addr = .fenced x)
    ∧ (∃ (s : State) (a : Agent) (sp : Space) (addr bytes : Nat) (_ : BitVec 64) (key : RegKey) (via : Option Nat),
    wellShaped addr bytes = true ∧ s.reaches a sp addr = .reg key via ∧ key.reg.plainWrite = true)
    ∧ (∃ (r : Reg) (f : FieldDesc) (_ _ _ : W32), f ∈ r.fields ∧ f.access ≠ .rw ∧ f.access ≠ .w1c)
    ∧ (∃ (r : Reg) (f : FieldDesc) (g _ _ : W32), f ∈ r.fields ∧ f.access = .rw ∧ g &&& f.mask = f.mask)
    ∧ (∃ (r : Reg) (f : FieldDesc) (g _ _ : W32), f ∈ r.fields ∧ f.access = .w1c ∧ g &&& f.mask = f.mask)
    ∧ (∃ (s : State) (_ : Agent) (n : Fin 8) (mode : CoreMode) (addr _ num : Nat), s.coreRuns n = true ∧ csrReach mode (addr
    % 4096) false = .inl num)
    ∧ (∃ (s : State) (_ : Agent) (n : Fin 8) (mode : CoreMode) (addr _ cause : Nat), s.coreRuns n = true ∧ csrReach mode
    (addr % 4096) false = .inr cause)
    ∧ (∃ (s : State) (_ : Agent) (n : Fin 8) (mode : CoreMode) (addr _ : Nat) (_ : BitVec 64) (cause : Nat), s.coreRuns n =
    true ∧ csrReach mode (addr % 4096) true = .inr cause)
    ∧ (∃ (s : State) (_ : Agent) (n : Fin 8) (mode : CoreMode) (addr _ : Nat) (_ : BitVec 64) (num : Nat), s.coreRuns n =
    true ∧ csrReach mode (addr % 4096) true = .inl num ∧ num ≠ 0x7C0)
    ∧ (∃ (s : State) (_ : Agent) (n : Fin 8) (mode : CoreMode) (addr _ : Nat) (_ : BitVec 64), s.coreRuns n = true ∧
    csrReach mode (addr % 4096) true = .inl 0x7C0)
    ∧ (∃ (x : CoreState) (i : Nat) (_ : BitVec 64), i < 16 ∧ 128 ≤ x.pmpCfg i)
    ∧ (∃ (s : State) (_ : Agent) (n : Fin 8) (mode : CoreMode) (k : CoreFence) (_ _ : Option (BitVec 64)) (_ _ : Nat) (_ :
    BitVec 64), s.coreRuns n = true ∧ fenceTrap mode k = none)
    ∧ (∃ (s : State) (_ : Agent) (n : Fin 8) (mode : CoreMode) (k : CoreFence) (_ _ : Option (BitVec 64)) (_ _ : Nat) (_ :
    BitVec 64) (cause : Nat), s.coreRuns n = true ∧ fenceTrap mode k = some cause)
    ∧ (∃ (s : State) (_ : Agent) (n : Fin 8) (_ : CoreMode) (_ : CoreFence) (_ _ : Option (BitVec 64)) (_ _ : Nat) (_ :
    BitVec 64), s.coreRuns n = false)
    ∧ (∃ (s : State) (a : Agent) (f : Fin 64) (_ _ : Nat) (_ : BitVec 64), a = (if f = 0 then .manager else .guest f) ∧ s.up
    = true ∧ s.dom.hostL2 = false)
    ∧ (∃ (s : State) (a : Agent) (f : Fin 64) (_ _ : Nat) (_ : BitVec 64), (a ≠ (if f = 0 then .manager else .guest f) ∨
    s.up = false ∨ s.dom.hostL2 = true)) :=
  ⟨⟨day, .manager, .main, 0x1801000e, 4,
    by and_intros <;> first | decide +kernel | exact fun _ _ h => nomatch h⟩,
   ⟨day, .manager, .main, 0x10100004, 4, by decide +kernel⟩,
   ⟨day, .manager, .main, 0x18100000, 4, by decide +kernel⟩,
   ⟨fencedOff, .manager, .main, 0x1801000c, 4, 0x1801000c,
    by and_intros <;> first | decide +kernel | exact fun _ h => nomatch h⟩,
   ⟨fencedOff, 2, .main, 0x1801000c, 4, 0x1801000c, by decide +kernel⟩,
   ⟨day.put .DMX_BUF_LO 0xFFC0 0, .manager, .main, 0x1801000c, 4, ⟨.DMX_BUF_LO, 0, 0⟩, none,
    by and_intros <;> first | decide +kernel | exact fun l hl => nomatch (show l ∈ ([] : List ReportLatch) from hl)⟩,
   ⟨day.atSt 0x500000007, .manager, .main, 0x10100008, 4, none,
    by and_intros <;> first | decide +kernel | exact fun l hl => nomatch (show l ∈ ([] : List ReportLatch) from hl)⟩,
   ⟨stLatched, .manager, .main, 0x1010000c, 4, none, 7, by decide +kernel⟩,
   ⟨stLatched, .partition 2, .main, 0x10100008, 4, none, .manager, by decide +kernel⟩,
   ⟨day, .manager, .main, 0x1801000c, 8, 7,
    by and_intros <;> first | decide +kernel | exact fun _ _ h => Space.noConfusion h | exact fun _ _ _ _ _ h => Space.noConfusion h | exact fun _ h => Space.noConfusion h⟩,
   ⟨day, .manager, .main, 0x10000000, 8, 7, by decide +kernel⟩,
   ⟨day, .manager, .main, 0x10100004, 4, 7,
    by and_intros <;> first | decide +kernel | exact Or.inl (by decide +kernel)⟩,
   ⟨day, .manager, .main, 0x18100000, 4, 7, by decide +kernel⟩,
   ⟨fencedOff, .manager, .main, 0x1801000c, 4, 7, 0x1801000c,
    by and_intros <;> first | decide +kernel | exact fun _ h => nomatch h⟩,
   ⟨fencedOff, 2, .main, 0x1801000c, 4, 7, 0x1801000c, by decide +kernel⟩,
   ⟨day, .manager, .main, 0x1801000c, 4, 0xFFFF, ⟨.DMX_BUF_LO, 0, 0⟩, none, by decide +kernel⟩,
   ⟨.TIME_ST_LO, ⟨0, 32, .ro, 0x0, []⟩, 0xFFFFFFFF, 5, 9, by decide +kernel⟩,
   ⟨.DMX_BUF_LO, ⟨6, 26, .rw, 0x0, [.manager]⟩, 0xFFFFFFC0, 0x40, 0x80, by decide +kernel⟩,
   ⟨.TIME_STATUS, ⟨9, 1, .w1c, 0x0, [.manager]⟩, 0xFFFFFFFF, 5, 9, by decide +kernel⟩,
   ⟨coreAt false CoreState.initial, .management, 1, .m, 0x180, 8, 0x180, by decide +kernel⟩,
   ⟨coreAt false CoreState.initial, .management, 1, .vs, 0x680, 8, 22, by decide +kernel⟩,
   ⟨coreAt false CoreState.initial, .management, 1, .u, 0x180, 8, 7, 2, by decide +kernel⟩,
   ⟨coreAt false CoreState.initial, .management, 1, .vs, 0x180, 8, 0x9000000000000005, 0x280, by decide +kernel⟩,
   ⟨coreAt false CoreState.initial, .management, 1, .m, 0x7C0, 8, 3, by decide +kernel⟩,
   ⟨{ CoreState.initial with csrs := [(0x3A0, 0x80)] }, 0, 0x1F, by decide +kernel⟩,
   ⟨coreAt false
    { CoreState.initial with tlb := [⟨false, none, 7, 5, false, 6, 6, 255, 255⟩, ⟨false, none, 8, 5, false, 6, 6, 255,
        255⟩] }, .management, 1, .hs, .sfenceVma, some 0x5000, some 7, 0, 8, 0, by decide +kernel⟩,
   ⟨coreAt false CoreState.initial, .management, 1, .vs, .hfenceGvma, none, none, 0, 8, 0, 22, by decide +kernel⟩,
   ⟨day, .management, 1, .vs, .hfenceGvma, none, none, 0, 8, 0, by decide +kernel⟩,
   ⟨day, .guest 3, 3, 0, 2, 0x8000, by decide +kernel⟩,
   ⟨day, .guest 3, 4, 0, 2, 0x8000, by decide +kernel⟩⟩

/-- The hypotheses of SplitValues can be met. -/
theorem witness_SplitValues :
    (∃ (s : State) (a : Agent) (sp : Space) (addr bytes : Nat) (key : RegKey) (via : Option Nat) (hi : RegKey), wellShaped
    addr bytes = true ∧ s.reaches a sp addr = .reg key via ∧ key.reg ≠ .AXIS_POS_LO ∧ (hi ∈ key.reg.highOf.toList.map (fun r
    => { key with reg := r }) ++ (if Reg.pairByCopy.contains key.reg ∧ key.k = 0 then [{ key with k := 1 }] else [])) ∧
    s.latchedAt a key = none)
    ∧ (∃ (s : State) (a : Agent) (sp : Space) (addr bytes i : Nat) (via : Option Nat), wellShaped addr bytes = true ∧
    s.reaches a sp addr = .reg ⟨.AXIS_POS_LO, i, 0⟩ via ∧ s.clocked .TIME = true)
    ∧ (∃ (s : State) (a : Agent) (sp : Space) (addr bytes : Nat) (key : RegKey) (via : Option Nat) (v : W32), wellShaped
    addr bytes = true ∧ s.reaches a sp addr = .reg key via ∧ key.lowOf.isSome = true ∧ s.latchedAt a key = some v)
    ∧ (∃ (s : State) (a : Agent) (sp : Space) (addr bytes : Nat) (key : RegKey) (via : Option Nat), wellShaped addr bytes =
    true ∧ s.reaches a sp addr = .reg key via ∧ key.lowOf.isSome = true ∧ s.latchedAt a key = none) :=
  ⟨⟨(day.put .CRC_EXPECT 7 3 0).put .CRC_EXPECT 9 3 1, .manager, .main, 0x161000EC, 4, ⟨.CRC_EXPECT, 3, 0⟩, none,
    ⟨.CRC_EXPECT, 3, 1⟩, by decide +kernel⟩,
   ⟨axisIn axTracking ⟨[(500, 3)], some 3, 1, none, 900, none, 0⟩, .manager, .main, 0x10101004, 4, 0, none,
    by decide +kernel⟩,
   ⟨stLatched, .manager, .main, 0x1010000c, 4, ⟨.TIME_ST_HI, 0, 0⟩, none, 7, by decide +kernel⟩,
   ⟨day.atSt 0x500000007, .manager, .main, 0x1010000c, 4, ⟨.TIME_ST_HI, 0, 0⟩, none, by decide +kernel⟩⟩

/-- The hypotheses of GatedBlocksAnswerErrors can be met. -/
theorem witness_GatedBlocksAnswerErrors :
    (∃ (s : State) (_ : Agent) (addr _ : Nat) (_ : BitVec 64) (b : Block), blockAt addr = some b ∧ s.clocked b = false ∧
    s.innerRegion addr = false)
    ∧ (∃ (s : State) (_ : Agent) (addr _ : Nat) (_ : BitVec 64) (b : Block), pfBlockAt addr = some b ∧ s.clocked b = false ∧
    s.innerRegion (b.place.base + (addr - b.place.pf.getD 0)) = false) :=
  ⟨⟨day.inPower 1, .manager, 0x11000000, 4, 7, .GFX, by decide +kernel⟩,
   ⟨day.inPower 1, .manager, 0x1000000, 4, 7, .GFX, by decide +kernel⟩⟩

/-- The hypotheses of StepRunsTheCommandInFront can be met. -/
theorem witness_StepRunsTheCommandInFront :
    (∃ (s : State) (c : Instr) (rest : List Instr), s.pending = c :: rest)
    ∧ (∃ (c : Instr) (s t : State), exec c s = .next t)
    ∧ (∃ (c : Instr) (s : State), Instr.reachesUsb s c = true)
    ∧ (∃ (s : State), s.pending = [])
    ∧ (∃ (s : State), s.dom.island ≠ .inReset ∧ s.tim.adjust = 0) :=
  ⟨⟨{ day with pending := [.dmxFrameEnd 0] }, .dmxFrameEnd 0, [], by decide +kernel⟩,
   ⟨.dmxFrameEnd 0, day, settled day (State.dmxFrameEnd day 0),
    by first | decide +kernel | rfl⟩,
   ⟨.splitLowWordRead .manager .main 0x18100000 4, day, by decide +kernel⟩,
   ⟨day, by decide +kernel⟩,
   ⟨day, by decide +kernel⟩⟩

/-- The hypotheses of StepKeepsMemory can be met. -/
theorem witness_StepKeepsMemory :
    ∃ (s t : State), MemoryOk s ∧ step s = .next t :=
  ⟨day.holds [(0x1000200, 1)], (day.holds [(0x1000200, 1)]).tick,
    by unfold MemoryOk; and_intros <;> first | decide +kernel | rfl⟩

/-- The hypotheses of StepKeepsQueuesReportsAndOtp can be met. -/
theorem witness_StepKeepsQueuesReportsAndOtp :
    (∃ (s t : State), step s = .next t)
    ∧ (∃ (s t : State), LatchesOk s ∧ step s = .next t)
    ∧ (∃ (c : Instr) (s t : State), c.ofMemory = true ∧ MemQueuesOk s ∧ exec c s = .next t) :=
  ⟨⟨day, day.tick,
    by first | decide +kernel | rfl⟩,
   ⟨day, day.tick,
    by and_intros <;> first | rfl | exact fun l hl => nomatch (show l ∈ ([] : List ReportLatch) from hl)⟩,
   ⟨.creditWindow, day, settled day (day.whenAwake State.creditWindow),
    by unfold MemQueuesOk; and_intros <;> first | decide +kernel | rfl⟩⟩

/-- The hypotheses of OnlyStoresChangeMemory can be met. -/
theorem witness_OnlyStoresChangeMemory : ∃ (c : Instr) (s t : State) (a : Nat),
    c.losesMemory s = false ∧ exec c s = .next t ∧ ∀ w ∈ c.stores s, a < w.1 ∨ w.1 + w.2.length ≤ a :=
  ⟨.dmxFrameEnd 0, day, settled day (day.whenUp fun s => s.dmxFrameEnd 0), 9, rfl, rfl, fun w h => nomatch (show w ∈ ([] : List Store) from h)⟩

/-- The hypotheses of EventsReachTheirConsumers can be met. -/
theorem witness_EventsReachTheirConsumers :
    (∃ (_ u : State) (n : Nat), u.awake = true ∧ n ∈ u.raised)
    ∧ (∃ (_ u : State) (n : Nat), u.awake = false ∧ u.up = true ∧ n ∈ u.raised ∧ islandRouted n = true)
    ∧ (∃ (_ u : State), u.awake = false)
    ∧ (∃ (_ u : State), u.up = false) :=
  ⟨⟨day, day.raise 355, 355, by decide +kernel⟩,
   ⟨day, (day.inPower 2).raise 85, 85, by decide +kernel⟩,
   ⟨day, day.inPower 2, by decide +kernel⟩,
   ⟨day, State.reset, by decide +kernel⟩⟩

/-- The hypotheses of OnlyTheManagerActs can be met. -/
theorem witness_OnlyTheManagerActs :
    ∃ (c : Instr) (a : Agent) (_ : State), c.managerRow = some a ∧ a ≠ .manager :=
  ⟨.gpioClr .management 0 7, .management, day, by decide +kernel⟩

/-- The hypotheses of FramesOfPowerTimeAndCues can be met. -/
theorem witness_FramesOfPowerTimeAndCues : ∃ (c : Instr) (s t : State), 3 ≤ c.chapter ∧ c.chapter ≤ 5 ∧ exec c s = .next t :=
  ⟨.cueClr .manager, day, settled day (day.cueClr .manager), by decide +kernel, by decide +kernel, rfl⟩

/-- The hypotheses of FramesOfLinksPictureAndMemory can be met. -/
theorem witness_FramesOfLinksPictureAndMemory :
    ∃ (c : Instr) (s t : State), 6 ≤ c.chapter ∧ c.chapter ≤ 12 ∧ exec c s = .next t :=
  ⟨.rowIdleClose 0 0, day, settled day { day with mem := { day.mem with openRow := Tbl.set none day.mem.openRow 0 none } },
    by decide +kernel, by decide +kernel, rfl⟩

/-- The hypotheses of FramesOfInstancesIoAndEvents can be met. -/
theorem witness_FramesOfInstancesIoAndEvents :
    ∃ (c : Instr) (s t : State), 13 ≤ c.chapter ∧ c.chapter ≤ 18 ∧ exec c s = .next t :=
  ⟨.dmxFrameEnd 0, day, settled day (day.whenUp fun s => s.dmxFrameEnd 0), by decide +kernel, by decide +kernel, rfl⟩

end Sys2Proof
end

section
/-! Proofs: an access by address that gets an error response (R20 to R22). What such an access reaches is found first; a read
or a write that reaches an error response then does nothing but send it, whatever its shape. -/

namespace Sys2Proof.Machine

/-! ### The commands of register accesses -/

theorem exec_splitLowWordRead (a : Agent) (sp : Space) (addr bytes : Nat) (s : State) :
    exec (.splitLowWordRead a sp addr bytes) s = execSplitLowWordRead a sp addr bytes s := rfl

theorem exec_registerWrite (a : Agent) (sp : Space) (addr bytes : Nat) (v : BitVec 64) (s : State) :
    exec (.registerWrite a sp addr bytes v) s = execRegisterWrite a sp addr bytes v s := rfl

/-! ### An access that reaches an error response

The spaces of CSRs, fences of translations and Message Control words hold no addresses: an access there has a meaning of its
own, though `reaches` answers an error for it too. -/

/-- The spaces whose accesses go by address: the main-domain map, the BARs and the island's port. -/
def byAddress : Space → Bool
  | .main | .pfBar0 | .guestBar0 _ | .islandPort => true
  | .csr _ _ | .fence .. | .msixControl _ => false

variable {s : State} {a : Agent} {sp : Space} {addr : Nat}

theorem readAt_of_reaches_error (bytes : Nat) (hsp : byAddress sp = true) (h : s.reaches a sp addr = .error) :
    s.readAt a sp addr bytes = s.emit (.busError a) := by
  cases sp with
  | csr | fence | msixControl => cases hsp
  | main | pfBar0 | guestBar0 | islandPort => simp [State.readAt, h]

theorem writeAt_of_reaches_error (bytes : Nat) (v : BitVec 64) (hsp : byAddress sp = true)
    (h : s.reaches a sp addr = .error) : s.writeAt a sp addr bytes v = noStore (s.emit (.busError a)) := by
  cases sp with
  | csr | fence | msixControl => cases hsp
  | main | pfBar0 | guestBar0 | islandPort => simp [State.writeAt, h]

/-- A read that reaches an error response sends it and does nothing else. -/
theorem exec_splitLowWordRead_of_reaches_error (bytes : Nat) (hsp : byAddress sp = true)
    (h : s.reaches a sp addr = .error) :
    exec (.splitLowWordRead a sp addr bytes) s = .next (settled s (s.emit (.busError a))) := by
  simp [exec_splitLowWordRead, execSplitLowWordRead, h, done_next, readAt_of_reaches_error bytes hsp h]

/-- A write that reaches an error response sends it and does nothing else. -/
theorem exec_registerWrite_of_reaches_error (bytes : Nat) (v : BitVec 64) (hsp : byAddress sp = true)
    (h : s.reaches a sp addr = .error) :
    exec (.registerWrite a sp addr bytes v) s = .next (settledMem s [] (s.emit (.busError a))) := by
  simp [exec_registerWrite, execRegisterWrite, h, Target.inSys, packetEnd_next,
    writeAt_of_reaches_error bytes v hsp h, noStore]

/-! ### A block that the power state gates (R22) -/

/-- A main-domain address lies at or above the base of its block. -/
theorem place_base_le_of_blockAt {b : Block} (h : blockAt addr = some b) : b.place.base ≤ addr := by
  have hwindow := List.find?_some h
  simp only [Bool.and_eq_true, decide_eq_true_eq] at hwindow
  exact hwindow.1

/-- Outside the inner regions, a gated block answers an error, whoever asks and whatever the offset. -/
theorem toBlock_of_gated {b : Block} {off : Nat} (hgated : s.clocked b = false)
    (hopen : s.innerRegion (b.place.base + off) = false) : s.toBlock a b off = .error := by
  simp [State.toBlock, hgated, hopen]

theorem reaches_main_of_gated {b : Block} (hb : blockAt addr = some b) (hgated : s.clocked b = false)
    (hopen : s.innerRegion addr = false) : s.reaches a .main addr = .error := by
  have hopen' : s.innerRegion (b.place.base + (addr - b.place.base)) = false := by
    rwa [Nat.add_sub_cancel' (place_base_le_of_blockAt hb)]
  simp [State.reaches, hb, toBlock_of_gated hgated hopen']

theorem reaches_pfBar0_of_gated {b : Block} (hb : pfBlockAt addr = some b) (hgated : s.clocked b = false)
    (hopen : s.innerRegion (b.place.base + (addr - b.place.pf.getD 0)) = false) :
    s.reaches a .pfBar0 addr = .error := by
  simp [State.reaches, hb, toBlock_of_gated hgated hopen]

/-- Settles O50: from either map the access reaches an error response, and such an access only sends it. -/
theorem gatedBlocksAnswerErrors : Obligations.GatedBlocksAnswerErrors := by
  refine ⟨fun s a addr bytes v b hb hgated hopen => ?_, fun s a addr bytes v b hb hgated hopen => ?_⟩
  · have hreach : s.reaches a .main addr = .error := reaches_main_of_gated hb hgated hopen
    exact ⟨exec_splitLowWordRead_of_reaches_error bytes rfl hreach,
      exec_registerWrite_of_reaches_error bytes v rfl hreach⟩
  · have hreach : s.reaches a .pfBar0 addr = .error := reaches_pfBar0_of_gated hb hgated hopen
    exact ⟨exec_splitLowWordRead_of_reaches_error bytes rfl hreach,
      exec_registerWrite_of_reaches_error bytes v rfl hreach⟩

end Sys2Proof.Machine
end

section
/-! Proofs: values split across two registers (R76). First what a latched word is read as after a latch, then what a read by
address does to a register without a row of its own; the registers of split values are such, but for AXIS_POS_LO (R100). -/

namespace Sys2Proof.Machine

variable {s : State} {a : Agent}

/-! ### Latching one word -/

@[simp] theorem State.latch_regs (r : Reg) (i : Nat) (v : W32) : (s.latch a r i v).regs = s.regs := rfl
@[simp] theorem State.latch_sent (r : Reg) (i : Nat) (v : W32) : (s.latch a r i v).sent = s.sent := rfl
@[simp] theorem State.answer_regs (v : W32) : (s.answer a v).regs = s.regs := rfl
@[simp] theorem State.answer_sent (v : W32) : (s.answer a v).sent = .readValue a v :: s.sent := rfl
@[simp] theorem State.answer_latched (v : W32) (b : Agent) (r : Reg) (i : Nat) :
    (s.answer a v).latched b r i = s.latched b r i := rfl
@[simp] theorem State.answer_latchedAt (v : W32) (b : Agent) (key : RegKey) :
    (s.answer a v).latchedAt b key = s.latchedAt b key := rfl

@[simp] theorem State.latched_latch_same (r : Reg) (i : Nat) (v : W32) : (s.latch a r i v).latched a r i = some v := by
  simp [State.latch, State.latched]

theorem sameWord_iff {b b' : Agent} {r r' : Reg} {i i' : Nat} :
    (b == b' && r == r' && i == i') = true ↔ b = b' ∧ r = r' ∧ i = i' := by
  simp [and_assoc]

/-- A latch leaves the word of another agent, register or copy. -/
theorem State.latched_latch_other {b : Agent} {r r' : Reg} {i i' : Nat} (v : W32) (h : ¬ (b = a ∧ r' = r ∧ i' = i)) :
    (s.latch a r i v).latched b r' i' = s.latched b r' i' := by
  have hnew : ¬ (a == b && r == r' && i == i') = true := by
    intro hsame
    obtain ⟨rfl, rfl, rfl⟩ := sameWord_iff.mp hsame
    exact h ⟨rfl, rfl, rfl⟩
  have hkept : ∀ x : Shadow, (!(x.agent == a && x.reg == r && x.i == i) && (x.agent == b && x.reg == r' && x.i == i'))
      = (x.agent == b && x.reg == r' && x.i == i') := by
    intro x
    refine Bool.and_eq_right_iff_imp.mpr fun hread => ?_
    obtain ⟨rfl, rfl, rfl⟩ := sameWord_iff.mp hread
    exact (Bool.not_eq_true' _).mpr (Bool.eq_false_iff.mpr fun hdropped => h (sameWord_iff.mp hdropped))
  simp only [State.latched, State.latch]
  rw [List.find?_cons, Bool.eq_false_iff.mpr hnew, List.find?_filter]
  simp only [Bool.decide_and, Bool.decide_eq_true, hkept]

/-! ### Latching the companions of a low word -/

/-- Latch a given word for each copy of a list: what `State.latchAll` does, freed of the state whose words it latches. -/
def State.latchWords (a : Agent) (word : RegKey → W32) (l : List RegKey) (t : State) : State :=
  forEach l (fun k t => t.latch a k.reg (shadowIx k.i k.k) (word k)) t

theorem State.latchAll_eq_latchWords (l : List RegKey) : s.latchAll a l = State.latchWords a (s.current a) l s := rfl

section
variable (word : RegKey → W32)

@[simp] theorem State.latchWords_nil (t : State) : State.latchWords a word [] t = t := rfl
@[simp] theorem State.latchWords_cons (k : RegKey) (l : List RegKey) (t : State) : State.latchWords a word (k :: l) t
    = State.latchWords a word l (t.latch a k.reg (shadowIx k.i k.k) (word k)) := rfl

@[simp] theorem State.latchWords_regs (l : List RegKey) (t : State) : (State.latchWords a word l t).regs = t.regs := by
  induction l generalizing t with
  | nil => rfl
  | cons k l ih => rw [latchWords_cons, ih, latch_regs]

@[simp] theorem State.latchWords_sent (l : List RegKey) (t : State) : (State.latchWords a word l t).sent = t.sent := by
  induction l generalizing t with
  | nil => rfl
  | cons k l ih => rw [latchWords_cons, ih, latch_sent]

/-- The words of other agents, and of registers not in the list, stay. -/
theorem State.latchedAt_latchWords_other {b : Agent} {key : RegKey} {l : List RegKey}
    (h : b = a → ∀ k ∈ l, k.reg ≠ key.reg) (t : State) :
    (State.latchWords a word l t).latchedAt b key = t.latchedAt b key := by
  induction l generalizing t with
  | nil => rfl
  | cons k l ih =>
    have hk : ¬ (b = a ∧ key.reg = k.reg ∧ shadowIx key.i key.k = shadowIx k.i k.k) :=
      fun hsame => h hsame.1 k List.mem_cons_self hsame.2.1.symm
    rw [latchWords_cons, ih (fun hb k' hk' => h hb k' (List.mem_cons_of_mem k hk'))]
    exact State.latched_latch_other (word k) hk

/-- Each copy in the list holds its word, when no two copies of one register stand in the list. -/
theorem State.latchedAt_latchWords_of_mem {key : RegKey} {l : List RegKey} (hmem : key ∈ l)
    (hone : ∀ k ∈ l, k.reg = key.reg → k = key) (t : State) :
    (State.latchWords a word l t).latchedAt a key = some (word key) := by
  induction l generalizing t with
  | nil => cases hmem
  | cons k l ih =>
    have hone' : ∀ k' ∈ l, k'.reg = key.reg → k' = key := fun k' hk' => hone k' (List.mem_cons_of_mem k hk')
    rw [latchWords_cons]
    by_cases hin : key ∈ l
    · exact ih hin hone' _
    · obtain rfl : key = k := (List.mem_cons.mp hmem).resolve_right hin
      have hlast : ∀ k' ∈ l, k'.reg ≠ key.reg := fun k' hk' hreg => hin (hone' k' hk' hreg ▸ hk')
      rw [State.latchedAt_latchWords_other word fun _ => hlast]
      exact State.latched_latch_same _ _ _

end

/-! ### The register copies that a low-word read latches -/

/-- A register that holds both words in its two copies has no register of a high word and no companion. -/
theorem highOf_companion_of_pairByCopy : ∀ r ∈ Reg.pairByCopy, r.highOf = none ∧ r.companion = none := by decide

theorem mem_shadows_iff {key k : RegKey} : k ∈ key.shadows ↔
    (∃ r, (key.reg.highOf = some r ∨ key.reg.companion = some r) ∧ k = { key with reg := r })
      ∨ (key.reg ∈ Reg.pairByCopy ∧ key.k = 0 ∧ k = { key with k := 1 }) := by
  simp only [RegKey.shadows, List.mem_append, List.mem_map, Option.mem_toList, List.mem_ite_nil_right,
    List.mem_singleton, Bool.and_eq_true, List.contains_iff_mem, beq_iff_eq, and_assoc, @eq_comm _ _ k]

/-- A read latches one copy of a register. -/
theorem eq_of_mem_shadows_of_reg_eq {key k k' : RegKey} (hk : k ∈ key.shadows) (hk' : k' ∈ key.shadows)
    (hreg : k.reg = k'.reg) : k = k' := by
  rcases mem_shadows_iff.mp hk with ⟨r, hr, rfl⟩ | ⟨hpair, _, rfl⟩ <;>
    rcases mem_shadows_iff.mp hk' with ⟨r', hr', rfl⟩ | ⟨hpair', _, rfl⟩
  · rw [show r = r' from hreg]
  · simp [highOf_companion_of_pairByCopy _ hpair'] at hr
  · simp [highOf_companion_of_pairByCopy _ hpair] at hr'
  · rfl

/-- The copy of the high word is among those that a read of the low word latches. -/
theorem mem_shadows_of_high {key hi : RegKey} (h : hi ∈ key.reg.highOf.toList.map (fun r => { key with reg := r }) ++
    (if Reg.pairByCopy.contains key.reg ∧ key.k = 0 then [{ key with k := 1 }] else [])) : hi ∈ key.shadows := by
  rw [mem_shadows_iff]
  rcases List.mem_append.mp h with hhigh | hcopy
  · obtain ⟨r, hr, rfl⟩ := List.mem_map.mp hhigh
    exact .inl ⟨r, .inl (Option.mem_toList.mp hr), rfl⟩
  · split at hcopy
    next hpair => exact .inr ⟨List.contains_iff_mem.mp hpair.1, hpair.2, List.mem_singleton.mp hcopy⟩
    next => cases hcopy

/-! ### Reads of registers without a row of their own -/

/-- The registers whose read has a row of its own. -/
def Reg.ownRead : List Reg :=
  [.AXIS_POS_LO, .TIME_LTC_TC, .TCH_REPORT_HDR, .DMX_RX_INFO, .MIDI_RX, .LTC_IN_TC, .ENC_COUNT]

theorem readReg_of_notMem_ownRead {key : RegKey} (h : key.reg ∉ Reg.ownRead) : s.readReg a key = s.plainRead a key := by
  unfold State.readReg
  split
  case h_8 => rfl
  all_goals
    rename_i hreg
    exact absurd (hreg ▸ by decide) h

/-- Of the registers whose read has a row of its own, AXIS_POS_LO alone is a low word. -/
theorem notLow_of_ownRead :
    ∀ r ∈ Reg.ownRead, r ≠ .AXIS_POS_LO → r.highOf = none ∧ r.companion = none ∧ r ∉ Reg.pairByCopy := by decide

/-- No register whose read has a row of its own is a high word. -/
theorem notHigh_of_ownRead : ∀ r ∈ Reg.all, ∀ h ∈ r.highOf, h ∉ Reg.ownRead := by decide +kernel

theorem notMem_ownRead_of_lowOf {key : RegKey} (h : key.lowOf.isSome = true) : key.reg ∉ Reg.ownRead := by
  intro hown
  have hnone : Reg.all.find? (fun r => r.highOf == some key.reg) = none :=
    List.find?_eq_none.mpr fun r hr hhigh => notHigh_of_ownRead r hr key.reg (eq_of_beq hhigh) hown
  simp [RegKey.lowOf, hnone] at h

theorem notMem_ownRead_of_mem_shadows {key hi : RegKey} (hne : key.reg ≠ .AXIS_POS_LO) (h : hi ∈ key.shadows) :
    key.reg ∉ Reg.ownRead := by
  intro hown
  obtain ⟨hhigh, hcompanion, hpair⟩ := notLow_of_ownRead key.reg hown hne
  simp [mem_shadows_iff, hhigh, hcompanion, hpair] at h

theorem plainRead_of_latched {key : RegKey} {v : W32} (h : s.latchedAt a key = some v) : s.plainRead a key =
    (if s.latchStays a key then s else s.unlatch a key).answer a (v &&& key.reg.readable) := by
  simp [State.plainRead, h]

theorem plainRead_of_not_latched {key : RegKey} (h : s.latchedAt a key = none) : s.plainRead a key =
    (State.latchWords a (s.current a) key.shadows s).answer a (s.current a key) := by
  simp [State.plainRead, h, State.latchAll_eq_latchWords]

/-- A read that reaches a register copy reads it. -/
theorem exec_splitLowWordRead_of_reaches_reg {sp : Space} {addr bytes : Nat} {key : RegKey} {via : Option Nat}
    (hshape : wellShaped addr bytes = true) (h : s.reaches a sp addr = .reg key via) :
    exec (.splitLowWordRead a sp addr bytes) s = .next (settled s (s.readReg a key)) := by
  have hread : s.readAt a sp addr bytes = s.readReg a key := by
    cases sp with
    | csr | fence | msixControl => cases h
    | main | pfBar0 | guestBar0 | islandPort => simp [State.readAt, hshape, h]
  simp [exec_splitLowWordRead, execSplitLowWordRead, h, done_next, hread]

/-! ### The parts of R76 -/

/-- A read with nothing latched returns the live word and changes no register. -/
theorem plainRead_returns_current {key : RegKey} (h : s.latchedAt a key = none) :
    (s.plainRead a key).sent = .readValue a (s.current a key) :: s.sent ∧ (s.plainRead a key).regs = s.regs := by
  rw [plainRead_of_not_latched h]
  simp

/-- A low-word read with nothing latched returns the live word and latches the high word for its agent alone. -/
theorem plainRead_latches_high {key hi : RegKey} (hnone : s.latchedAt a key = none) (hhi : hi ∈ key.shadows) :
    (s.plainRead a key).sent = .readValue a (s.current a key) :: s.sent
      ∧ (s.plainRead a key).latchedAt a hi = some (s.current a hi) ∧ (s.plainRead a key).regs = s.regs
      ∧ ∀ b k, b ≠ a → (s.plainRead a key).latchedAt b k = s.latchedAt b k := by
  obtain ⟨hsent, hregs⟩ := plainRead_returns_current hnone
  refine ⟨hsent, ?_, hregs, fun b k hb => ?_⟩ <;> rw [plainRead_of_not_latched hnone]
  · exact State.latchedAt_latchWords_of_mem _ hhi (fun k hk hreg => eq_of_mem_shadows_of_reg_eq hk hhi hreg) s
  · exact State.latchedAt_latchWords_other _ (fun heq => absurd heq hb) s

/-- R100: the read of AXIS_POS_LO latches the high word of the position at the evaluation. -/
theorem axisPosRead_latches_high (i : Nat) (hclock : s.clocked .TIME = true) :
    (s.axisPosRead a i).latchedAt a ⟨.AXIS_POS_HI, i, 0⟩ = some (highWord (BitVec.ofInt 64 (s.axisAt i s.gridTime).1)) := by
  have hruns : (s.dom.mainUp && decide (s.pwr.state ≤ 2)) = true := hclock
  simp [State.axisPosRead, hruns, State.latchedAt, shadowIx, State.latch64, State.latched_latch_other]

/-- A read of a latched word returns it and changes no register. -/
theorem plainRead_returns_latched {key : RegKey} {v : W32} (h : s.latchedAt a key = some v) :
    (s.plainRead a key).sent = .readValue a (v &&& key.reg.readable) :: s.sent ∧ (s.plainRead a key).regs = s.regs := by
  rw [plainRead_of_latched h]
  split <;> exact ⟨rfl, rfl⟩

/-- Settles O49: but for AXIS_POS_LO, whose row latches its own high word, both words are read by the plain read of R76. -/
theorem splitValues : Obligations.SplitValues := by
  refine ⟨fun s a sp addr bytes key via hi hshape hreach hne hhi hnone => ?_,
    fun s a sp addr bytes i via hshape hreach hclock => ?_,
    fun s a sp addr bytes key via v hshape hreach hlow hsome => ?_,
    fun s a sp addr bytes key via hshape hreach hlow hnone => ?_⟩
  all_goals rw [exec_splitLowWordRead_of_reaches_reg hshape hreach]
  · have hshadow : hi ∈ key.shadows := mem_shadows_of_high hhi
    rw [readReg_of_notMem_ownRead (notMem_ownRead_of_mem_shadows hne hshadow)]
    exact ⟨_, rfl, plainRead_latches_high hnone hshadow⟩
  · exact ⟨_, rfl, axisPosRead_latches_high i hclock⟩
  · rw [readReg_of_notMem_ownRead (notMem_ownRead_of_lowOf hlow)]
    exact ⟨_, rfl, plainRead_returns_latched hsome⟩
  · rw [readReg_of_notMem_ownRead (notMem_ownRead_of_lowOf hlow)]
    exact ⟨_, rfl, plainRead_returns_current hnone⟩

end Sys2Proof.Machine
end

section
/-! Proofs: the CRC check (R321) and its window (R20 to R22). -/

namespace Sys2Proof.Machine

variable {s : State} {a : Agent}

/-! ### A window that only the manager reaches -/

/-- The manager's access to a block that runs acts. -/
theorem State.byManager_manager {clocked : Bool} (f : State → State) (hclock : clocked = true) :
    s.byManager .manager clocked f = f s := if_pos ⟨rfl, hclock⟩

/-- Another agent's access, or one to a block that does not run, gets an error response. -/
theorem State.byManager_denied {clocked : Bool} (f : State → State) (h : a ≠ .manager ∨ clocked = false) :
    s.byManager a clocked f = s.emit (.busError a) :=
  if_neg fun ⟨hmanager, hclock⟩ => h.elim (· hmanager) fun hgated => Bool.false_ne_true (hgated.symm.trans hclock)

/-! ### The check -/

theorem exec_crcCheck (a : Agent) (n : Fin 8) (s : State) : exec (.crcCheck a n) s = execCrcCheck a n s := rfl

theorem State.crcMatches_iff {n : Nat} : s.crcMatches n = true ↔
    s.crcResult n = (s.get .CRC_EXPECT n 1).toNat * 2 ^ 32 + (s.get .CRC_EXPECT n 0).toNat := beq_iff_eq

theorem State.crcCheck_of_match {n : Nat} (h : s.crcMatches n = true) :
    s.crcCheck n = s.fset F.CRC_STATUS.match_ 1 n := if_pos h

theorem State.crcCheck_of_mismatch {n : Nat} (h : ¬ s.crcMatches n = true) :
    s.crcCheck n = (s.fset F.CRC_STATUS.match_ 0 n).raise (312 + n) := if_neg h

/-- A CRC_CHECK of the manager, in a state in which the block runs, does the check. -/
theorem exec_crcCheck_manager (n : Fin 8) (hawake : s.awake = true) :
    exec (.crcCheck .manager n) s = .next (settled s (s.crcCheck n)) := by
  rw [exec_crcCheck, execCrcCheck, done_next, State.byManager_manager _ hawake]

/-- Settles O37: the manager's check acts by whether the result matches CRC_EXPECT (R321; that all bits are compared, and on a
busy channel too, is log entry 165); any other access gets an error response (R20 to R22). -/
theorem crcCheckCompares : Obligations.CrcCheckCompares := by
  refine ⟨fun s n hawake heq => ?agree, fun s n hawake hne => ?differ, fun s a n hdenied => ?denied⟩
  case agree => rw [exec_crcCheck_manager n hawake, State.crcCheck_of_match (State.crcMatches_iff.mpr heq)]
  case differ =>
    rw [exec_crcCheck_manager n hawake, State.crcCheck_of_mismatch fun h => hne (State.crcMatches_iff.mp h)]
  case denied => rw [exec_crcCheck, execCrcCheck, done_next, State.byManager_denied _ hdenied]

end Sys2Proof.Machine
end

section
/-! Proofs: writes of CH_BASE, CH_CQ and CH_CQ_HEAD (R318). What a register write reaches is written by its block; the state of
the channel decides whether the write acts, and R10 which bits it changes. -/

namespace Sys2Proof.Machine

variable {s : State} {a : Agent} {key : RegKey} {via : Option Nat}

/-! ### A write that reaches a register -/

/-- A naturally aligned word write that reaches a register outside SYS writes it and ends. -/
theorem exec_registerWrite_of_reaches_reg {sp : Space} {addr : Nat} (v : BitVec 64) (haligned : addr % 4 = 0)
    (hreach : s.reaches a sp addr = .reg key via) (hblock : key.reg.info.block ≠ .SYS) :
    exec (.registerWrite a sp addr 4 v) s = .next (settledMem s (s.writeReg a key via (v.truncate 32)).1
      (s.writeReg a key via (v.truncate 32)).2) := by
  have hwrite : s.writeAt a sp addr 4 v = s.writeReg a key via (v.truncate 32) := by
    cases sp with
    | csr | fence | msixControl => cases hreach
    | main | pfBar0 | guestBar0 | islandPort => simp [State.writeAt, wellShaped, haligned, hreach]
  simp [exec_registerWrite, execRegisterWrite, hreach, Target.inSys, hblock, packetEnd_next, hwrite]

theorem writeReg_of_dma (v : W32) (hblock : key.reg.info.block = .DMA) :
    s.writeReg a key via v = noStore (s.writeDma key (grant a key via) v) := by
  simp [State.writeReg, hblock]

/-- A write that reaches a register of DMA. -/
theorem exec_registerWrite_dma {sp : Space} {addr : Nat} (v : BitVec 64) (haligned : addr % 4 = 0)
    (hreach : s.reaches a sp addr = .reg key via) (hblock : key.reg.info.block = .DMA) :
    exec (.registerWrite a sp addr 4 v) s =
      .next (settledMem s [] (s.writeDma key (grant a key via) (v.truncate 32))) := by
  rw [exec_registerWrite_of_reaches_reg v haligned hreach (by simp [hblock]), writeReg_of_dma _ hblock, noStore]

/-! ### What the state of the channel decides (R318) -/

/-- The registers of a channel's base and of its completion queue. -/
def Reg.chBases : List Reg := [.CH_BASE_LO, .CH_BASE_HI, .CH_CQ_LO, .CH_CQ_HI]

theorem block_of_mem_chBases : ∀ r ∈ Reg.chBases, r.info.block = .DMA := by decide

theorem writeDma_of_mem_chBases (g v : W32) (hreg : key.reg ∈ Reg.chBases) :
    s.writeDma key g v = s.plainIf (s.chState key.i == chIdle) key g v := by
  simp only [Reg.chBases, List.mem_cons, List.not_mem_nil, or_false] at hreg
  rcases hreg with h | h | h | h <;> simp only [State.writeDma, h]

theorem writeDma_of_cqHead (g v : W32) (hreg : key.reg = .CH_CQ_HEAD) : s.writeDma key g v = s.plain key g v := by
  simp only [State.writeDma, hreg]

theorem writeDma_of_busy (g v : W32) (hreg : key.reg ∈ Reg.chBases) (hbusy : s.chState key.i ≠ chIdle) :
    s.writeDma key g v = s := by
  simp [writeDma_of_mem_chBases g v hreg, State.plainIf, hbusy]

theorem writeDma_of_idle (g v : W32) (hreg : key.reg ∈ Reg.chBases) (hidle : s.chState key.i = chIdle) :
    s.writeDma key g v = s.plain key g v := by
  simp [writeDma_of_mem_chBases g v hreg, State.plainIf, hidle]

/-! ### What the owner may change (R8, R10) -/

theorem maskOf_congr {r : Reg} {c d : FieldDesc → Bool} (h : ∀ f ∈ r.fields, c f = d f) : r.maskOf c = r.maskOf d := by
  rw [Reg.maskOf, List.filter_congr h, Reg.maskOf]

theorem maskOf_eq_zero {r : Reg} {c : FieldDesc → Bool} (h : ∀ f ∈ r.fields, c f = false) : r.maskOf c = 0 := by
  rw [Reg.maskOf, List.filter_eq_nil_iff.mpr fun f hf => Bool.eq_false_iff.mp (h f hf), List.foldl_nil]

/-- A register of the owner: no field of it clears on a 1, its RW fields are the owner's, and nobody writes the others. -/
def Reg.ownerOnly (r : Reg) : Prop :=
  ∀ f ∈ r.fields, f.access ≠ .w1c ∧ f.writers = if f.access = .rw then [.owner] else []

theorem ownerOnly_of_mem : ∀ r ∈ Reg.chBases ++ [.CH_CQ_HEAD], r.ownerOnly := by
  unfold Reg.ownerOnly
  decide

/-- The owner may change the RW fields of such a register; another agent none. -/
theorem grant_of_ownerOnly (h : key.reg.ownerOnly) : grant a key via =
    if ownsCopy a key via then key.reg.maskOf (fun f => f.access == .rw) else 0 := by
  have hfield : ∀ f ∈ key.reg.fields,
      f.writers.any (named a key via) = (ownsCopy a key via && f.access == .rw) := by
    intro f hf
    obtain ⟨-, hwriters⟩ := h f hf
    by_cases hrw : f.access = .rw <;> simp [hwriters, hrw, named]
  split
  next howns => exact maskOf_congr fun f hf => by rw [hfield f hf, howns, Bool.true_and]
  next hother => exact maskOf_eq_zero fun f hf => by rw [hfield f hf, Bool.eq_false_iff.mpr hother, Bool.false_and]

/-- A write without a grant changes no bit. -/
@[simp] theorem nextWord_zero (r : Reg) (old v : W32) : nextWord r 0 old v = old := by
  simp only [nextWord, BitVec.ofNat_eq_ofNat, BitVec.and_zero, BitVec.not_zero, BitVec.and_allOnes, BitVec.or_zero]

/-- With every RW field granted and none that clears on a 1, the RW fields take the value. -/
theorem nextWord_of_rw {r : Reg} (h : ∀ f ∈ r.fields, f.access ≠ .w1c) (old v : W32) :
    nextWord r (r.maskOf fun f => f.access == .rw) old v =
      (old &&& ~~~ r.maskOf fun f => f.access == .rw) ||| (v &&& r.maskOf fun f => f.access == .rw) := by
  have hclears : r.maskOf (fun f => f.access == .w1c) = 0 := maskOf_eq_zero fun f hf => beq_false_of_ne (h f hf)
  simp only [nextWord, hclears, BitVec.and_self, BitVec.ofNat_eq_ofNat, BitVec.zero_and, BitVec.and_zero, BitVec.not_zero,
    BitVec.and_allOnes]

theorem nextWord_of_ownerOnly (h : key.reg.ownerOnly) (old v : W32) : nextWord key.reg (grant a key via) old v =
    if ownsCopy a key via then (old &&& ~~~ key.reg.maskOf (fun f => f.access == .rw)) |||
      (v &&& key.reg.maskOf (fun f => f.access == .rw)) else old := by
  rw [grant_of_ownerOnly h]
  split
  · exact nextWord_of_rw (fun f hf => (h f hf).1) old v
  · exact nextWord_zero key.reg old v

/-- Settles O38: the write reaches the row of DMA, which acts by the state of the channel; the grant decides the bits. -/
theorem channelBaseWrites : Obligations.ChannelBaseWrites := by
  refine ⟨fun s a sp addr v key via haligned hreach hreg hbusy => ?busy,
    fun s a sp addr v key via haligned hreach hreg hidle => ?idle,
    fun s a sp addr v key via haligned hreach hreg => ?head,
    fun a key via old v hreg => nextWord_of_ownerOnly (ownerOnly_of_mem key.reg hreg) old v⟩
  case busy =>
    rw [exec_registerWrite_dma v haligned hreach (block_of_mem_chBases _ hreg), writeDma_of_busy _ _ hreg hbusy]
  case idle =>
    rw [exec_registerWrite_dma v haligned hreach (block_of_mem_chBases _ hreg), writeDma_of_idle _ _ hreg hidle,
      State.plain]
  case head =>
    rw [exec_registerWrite_dma v haligned hreach (by rw [hreg]; rfl), writeDma_of_cqHead _ _ hreg, State.plain]

end Sys2Proof.Machine
end
